-- ==== Sys2Proof/Word.lean ====
section
/-! DEFINITION. The bit-vector types of the words that the THS30 exchanges with its partners. -/

namespace Sys2Proof

/-- One byte of a hall bus payload, of a transmitter record or of the serial memory. -/
abbrev Byte := BitVec 8

/-- One contact chain of the switch matrix: bit `t` belongs to terminal `t` (0 to 39). -/
abbrev Chain := BitVec 40

end Sys2Proof
end

