-- ==== Sys2Proof/Syntax.lean ====
section
/-! DEFINITION. The commands of the THS30: one constructor for each row of spec/opcode_table.json, with the
operands that the rule of the row names. `at_` is the local time in ms at which the command is taken. -/

namespace Sys2Proof

/-- A received frame with a good CRC: the local time of its start bit (R41), the class and sender fields of its
identifier (R42) and its payload (R48). Its kind is that of the command that carries it. -/
structure RxFrame where
  start   : Nat
  cls     : BitVec 2
  sender  : BitVec 5
  payload : List Byte
  deriving DecidableEq, Repr

/-- A reach record as the configuration image holds it, before R191 settles it. -/
structure RawReach where
  terminal  : Byte
  kind      : Byte
  low       : BitVec 16
  high      : BitVec 16
  rating    : BitVec 16
  dedicated : Byte
  deriving DecidableEq, Repr

/-- The configuration image as read from serial memory (section 11.5), with its stored sum. The widths of the raw
fields are a DESIGN CHOICE (notes/assumptions/5.md). -/
structure RawImage where
  station    : Byte
  rating     : BitVec 16
  fmin       : BitVec 16
  fmax       : BitVec 16
  standby    : Byte
  efficiency : Byte
  limit      : BitVec 16
  reserve    : BitVec 16
  lead       : BitVec 16
  tune       : Byte
  reachCount : Byte
  reach      : List RawReach
  sum        : BitVec 16
  deriving DecidableEq, Repr

/-- The contacts that one scan shifts in (R122): for each terminal its open contact, its closed contact and its
column-sense contact, bit set when made. Bits of terminals outside the reach are not read. -/
structure Contacts where
  openMade   : Chain
  closedMade : Chain
  senseMade  : Chain
  deriving DecidableEq, Repr

/-- The commands, in the order of the table. -/
inductive Instr where
  | reset
  | handOver (at_ : Nat) (image : Option RawImage) (scan : Contacts)
  | bankOpen (at_ : Nat)
  | entryPut (at_ : Nat)
  | bankClose (at_ : Nat)
  | extraPut (at_ : Nat)
  | extraDrop (at_ : Nat)
  | entryGet (at_ : Nat)
  | logGet (at_ : Nat)
  | statusGet (at_ : Nat)
  | serialMemoryWriteEnd (at_ : Nat) (kept : Bool)
  | busIdleOffer (at_ : Nat)
  | arbitrationLost (at_ : Nat)
  | attemptSucceeded (at_ : Nat)
  | attemptFailed (at_ : Nat)
  | frameCrcBad (at_ : Nat)
  | denyReceived (at_ : Nat) (f : RxFrame)
  | freeReceived (at_ : Nat) (f : RxFrame)
  | claimReceived (at_ : Nat) (f : RxFrame)
  | intentReceived (at_ : Nat) (f : RxFrame)
  | noticeReceived (at_ : Nat) (f : RxFrame)
  | faultReceived (at_ : Nat) (f : RxFrame)
  | timeReceived (at_ : Nat) (f : RxFrame)
  | requestReceived (at_ : Nat) (f : RxFrame)
  | otherFrameReceived (at_ : Nat) (logrec : Bool) (f : RxFrame)
  | minuteBoundary (at_ : Nat)
  | holdoverExpiry (at_ : Nat)
  | clockRangeEnd (at_ : Nat)
  | listeningTimerExpiry (at_ : Nat)
  | learningTimerExpiry (at_ : Nat)
  | silenceDeadline (at_ : Nat)
  | noticePeriod (at_ : Nat)
  | noticePendingDue (at_ : Nat)
  | bookingAging (at_ : Nat)
  | bookedExpiry (at_ : Nat)
  | suspectExpiry (at_ : Nat)
  | matrixScan (at_ : Nat) (scan : Contacts)
  | driveTimeout (at_ : Nat)
  | recoveryDriveTimeout (at_ : Nat)
  | rfPresentActive (at_ : Nat)
  | rfPresentInactive (at_ : Nat)
  | reportReceived (at_ : Nat) (bytes : List Byte)
  | txRecordDiscarded (at_ : Nat) (bytes : List Byte)
  | linkLossDeadline (at_ : Nat)
  | tuneDeadline (at_ : Nat)
  | rampRungDue (at_ : Nat)
  | rampDownRungDue (at_ : Nat)
  | tripAsserted (at_ : Nat)
  | tripDeasserted (at_ : Nat)
  | tripWindowExpiry (at_ : Nat)
  | recycleTime (at_ : Nat)
  | intentWindowEnd (at_ : Nat)
  | backoffEnd (at_ : Nat)
  | intentExpiry (at_ : Nat)
  | claimWindowEnd (at_ : Nat)
  | claimRetry (at_ : Nat)
  | claimWatch (at_ : Nat)
  | rampTime (at_ : Nat)
  | sequencerRetry (at_ : Nat)
  | unknownKindFrameReceived (at_ : Nat) (kind : Fin 6) (f : RxFrame)
  deriving DecidableEq, Repr

end Sys2Proof
end

