-- ==== Sys2Proof/Decode.lean ====
section
/-! DEFINITION. Commands spelled by table bits. No row of spec/opcode_table.json gives bits ("n_rows_with_fixed": 0 in
spec/98_reader.md), so no word spells a command. -/

namespace Sys2Proof

/-- The command that the table's bits `w` spell: none, since the table gives no row any bits. -/
def decodeTableWord (_nbits _w : Nat) : Option Instr := none

end Sys2Proof
end

