-- ==== Sys2Proof/Config.lean ====
section
/-! DEFINITION. The values that the manual leaves open: constants with no body, so that no proof can see what they
are. Each is applied to `State.freeCount` (a plain counter that the step reads and advances). -/

namespace Sys2Proof

/-- What a THS30 sends in a NOTICE byte that is not read, because no terminal is held or none is booked (R48).
DESIGN CHOICE, notes/assumptions/10.md: a free value. -/
opaque Config.noticeFiller : Nat → Byte

/-- What a THS30 sends in the bytes of a REPLY that follow the reply data (R48). DESIGN CHOICE,
notes/assumptions/10.md: a free value. -/
opaque Config.replyFiller : Nat → Byte

/-- What a THS30 sends in byte 6 of the REPLY to STATUS-GET while its current source is none (R48). DESIGN CHOICE,
notes/assumptions/58.md: a free value. -/
opaque Config.noSourceNumber : Nat → Byte

/-- The class that a booking learned from a NOTICE takes when the class byte is above 3: R48 gives the byte the values
0 to 3, and no check of R58 drops the frame. DESIGN CHOICE, notes/assumptions/41.md: a free value. -/
opaque Config.classAboveThree : Byte → BitVec 2

end Sys2Proof
end

