-- ==== Sys2Proof/Machine/State.lean ====
section
/-! DEFINITION. The state of the THS30 as plain data, block by block, with its value after reset.
Instants and local seconds are integers, since R37 lets a converted local second lie in the past. -/

namespace Sys2Proof.Machine

/-! ## Schedule store (chapter 1) -/

/-- The two season banks. -/
inductive Bank where
  | a | b
  deriving DecidableEq, Repr

/-- Life of a bank's contents (section 1.4). -/
inductive BankState where
  | empty | loading | ready | live | spent
  deriving DecidableEq, Repr

/-- Modulation modes. -/
inductive Mode where
  | am | amc | dig
  deriving DecidableEq, Repr

/-- The fields that entry and extra records share (section 1.1): times are minutes of the day. -/
structure Prog where
  start     : Nat
  stop      : Nat
  freq      : Nat
  mode      : Mode
  carrier   : Nat
  cls       : Nat
  programme : Nat
  cands     : List Nat
  deriving DecidableEq, Repr

/-- An entry record: its number, its day set (bit 0 Monday to bit 6 Sunday) and the shared fields. -/
structure Entry where
  number : Nat
  days   : BitVec 7
  prog   : Prog
  deriving DecidableEq, Repr

/-- An extra record (section 1.2). -/
structure Extra where
  number : Nat
  year   : Nat
  month  : Nat
  day    : Nat
  prog   : Prog
  deriving DecidableEq, Repr

/-- A season bank as held internally. Its entries stand in rising number order; their numbers are the entry set and
how many they are is the entry count. -/
structure BankData where
  state   : BankState
  label   : Nat
  instant : Option Nat
  entries : List Entry
  deriving DecidableEq, Repr

/-- The banks and the eight extra slots. -/
structure Store where
  bankA  : BankData
  bankB  : BankData
  extras : List (Option Extra)
  deriving DecidableEq, Repr

/-- Codes of a REPLY (R48). -/
inductive ReplyCode where
  | done | state | range | overlap | count | gone
  deriving DecidableEq, Repr

/-- A REPLY: the request kind, the code and the bytes of reply data that the code gives, from byte 2 on. -/
structure Reply where
  kind : Nat
  code : ReplyCode
  data : List Byte
  deriving DecidableEq, Repr

/-- A bank header in serial memory. `intact` is no once a write of it was cut short or not kept (R15). -/
structure StoredHeader where
  state    : BankState
  label    : Nat
  instant  : Option Nat
  entrySet : List Nat
  count    : Nat
  sum      : BitVec 16
  intact   : Bool
  deriving DecidableEq, Repr

/-- An entry slot in serial memory that has been written. -/
structure StoredSlot where
  number : Nat
  entry  : Entry
  intact : Bool
  deriving DecidableEq, Repr

/-- The serial-memory copy of one bank; a slot that is not listed has not been written. -/
structure StoredBank where
  header : StoredHeader
  slots  : List StoredSlot
  deriving DecidableEq, Repr

/-- What a serial-memory write writes (R15). -/
inductive SerialWrite where
  | header (bank : Bank) (h : StoredHeader)
  | slot (bank : Bank) (e : Entry)
  deriving DecidableEq, Repr

/-- A write issued and not ended, with the REPLY that waits on its end. -/
structure PendingWrite where
  what  : SerialWrite
  reply : Option Reply
  deriving DecidableEq, Repr

/-- The serial-memory copy of the banks and the writes in the order issued; the first is in progress. -/
structure Serial where
  bankA  : StoredBank
  bankB  : StoredBank
  writes : List PendingWrite
  deriving DecidableEq, Repr

/-- Where an occurrence comes from (section 1.8). -/
inductive Source where
  | bank (bank : Bank) (number : Nat)
  | extra (slot : Nat)
  deriving DecidableEq, Repr

/-- An occurrence: its source, the number its record carries, the record's fields, and its start and stop instants. -/
structure Occurrence where
  source : Source
  number : Nat
  prog   : Prog
  start  : Int
  stop   : Int
  deriving DecidableEq, Repr

/-- Two answers describe the same occurrence when these are equal (section 1.8). -/
structure OccKey where
  source : Source
  start  : Int
  deriving DecidableEq, Repr

/-! ## Station clock (chapter 2) -/

inductive ClockState where
  | unset | locked | holdover
  deriving DecidableEq, Repr

structure Clock where
  state      : ClockState
  refUtc     : Option Nat
  refLocal   : Option Nat
  lastTime   : Option Nat
  lastMinute : Option Nat
  deriving DecidableEq, Repr

/-! ## Join states (chapter 4) -/

inductive JoinState where
  | disabled | listening | learning | joined | isolated
  deriving DecidableEq, Repr

/-- Causes of a JOIN record (section 11.2). -/
inductive JoinCause where
  | start | config | duplicate | timer | silence | drops | heard
  deriving DecidableEq, Repr

/-- The presence unit's state (R62). -/
structure Presence where
  join          : JoinState
  listening     : Option Nat
  learning      : Option Nat
  silence       : Option Nat
  noticeTimer   : Option Nat
  noticePending : Bool
  duplicate     : Bool
  deriving DecidableEq, Repr

/-! ## Matrix and link enumerations (chapters 7 and 8) -/

inductive Position where
  | opened | closed | between
  deriving DecidableEq, Repr

inductive Sense where
  | free | occupied
  deriving DecidableEq, Repr

inductive DriveState where
  | idle | closing | opening | jammed
  deriving DecidableEq, Repr

inductive Direction where
  | close | openUp
  deriving DecidableEq, Repr

inductive Purpose where
  | requested | tidy | reversal | recovery | release
  deriving DecidableEq, Repr

/-- The transmitter operation (R139). -/
inductive Operation where
  | none | tuning | tuned | rampUp | steady | recycle | rampDown | settling
  deriving DecidableEq, Repr

/-- Actions of a TRIP record (section 11.2). -/
inductive TripAction where
  | none | recycle | stepLower | exhausted | ended
  deriving DecidableEq, Repr

/-- The states of an entry context (section 10.2). -/
inductive SeqState where
  | idle | claiming | awaitTerminal | switching | tuning | admitting | ramping | onAir | recycling | ending | localHold
  deriving DecidableEq, Repr

/-- End codes (section 10.4). -/
inductive EndCode where
  | completed | cut | lost | local_
  deriving DecidableEq, Repr

/-- Causes of a TERMINAL-FAULT record. -/
inductive FaultCause where
  | trips | tuneFailed | jammed
  deriving DecidableEq, Repr

/-- The image-check result (R191). -/
inductive ImageResult where
  | accepted | sum | station
  deriving DecidableEq, Repr

/-! ## Air log (chapter 11) -/

/-- The record kinds of section 11.2 with their fields. A terminal of none is sent as 255, a step of none as 0. -/
inductive LogBody where
  | start (result : ImageResult) (station reach clamped : Nat)
  | join (new old : JoinState) (cause : JoinCause)
  | duplicate (station : Nat) (join : JoinState)
  | timeStep (step : Bool) (old : Nat) (diff : Int)
  | changeover (live : Bank) (label : Nat) (spent : Option Bank)
  | bankLost (bank : Bank) (cause : Nat) (entry : Option Nat)
  | entryOn (source : Source) (number : Nat) (terminal step : Option Nat) (level lateness : Nat)
  | entryOff (source : Source) (number : Nat) (code : EndCode) (terminal step : Option Nat) (trips off : Nat)
  | entryMissed (source : Source) (number : Nat) (code : EndCode) (furthest : SeqState)
  | trip (terminal : Option Nat) (number : Nat) (action : TripAction) (level forward : Nat)
  | terminalFault (source : Source) (number : Nat) (terminal : Nat) (cause : FaultCause)
  | linkLoss (returned : Bool) (op : Operation) (terminal : Option Nat)
  | jammed (terminal : Nat) (stage : Nat) (direction : Direction) (position : Option Position)
  deriving DecidableEq, Repr

structure LogRecord where
  seq   : BitVec 16
  stamp : Nat
  unset : Bool
  body  : LogBody
  deriving DecidableEq, Repr

/-- The ring, oldest record first, and the next sequence number (R184). -/
structure AirLog where
  ring    : List LogRecord
  nextSeq : BitVec 16
  deriving DecidableEq, Repr

/-- The request queue: the 16-byte payloads in arrival order, and whether the head has been taken (R186). -/
structure Requests where
  queue   : List (List Byte)
  serving : Bool
  deriving DecidableEq, Repr

/-- The ALERT causes (R190). -/
structure Alert where
  disabled  : Bool
  isolated  : Bool
  linkLost  : Bool
  jammed    : Bool
  duplicate : Bool
  deriving DecidableEq, Repr

/-! ## Bus interface (chapter 3). Times of bookings stand in local seconds until an attempt starts (R47). -/

inductive DenyReason where
  | held | booked | stale | dedicated
  deriving DecidableEq, Repr

structure DenyFrame where
  claimant : Nat
  terminal : Nat
  reason   : DenyReason
  cls      : Nat
  till     : Option Int
  deriving DecidableEq, Repr

structure FreeFrame where
  terminal : Nat
  cls      : Nat
  deriving DecidableEq, Repr

structure ClaimFrame where
  terminal : Nat
  cls      : Nat
  since    : Int
  till     : Int
  deriving DecidableEq, Repr

/-- An INTENT; `withdrawal` marks one placed only to take back an earlier one (R164). -/
structure IntentFrame where
  intended   : Nat
  current    : Nat
  cls        : Nat
  withdrawal : Bool
  deriving DecidableEq, Repr

structure HeldPart where
  terminal : Nat
  cls      : Nat
  till     : Option Int
  deriving DecidableEq, Repr

structure BookedPart where
  terminal : Nat
  cls      : Nat
  since    : Int
  till     : Option Int
  deriving DecidableEq, Repr

structure NoticeFrame where
  join      : JoinState
  localFlag : Bool
  tripped   : Bool
  jammed    : Bool
  demand    : Nat
  held      : Option HeldPart
  booked    : Option BookedPart
  deriving DecidableEq, Repr

inductive FaultReason where
  | reflected | crosspoint
  deriving DecidableEq, Repr

structure FaultFrame where
  terminal : Nat
  reason   : FaultReason
  minutes  : Nat
  deriving DecidableEq, Repr

/-- The outbound slots and queues (section 3.5). -/
inductive Holder where
  | deny | free | claim | intent | notice | fault | reply | logrec
  deriving DecidableEq, Repr

/-- The attempt on the bus: what is being sent, since when, the starts-in a CLAIM carries, and what R56 has to
remember of a change of join state during it: whether JOINED was left (`leftJoined`), whether a newer INTENT was
cancelled (`superseded`), whether the slot was emptied at the entry to DISABLED (`removed`). -/
structure Attempt where
  holder     : Holder
  ident      : BitVec 11
  bytes      : List Byte
  crc        : BitVec 16
  start      : Nat
  startsIn   : Nat
  leftJoined : Bool
  superseded : Bool
  removed    : Bool
  deriving DecidableEq, Repr

structure Bus where
  denyQ       : List DenyFrame
  denyCount   : Nat
  free        : Option FreeFrame
  freeBack    : List FreeFrame
  freeCount   : Nat
  claim       : Option ClaimFrame
  claimCount  : Nat
  withdrawing : Bool
  intent      : Option IntentFrame
  intentNext  : Option IntentFrame
  intentCount : Nat
  notice      : Option NoticeFrame
  noticeNext  : Option NoticeFrame
  noticeCount : Nat
  fault       : Option FaultFrame
  faultBack   : List FaultFrame
  faultCount  : Nat
  reply       : Option Reply
  replyCount  : Nat
  logQ        : List LogRecord
  logCount    : Nat
  attempt     : Option Attempt
  drops       : Nat
  lastHeard   : Nat
  deriving DecidableEq, Repr

/-! ## Booking map (chapter 5) -/

inductive BookState where
  | booked | held | stale | dedicated
  deriving DecidableEq, Repr

inductive BookSource where
  | own | heard | config | sense
  deriving DecidableEq, Repr

/-- A booking; `till = none` is open-ended; `found` marks the own HELD booking that Found closed entered (R77). -/
structure Booking where
  owner  : Nat
  state  : BookState
  cls    : Nat
  since  : Int
  till   : Option Int
  source : BookSource
  heard  : Option Nat
  found  : Bool
  deriving DecidableEq, Repr

/-- One row of the terminal table with the terminal's booking slots (R76, section 5.2). -/
structure TermRow where
  number    : Nat
  load      : Bool
  low       : Nat
  high      : Nat
  rating    : Nat
  dedicated : Nat
  suspect   : Option Nat
  occRun    : Nat
  freeRun   : Nat
  slots     : List Booking
  deriving DecidableEq, Repr

/-! ## Claim engine (chapter 6) -/

inductive ClaimPhase where
  | idle | placed | window | withdrawing | waitJoin | retryWait | booked | halted
  deriving DecidableEq, Repr

inductive Mark where
  | opened | lost | exhausted
  deriving DecidableEq, Repr

inductive Pass where
  | normal | suspect
  deriving DecidableEq, Repr

/-- What happens when a pending withdrawal ends. -/
inductive FollowUp where
  | walkOn
  | search (occ : Occurrence) (givenUp : List Nat)
  | stop
  deriving DecidableEq, Repr

/-- A remembered crossing claim (R111): its start is in ms and counts the starts-in it carried. -/
structure Crossing where
  station : Nat
  cls     : Nat
  startMs : Nat
  since   : Int
  till    : Option Int
  deriving DecidableEq, Repr

structure Watched where
  terminal : Nat
  occ      : Occurrence
  deriving DecidableEq, Repr

structure Claim where
  phase       : ClaimPhase
  occ         : Option Occurrence
  since       : Int
  till        : Int
  marks       : List Mark
  index       : Nat
  pass        : Pass
  skipped     : Bool
  terminal    : Option Nat
  ownStart    : Option Nat
  ownStartsIn : Nat
  windowEnd   : Option Nat
  crossing    : List Crossing
  retry       : Option Nat
  followUp    : Option FollowUp
  watched     : Option Watched
  deriving DecidableEq, Repr

/-- How a terminal was obtained (R104, R113). -/
inductive HowTaken where
  | claimed | extended | dedicated
  deriving DecidableEq, Repr

inductive LostCause where
  | preempted | overtaken | lateDenied | superseded
  deriving DecidableEq, Repr

/-! ## Matrix interface (chapter 7) -/

/-- The per-terminal items of R121; `failed` is the direction of the drive that jammed. -/
structure XRow where
  terminal : Nat
  pos      : Option Position
  sense    : Option Sense
  drive    : DriveState
  recovery : Bool
  failed   : Direction
  deriving DecidableEq, Repr

/-- The active drive. `travel` is the travel time up to the moment `running` (the local time since which the actuator
is driven); `running = none` is a suspended drive. `stop` is the stop a close is made for; `openWaits` says that an Open
request waits for its end (R129). -/
structure Drive where
  terminal  : Nat
  direction : Direction
  purpose   : Purpose
  travel    : Nat
  running   : Option Nat
  stop      : Option Int
  openWaits : Bool
  deriving DecidableEq, Repr

/-- The pending close, with whether WAITING has been handed for it (R127). -/
structure PendingClose where
  terminal : Nat
  stop     : Option Int
  waited   : Bool
  deriving DecidableEq, Repr

structure OpenWork where
  terminal : Nat
  purpose  : Purpose
  deriving DecidableEq, Repr

/-- `scanFrom` is the local time of the accepted hand-over, from which the scans are counted, and `lastScan` that of the
latest scan taken since (R122). -/
structure Matrix where
  rows         : List XRow
  scanFrom     : Option Nat
  lastScan     : Option Nat
  active       : Option Drive
  pendingClose : Option PendingClose
  openWork     : List OpenWork
  releaseMark  : Option Nat
  deriving DecidableEq, Repr

/-- Close tests of R127 that give a notice. -/
inductive CloseTest where
  | otherNotOpen | notHeld | blocked | bookedOver | occupied
  deriving DecidableEq, Repr

/-! ## Transmitter link (chapter 8) -/

inductive LinkState where
  | waiting | up | lost
  deriving DecidableEq, Repr

structure Report where
  tuned      : Bool
  tuneFailed : Bool
  rf         : Bool
  localCtl   : Bool
  forward    : Nat
  fault      : Nat
  arrival    : Nat
  deriving DecidableEq, Repr

/-- Records to the transmitter (R137). -/
inductive TxRecord where
  | tune (freq : Nat) (mode : Mode)
  | programme (channel : Nat)
  | level (kw : Nat)
  | rf (on : Bool)
  deriving DecidableEq, Repr

/-- A record in the output queue with the time its sending ends, in 1/48 ms (one byte takes 25/48 ms, R137). -/
structure TxOut where
  record : TxRecord
  ends   : Nat
  deriving DecidableEq, Repr

structure RampParams where
  carrier : Nat
  step    : Nat
  target  : Nat
  deriving DecidableEq, Repr

/-- A planned act of a ramp: a LEVEL, or the RF off that ends a ramp-down. -/
inductive PlanAct where
  | level (kw : Nat)
  | rfOff
  deriving DecidableEq, Repr

structure PlanItem where
  due : Nat
  act : PlanAct
  deriving DecidableEq, Repr

structure Ladder where
  occ      : OccKey
  terminal : Nat
  count    : Nat
  last     : Option Nat
  deriving DecidableEq, Repr

structure Link where
  state        : LinkState
  report       : Option Report
  lossDeadline : Option Nat
  permit       : Bool
  level        : Nat
  op           : Operation
  opTerminal   : Option Nat
  ramp         : Option RampParams
  plan         : List PlanItem
  tuneDeadline : Option Nat
  seenClear    : Bool
  ladder       : Option Ladder
  recycleAt    : Option Nat
  localFlag    : Bool
  tripped      : Bool
  faultCode    : Nat
  recycling    : Bool
  lostOp       : Operation
  out          : List TxOut
  deriving DecidableEq, Repr

/-- Refusals of Tune and Ramp-up (section 8.9). -/
inductive TxRefusal where
  | linkLost | local_ | faulted | busy | notReady | tripped
  deriving DecidableEq, Repr

/-- Causes of PERMIT-LOST (R143). -/
inductive PermitCause where
  | ownMoved | otherNotOpen | driveStart | heldLost
  deriving DecidableEq, Repr

/-! ## Power share unit (chapter 9) -/

structure Intent where
  intended : Nat
  cls      : Nat
  earlier  : Bool
  arrival  : Nat
  deriving DecidableEq, Repr

/-- One record of the demand table (R158). -/
structure DemandRec where
  current : Option Nat
  intent  : Option Intent
  deriving DecidableEq, Repr

inductive PowerPhase where
  | none | choose | wait | placed | window | backoff
  deriving DecidableEq, Repr

structure AdmitReq where
  occ      : OccKey
  terminal : Nat
  carrier  : Nat
  mode     : Mode
  cls      : Nat
  deriving DecidableEq, Repr

/-- Carrier and mode that the admitted step's demand is worked out from (R157). -/
structure Basis where
  carrier : Nat
  mode    : Mode
  deriving DecidableEq, Repr

structure Power where
  table          : List DemandRec
  announced      : Nat
  phase          : PowerPhase
  request        : Option AdmitReq
  admitted       : Option Nat
  pendingLower   : Option Nat
  requestCap     : Nat
  tripCap        : Nat
  suspectCap     : Option Nat
  candidate      : Option Nat
  ownStart       : Option Nat
  windowEnd      : Option Nat
  backoffEnd     : Option Nat
  ceiling        : Nat
  localMark      : Bool
  basis          : Option Basis
  lastAdmit      : Option (OccKey × Nat)
  releasePending : Bool
  waitHanded     : Bool
  deriving DecidableEq, Repr

/-! ## Entry sequencer (chapter 10) -/

inductive ReleaseStage where
  | settle | opening | clearing
  deriving DecidableEq, Repr

/-- A release in progress (R177); `waitLink` holds it until LINK-BACK (R180). -/
structure Release where
  terminal : Nat
  stage    : ReleaseStage
  waitLink : Bool
  deriving DecidableEq, Repr

structure Taken where
  terminal : Nat
  how      : HowTaken
  suspect  : Bool
  deriving DecidableEq, Repr

/-- A request to the transmitter link that was refused and is handed again (R175). -/
inductive RetryKind where
  | tune | rampUp
  deriving DecidableEq, Repr

structure Retry where
  kind : RetryKind
  due  : Nat
  deriving DecidableEq, Repr

/-- The break a current occurrence waits in (R180). -/
inductive Break where
  | permitMove | permitOther | txFault | link
  deriving DecidableEq, Repr

/-- An entry context (R168); its early mark is `Ctx.early`. `running` says that the occurrence was current when it was
taken or has become current since (R171). `stands` says that the admitted step has been handed in ADMITTED since the
last Release, `heldStep` that a Ramp-up at it follows the TUNED after a break (R180). `former` is the state a
continuation returns to (R176), `deferred` that no Search has been handed for a CLAIMING context (R173). -/
structure Ctx where
  occ        : Option Occurrence
  state      : SeqState
  taken      : Option Taken
  running    : Bool
  stopSec    : Int
  rampTime   : Int
  cap        : Nat
  admitted   : Option Nat
  onAir      : Option Nat
  furthest   : Option SeqState
  offSecs    : Nat
  offSince   : Option Nat
  trips      : Nat
  givenUp    : List Nat
  release    : Option Release
  spent      : Option OccKey
  deferred   : Bool
  retry      : Option Retry
  brk        : Option Break
  stands     : Bool
  heldStep   : Bool
  former     : Option SeqState
  closeAgain : Bool
  closeWaits : Bool
  lastTerm   : Option Nat
  deriving DecidableEq, Repr

/-- R176: the end of a running occurrence that waits on the outcome of the Search for the one that follows it, which the
next context holds: the end code, and the two occurrences. -/
structure Ending where
  code : EndCode
  occ  : OccKey
  next : Occurrence
  deriving DecidableEq, Repr

structure Sequencer where
  cur        : Ctx
  nxt        : Ctx
  ending     : Option Ending
  armed      : Bool
  joinedOnce : Bool
  foundOffer : Bool
  deriving DecidableEq, Repr

/-! ## Configuration in force (section 11.5) -/

structure Settings where
  station    : Nat
  rating     : Nat
  fmin       : Nat
  fmax       : Nat
  standby    : Nat
  efficiency : Nat
  limit      : Nat
  reserve    : Nat
  lead       : Nat
  tune       : Nat
  deriving DecidableEq, Repr

/-! ## Hand-outs between blocks -/

/-- Frame kinds that are handed to blocks (R61). -/
inductive FrameKind where
  | deny | free | claim | intent | notice | fault | time | request
  deriving DecidableEq, Repr

/-- R24: the notices of the schedule store to the sequencer. -/
inductive StoreNotice where
  | changeover (live : Bank)
  | bankOpened (bank : Bank)
  | bankReady (bank : Bank)
  | extraStored (slot : Nat)
  | extraDropped (slot : Nat)
  | extrasRemoved
  deriving DecidableEq, Repr

/-- A hand-out from one block to another that is taken after the block that gives it has finished its rule. -/
inductive Handed where
  /-- R66 step 2: the join-state notices to the blocks. -/
  | joinNotice (old new : JoinState)
  /-- R66 steps 3 to 5: the JOIN record, the ALERT causes and the change of NOTICE content. -/
  | joinTail (old new : JoinState) (cause : JoinCause)
  /-- R46: an isolation cause. -/
  | isolation
  /-- R61: a received frame that passed the receive checks. -/
  | frame (kind : FrameKind) (f : RxFrame)
  /-- R45, R51: the notices for an own CLAIM. -/
  | claimSent (start startsIn : Nat) (withdrawn : Bool)
  | claimDropped
  | claimWithdrawn
  /-- R96: the own BOOKED booking of the terminal was yielded; the class it had. -/
  | preempted (terminal cls : Nat)
  /-- R163: the notices for an own INTENT. -/
  | intentSent (start : Nat)
  | intentDropped
  | intentCancelled
  /-- R45, R55: the sent or dropped notice of the REPLY. -/
  | replyGone
  /-- R142: the own HELD booking entered, left or changed its terminal. -/
  | heldChanged
  /-- R80: a suspect notice. -/
  | suspect (terminal : Nat) (on : Bool)
  /-- R128: a booking entered the slots of the terminal. -/
  | entered (terminal : Nat)
  /-- R147, R143: the commanded level, handed to the power share unit. -/
  | levelChanged
  /-- R166, R165: LOCAL, REMOTE and STEP-LOWER, handed to the power share unit. -/
  | powerLocal
  | powerRemote
  | powerStepLower (step : Nat)
  /-- R68: a periodic placement of NOTICE, reported to the power share unit. -/
  | noticePlaced
  /-- Section 6.7: the claim engine's outcomes. -/
  | booked (occ : OccKey) (terminal position : Nat) (how : HowTaken) (suspect : Bool)
  | waiting (occ : OccKey)
  | exhausted (occ : OccKey)
  | expired (occ : OccKey)
  | searchRefused (occ : OccKey)
  | lostBooking (terminal : Nat) (occ : OccKey) (cause : LostCause)
  /-- Section 7.9: the matrix interface's notices. -/
  | mxClosed (terminal : Nat)
  | mxOpened (terminal : Nat) (reversal : Bool)
  | mxReleased (terminal : Nat)
  | mxWaiting (terminal : Nat) (test : CloseTest)
  | mxAbandoned (terminal : Nat) (test : CloseTest)
  | mxJammed (terminal : Nat) (direction : Direction)
  | mxCleared (terminal : Nat) (position : Position)
  | mxMoved (terminal : Nat) (old new : Position)
  | mxBusy (terminal : Nat)
  | mxNotHeld (terminal : Nat)
  /-- Section 8.9: the transmitter link's outcomes. -/
  | txTuned (terminal : Option Nat)
  | txTuneFailed (terminal : Option Nat) (limit : Bool)
  | txTuneAborted (terminal : Option Nat)
  | txDetuned (terminal : Option Nat)
  | txRamped (level forward : Nat) (recycle : Bool)
  | txCapped (level : Nat)
  | txSettled
  | txTrip (number : Nat) (action : TripAction) (step : Nat)
  | txTripExhausted (terminal : Option Nat)
  | txPermitLost (cause : PermitCause)
  | txLinkLost (cut : Operation)
  | txLinkBack
  | txLocal (cut : Operation)
  | txRemote
  | txFault (code : Nat)
  | txClear
  | txRefused (request : RetryKind) (cause : TxRefusal)
  /-- R164, R161: the power share unit's outcomes. -/
  | pwAdmitted (step demand carrier : Nat)
  | pwWaiting (shortfall : Int)
  | pwRefused (busy : Bool)
  /-- R170: a re-evaluation; `boundary` for a minute boundary, `step` for a STEP setting. -/
  | reevaluate (boundary step : Bool)
  /-- R24: a notice of the schedule store, taken by the sequencer as a re-evaluation. -/
  | storeNotice (notice : StoreNotice)
  /-- R12: the storing of an extra once the drop of the old one has been taken. -/
  | storeExtra (slot : Nat) (x : Extra)
  /-- R187: the placing of a REPLY once the notices of its request have been taken. -/
  | placeReply (r : Reply)
  /-- R173: the next context is looked at once the current one has been settled. -/
  | prepareNext
  /-- R169: the found-closed holding is released unless a context took it. -/
  | foundTest
  /-- R181: the terminal kept through LOCAL-HOLD is released unless a context holds it. -/
  | releaseKept
  deriving DecidableEq, Repr

/-! ## The part -/

/-- The whole part. `stampMinute` is the minute whose boundary the present command has raised: the records written in it
carry second 0 of that minute (R40). -/
structure State where
  now         : Nat
  image       : Option ImageResult
  cfg         : Settings
  rfPresent   : Bool
  tripLine    : Bool
  store       : Store
  serial      : Serial
  clock       : Clock
  log         : AirLog
  req         : Requests
  alert       : Alert
  bus         : Bus
  pres        : Presence
  map         : List TermRow
  claim       : Claim
  mat         : Matrix
  link        : Link
  psu         : Power
  seq         : Sequencer
  handed      : List Handed
  stampMinute : Option Nat
  freeCount   : Nat
  pending     : List Instr
  deriving DecidableEq, Repr

/-- The ways a command could stop the part. The manual names none: every command answers a next state, and no
constructor is ever raised. -/
inductive Fault where
  /-- Raised by no command; it keeps the type inhabited. Safe: it stops nothing. -/
  | noneRaised
  deriving DecidableEq, Repr

/-- The reasons a command is refused. -/
inductive Refusal where
  /-- Raised by `exec` for a command that has no meaning yet. Safe: the model stops where the part goes on. No
  command is refused. -/
  | notModelled (mnemonic : String)
  deriving DecidableEq, Repr

/-! ## Reset values -/

/-- R17, R192: a bank is held EMPTY until it has been read back. -/
def BankData.reset : BankData := { state := .empty, label := 0, instant := none, entries := [] }

def Store.reset : Store := { bankA := .reset, bankB := .reset, extras := List.replicate 8 none }

/-- DESIGN CHOICE (notes/assumptions/6.md): the serial memory before anything has been written. -/
def StoredBank.erased : StoredBank :=
  { header := { state := .empty, label := 0, instant := none, entrySet := [], count := 0, sum := 0xFFFF,
                intact := false },
    slots := [] }

def Serial.erased : Serial := { bankA := .erased, bankB := .erased, writes := [] }

def Clock.reset : Clock :=
  { state := .unset, refUtc := none, refLocal := none, lastTime := none, lastMinute := none }

def AirLog.reset : AirLog := { ring := [], nextSeq := 0 }

def Requests.reset : Requests := { queue := [], serving := false }

def Alert.reset : Alert :=
  { disabled := false, isolated := false, linkLost := false, jammed := false, duplicate := false }

def Bus.reset : Bus :=
  { denyQ := [], denyCount := 0, free := none, freeBack := [], freeCount := 0, claim := none, claimCount := 0,
    withdrawing := false, intent := none, intentNext := none, intentCount := 0, notice := none, noticeNext := none,
    noticeCount := 0, fault := none, faultBack := [], faultCount := 0, reply := none, replyCount := 0, logQ := [],
    logCount := 0, attempt := none, drops := 0, lastHeard := 0 }

/-- R62, last column. -/
def Presence.reset : Presence :=
  { join := .listening, listening := none, learning := none, silence := none, noticeTimer := none,
    noticePending := false, duplicate := false }

/-- R99. -/
def Claim.reset : Claim :=
  { phase := .idle, occ := none, since := 0, till := 0, marks := [], index := 0, pass := .normal, skipped := false,
    terminal := none, ownStart := none, ownStartsIn := 0, windowEnd := none, crossing := [], retry := none,
    followUp := none, watched := none }

/-- R121, last column. -/
def Matrix.reset : Matrix :=
  { rows := [], scanFrom := none, lastScan := none, active := none, pendingClose := none, openWork := [], releaseMark := none }

/-- R139, last column. -/
def Link.reset : Link :=
  { state := .waiting, report := none, lossDeadline := none, permit := false, level := 0, op := .none,
    opTerminal := none, ramp := none, plan := [], tuneDeadline := none, seenClear := false, ladder := none,
    recycleAt := none, localFlag := false, tripped := false, faultCode := 0, recycling := false, lostOp := .none,
    out := [] }

/-- R156, column "After reset". -/
def Power.reset : Power :=
  { table := List.replicate 30 { current := none, intent := none }, announced := 0, phase := .none, request := none,
    admitted := none, pendingLower := none, requestCap := 100, tripCap := 100, suspectCap := none, candidate := none,
    ownStart := none, windowEnd := none, backoffEnd := none, ceiling := 0, localMark := false, basis := none,
    lastAdmit := none, releasePending := false, waitHanded := false }

/-- R168: every field none or no, the state IDLE. -/
def Ctx.reset : Ctx :=
  { occ := none, state := .idle, taken := none, running := false, stopSec := 0, rampTime := 0, cap := 100,
    admitted := none, onAir := none, furthest := none, offSecs := 0, offSince := none, trips := 0, givenUp := [],
    release := none, spent := none, deferred := false, retry := none, brk := none, stands := false, heldStep := false,
    former := none,
    closeAgain := false, closeWaits := false, lastTerm := none }

def Sequencer.reset : Sequencer :=
  { cur := .reset, nxt := .reset, ending := none, armed := false, joinedOnce := false, foundOffer := false }

/-- DESIGN CHOICE (notes/assumptions/4.md): the configuration before the hand-over has settled one. -/
def Settings.reset : Settings :=
  { station := 0, rating := 0, fmin := 0, fmax := 0, standby := 0, efficiency := 0, limit := 0, reserve := 0,
    lead := 0, tune := 0 }

/-- The machine right after reset. -/
def State.reset : State :=
  { now := 0, image := none, cfg := .reset, rfPresent := false, tripLine := false, store := .reset, serial := .erased,
    clock := .reset, log := .reset, req := .reset, alert := .reset, bus := .reset, pres := .reset, map := [],
    claim := .reset, mat := .reset, link := .reset, psu := .reset, seq := .reset, handed := [], stampMinute := none, freeCount := 0,
    pending := [] }

end Sys2Proof.Machine
end

