-- ==== Sys2Proof/Machine/Params.lean ====
section
/-! DEFINITION. The periods, limits and capacities that the manual's rules name. Times are in ms unless said. -/

namespace Sys2Proof.Machine

/-- R33 and section 2.2: the second 2099-12-31 23:59:59. -/
def maxUtc : Nat := 3155759999
/-- R3: the instant 2099-12-31 23:59. -/
def maxInstant : Nat := 52595999
/-- R29: a setting of more than this many seconds is a STEP. -/
def stepSeconds : Nat := 10
/-- R32. -/
def holdoverMs : Nat := 60000
/-- R62. -/
def listeningMs : Nat := 3000
/-- R65. -/
def learningMs : Nat := 8000
/-- R72. -/
def silenceMs : Nat := 10000
/-- R68: the period of NOTICE, and the least time between two placements. -/
def noticePeriodMs : Nat := 2000
def noticeGapMs : Nat := 200
/-- R45: attempts before a frame is dropped. -/
def attemptLimit : Nat := 16
/-- R46: the greatest value of the consecutive-drop count, and the least that gives an isolation cause. -/
def dropMax : Nat := 255
def isolationDrops : Nat := 3
/-- R53, R54, R52: capacities. -/
def denyCapacity : Nat := 4
def logCapacity : Nat := 4
def freeBacklog : Nat := 3
def faultBacklog : Nat := 2
/-- R186, R184. -/
def requestCapacity : Nat := 8
def ringCapacity : Nat := 64
/-- R76. -/
def slotCapacity : Nat := 4
/-- R87, in seconds. -/
def agingSeconds : Nat := 7
/-- R89, R90, R92. -/
def occRunMax : Nat := 255
def phantomRun : Nat := 3
def freeRunMax : Nat := 20
/-- R111. -/
def crossingCapacity : Nat := 4
def equalStartMs : Int := 2000
/-- R109, R105. -/
def claimWindowMs : Nat := 400
def claimRetryMs : Nat := 30000
/-- R122. -/
def scanPeriodMs : Nat := 100
/-- R125, R131. -/
def travelLimitMs : Nat := 8000
/-- R131, R150, in minutes. -/
def faultMinutes : Nat := 30
/-- R139, R140. -/
def reportLossMs : Nat := 3000
/-- R147, R148. -/
def rampRungMs : Nat := 1000
def rampDownMs : Nat := 500
/-- R149, R150. -/
def tripWindowMs : Nat := 120000
def recycleMs : Nat := 5000
/-- R163, R164, R159. -/
def intentWindowMs : Nat := 250
def backoffMs : Nat := 2000
def intentLifeMs : Nat := 15000
/-- R168, R175. -/
def rampLeadSeconds : Nat := 10
def sequencerRetryMs : Nat := 1000
/-- R168: the greatest count of off-air seconds. -/
def offAirMax : Nat := 86400

end Sys2Proof.Machine
end

