-- ==== Sys2Proof/Machine/Calendar.lean ====
section
/-! DEFINITION. Chapter 2: the calendar (R34, R35), the entry activity test (R4, R36), and the readings of local
time and of the station clock (R25, R26, R37). -/

namespace Sys2Proof.Machine

/-! ## Calendar arithmetic (section 2.4) -/

/-- Within 2000 to 2099 a year is a leap year when it is divisible by 4. -/
def isLeap (year : Nat) : Bool := year % 4 == 0

/-- Days of the months 1 to 12. -/
def daysInMonth (year month : Nat) : Nat :=
  if month == 2 then (if isLeap year then 29 else 28)
  else if month == 4 || month == 6 || month == 9 || month == 11 then 30 else 31

/-- The columns "Days before the month" of section 2.4. -/
def daysBefore (year month : Nat) : Nat :=
  [0, 31, 59, 90, 120, 151, 181, 212, 243, 273, 304, 334].getD (month - 1) 0
    + (if month > 2 && isLeap year then 1 else 0)

/-- A date of 2000 to 2099 (R3, R28). -/
def validDate (year month day : Nat) : Bool :=
  decide (2000 ≤ year) && decide (year ≤ 2099) && decide (1 ≤ month) && decide (month ≤ 12)
    && decide (1 ≤ day) && decide (day ≤ daysInMonth year month)

/-- R34: the day number D of a date. -/
def dayNumber (year month day : Nat) : Nat :=
  365 * (year - 2000) + (year - 2000 + 3) / 4 + daysBefore year month + (day - 1)

/-- R34: the instant of a date and a minute of the day. -/
def instantOf (year month day minute : Nat) : Nat := dayNumber year month day * 1440 + minute

/-- R34: the UTC second of a date and time. -/
def utcSecondOf (year month day hour minute second : Nat) : Nat :=
  dayNumber year month day * 86400 + hour * 3600 + minute * 60 + second

/-- R34: the weekday index of a day number, Monday 0. -/
def weekday (d : Nat) : Nat := (d + 5) % 7

/-- R35: the minute of the week of an instant. -/
def minuteOfWeek (x : Nat) : Nat := weekday (x / 1440) * 1440 + x % 1440

/-- A calendar date and time of day. -/
structure DateTime where
  year   : Nat
  month  : Nat
  day    : Nat
  hour   : Nat
  minute : Nat
  deriving DecidableEq, Repr

/-- R35 step 2: years taken from `year` upward while what is left of D is at least their length. -/
def yearAndRest : Nat → Nat → Nat → Nat × Nat
  | 0, year, d => (year, d)
  | fuel + 1, year, d =>
    let len := if isLeap year then 366 else 365
    if len ≤ d then yearAndRest fuel (year + 1) (d - len) else (year, d)

/-- R35 step 3: the last month, from `month` down, whose days-before value is not above `d`. -/
def monthFrom (year d : Nat) : Nat → Nat
  | 0 => 1
  | month + 1 => if daysBefore year (month + 1) ≤ d then month + 1 else monthFrom year d month

/-- R35: an instant turned back into a date and a time of day. -/
def dateOfInstant (x : Nat) : DateTime :=
  let (year, rest) := yearAndRest 100 2000 (x / 1440)
  let month := monthFrom year rest 12
  { year := year, month := month, day := rest - daysBefore year month + 1,
    hour := x % 1440 / 60, minute := x % 1440 - 60 * (x % 1440 / 60) }

/-! ## Weekly activity (R4, R36) -/

/-- Whether a weekday is in a day set. -/
def onDay (days : BitVec 7) (d : Nat) : Bool := days.getLsbD d

/-- R4: the pieces of the week that one day's interval covers; an interval that passes the end of Sunday has two. -/
def dayPieces (start stop d : Nat) : List (Nat × Nat) :=
  if start < stop then [(d * 1440 + start, d * 1440 + stop)]
  else
    let hi := d * 1440 + 1440 + stop
    if hi ≤ 10080 then [(d * 1440 + start, hi)] else [(d * 1440 + start, 10080), (0, hi - 10080)]

/-- R4: the pieces of the week in which an entry is active. -/
def weekPieces (e : Entry) : List (Nat × Nat) :=
  ((List.range 7).filter (onDay e.days)).flatMap (dayPieces e.prog.start e.prog.stop)

/-- R5: whether two entries share a minute of the week. -/
def entriesOverlap (x y : Entry) : Bool :=
  (weekPieces x).any fun p => (weekPieces y).any fun q => decide (p.1 < q.2) && decide (q.1 < p.2)

/-- R36: whether an entry is active at weekday `d` and minute of the day `m`. -/
def activeAt (e : Entry) (d m : Nat) : Bool :=
  if e.prog.start < e.prog.stop then
    onDay e.days d && decide (e.prog.start ≤ m) && decide (m < e.prog.stop)
  else
    (onDay e.days d && decide (e.prog.start ≤ m)) || (onDay e.days ((d + 6) % 7) && decide (m < e.prog.stop))

/-- R6: the start instant of an extra. -/
def extraStart (x : Extra) : Nat := instantOf x.year x.month x.day x.prog.start

/-- R6: the stop instant of an extra. -/
def extraStop (x : Extra) : Nat :=
  if x.prog.start < x.prog.stop then instantOf x.year x.month x.day x.prog.stop
  else instantOf x.year x.month x.day (1440 + x.prog.stop)

/-- R6: active from its start instant up to but not including its stop instant. -/
def extraActive (x : Extra) (t : Nat) : Bool := decide (extraStart x ≤ t) && decide (t < extraStop x)

/-- R6: whether two extras share an instant. -/
def extrasOverlap (x y : Extra) : Bool :=
  decide (extraStart x < extraStop y) && decide (extraStart y < extraStop x)

/-! ## Local time and the station clock (R25, R26, R37) -/

/-- R25: the whole-second part of local time. -/
def State.localSecond (s : State) : Nat := s.now / 1000

/-- R26: the UTC second of the clock at local time `t`; none while it is UNSET. -/
def Clock.utcAt (c : Clock) (t : Nat) : Option Nat :=
  match c.state, c.refUtc, c.refLocal with
  | .unset, _, _ => none
  | _, some u, some l => some (u + (t - l) / 1000)
  | _, _, _ => none

/-- R26: the present UTC second. -/
def State.utc (s : State) : Option Nat := s.clock.utcAt s.now

/-- R26: the present instant. -/
def State.instant (s : State) : Option Nat := s.utc.map (· / 60)

/-- R37: the local second of an instant, answered none while the clock is UNSET. -/
def State.localSecondOf (s : State) (x : Int) : Option Int :=
  s.utc.map fun u => (s.localSecond : Int) + (x * 60 - (u : Int))

/-- Whether the clock is LOCKED or HOLDOVER. -/
def State.clockSet (s : State) : Bool := s.clock.state != .unset

end Sys2Proof.Machine
end

