-- ==== Sys2Proof/Machine/Operands.lean ====
section
/-! DEFINITION. The operand forms: fields of payloads and requests, the codes that stand for states and causes in
them (R48, section 11.2), relative seconds (R38, R39), the identifier (R42) and the check word (R41). -/

namespace Sys2Proof.Machine

/-! ## Bytes and fields -/

/-- The low byte of a number. -/
def byteOf (n : Nat) : Byte := BitVec.ofNat 8 n

/-- A two-byte field, most significant byte first. -/
def word16 (n : Nat) : List Byte := [byteOf (n / 256), byteOf n]

/-- A three-byte field, most significant byte first. -/
def word24 (n : Nat) : List Byte := byteOf (n / 65536) :: word16 n

/-- A four-byte field, most significant byte first. -/
def word32 (n : Nat) : List Byte := byteOf (n / 16777216) :: word24 n

/-- Byte `n` of a payload, numbered from 1 as in R48. -/
def byteAt (p : List Byte) (n : Nat) : Nat := (p.getD (n - 1) 0).toNat

/-- The two-byte field at bytes `n` and `n + 1`. -/
def wordAt (p : List Byte) (n : Nat) : Nat := byteAt p n * 256 + byteAt p (n + 1)

/-- A terminal field: 255 for none. -/
def terminalByte (t : Option Nat) : Byte := byteOf (t.getD 255)

/-! ## Check word (R41): generator x^16 + x^12 + x^5 + 1, the register starting at all ones -/

def crcBit (r : Nat) (bit : Bool) : Nat :=
  let shifted := (r * 2) % 65536
  if ((r / 32768) % 2 == 1) != bit then shifted ^^^ 0x1021 else shifted

/-- The bits of a byte, most significant first. -/
def byteBits (b : Byte) : List Bool := [7, 6, 5, 4, 3, 2, 1, 0].map fun i => b.getLsbD i

def crcFrom : List Byte → Nat → Nat
  | [], r => r
  | b :: rest, r =>
    match (byteBits b).foldl crcBit r with
    | 0 => crcFrom rest 0
    | k + 1 => crcFrom rest (k + 1)

/-- R41, R191: the check word over bytes taken in order from the first. -/
def crc16 (bytes : List Byte) : BitVec 16 := BitVec.ofNat 16 (crcFrom bytes 65535)

/-! ## Identifier (R42) -/

def Holder.code : Holder → Nat
  | .deny => 0 | .free => 1 | .claim => 2 | .intent => 3 | .notice => 4 | .fault => 5 | .reply => 8 | .logrec => 9

/-- R42: kind × 128 + class × 32 + sender. -/
def identifier (kind cls sender : Nat) : Nat := kind * 128 + cls * 32 + sender

/-- R41: the check word over the identifier, length and payload bits: the first two make 16 bits. -/
def frameCrc (ident : Nat) (payload : List Byte) : BitVec 16 :=
  crc16 (word16 (ident * 32 + payload.length) ++ payload)

/-! ## Relative seconds -/

/-- R38: the start of a span that arrives as starts-in, from the local second of the frame's start. -/
def sinceOf (a startsIn : Nat) : Int := (a + min startsIn 65534 : Nat)

/-- R38: the end of a span that arrives as lasts or remaining, from its start; 65535 is open-ended. -/
def tillOf (since : Int) (lasts : Nat) : Option Int := if lasts == 65535 then none else some (since + lasts)

/-- R39: starts-in. -/
def startsIn (since : Int) (n : Nat) : Nat := min (since - n).toNat 65534

/-- R39: lasts. DEDUCED (notes/assumptions/39.md): a value below 0 is sent as 0, as R39 says for remaining. -/
def lastsOf (since : Int) (till : Option Int) (n : Nat) : Nat :=
  match till with
  | none => 65535
  | some u => let d := (u - max since n).toNat; if d > 65534 then 65535 else d

/-- R39: remaining. -/
def remainingOf (till : Option Int) (n : Nat) : Nat :=
  match till with
  | none => 65535
  | some u => let d := (u - n).toNat; if d > 65534 then 65535 else d

/-! ## Codes -/

def Bank.code : Bank → Nat
  | .a => 0 | .b => 1

/-- A bank field: any value but 0 and 1 names no bank (R8). -/
def bankOfCode (n : Nat) : Option Bank :=
  if n == 0 then some .a else if n == 1 then some .b else none

def BankState.code : BankState → Nat
  | .empty => 0 | .loading => 1 | .ready => 2 | .live => 3 | .spent => 4

def Mode.code : Mode → Nat
  | .am => 0 | .amc => 1 | .dig => 2

/-- A mode field: 3 is no mode. -/
def modeOfCode (n : Nat) : Option Mode :=
  if n == 0 then some .am else if n == 1 then some .amc else if n == 2 then some .dig else none

/-- Section 6 of the scope: the mode factors in percent. -/
def Mode.factor : Mode → Nat
  | .am => 150 | .amc => 120 | .dig => 100

def ClockState.code : ClockState → Nat
  | .unset => 0 | .locked => 1 | .holdover => 2

def JoinState.code : JoinState → Nat
  | .disabled => 0 | .listening => 1 | .learning => 2 | .joined => 3 | .isolated => 4

def JoinCause.code : JoinCause → Nat
  | .start => 0 | .config => 1 | .duplicate => 2 | .timer => 3 | .silence => 4 | .drops => 5 | .heard => 6

def SeqState.code : SeqState → Nat
  | .idle => 0 | .claiming => 1 | .awaitTerminal => 2 | .switching => 3 | .tuning => 4 | .admitting => 5
  | .ramping => 6 | .onAir => 7 | .recycling => 8 | .ending => 9 | .localHold => 10

def Operation.code : Operation → Nat
  | .none => 0 | .tuning => 1 | .tuned => 2 | .rampUp => 3 | .steady => 4 | .recycle => 5 | .rampDown => 6
  | .settling => 7

def EndCode.code : EndCode → Nat
  | .completed => 0 | .cut => 1 | .lost => 2 | .local_ => 3

def TripAction.code : TripAction → Nat
  | .none => 0 | .recycle => 1 | .stepLower => 2 | .exhausted => 3 | .ended => 4

def FaultCause.code : FaultCause → Nat
  | .trips => 0 | .tuneFailed => 1 | .jammed => 2

def ImageResult.code : ImageResult → Nat
  | .accepted => 0 | .sum => 1 | .station => 2

def Position.code : Position → Nat
  | .opened => 0 | .closed => 1 | .between => 2

def Direction.code : Direction → Nat
  | .close => 0 | .openUp => 1

def ReplyCode.code : ReplyCode → Nat
  | .done => 0 | .state => 1 | .range => 2 | .overlap => 3 | .count => 4 | .gone => 5

def DenyReason.code : DenyReason → Nat
  | .held => 0 | .booked => 1 | .stale => 2 | .dedicated => 3

def FaultReason.code : FaultReason → Nat
  | .reflected => 0 | .crosspoint => 1

/-- Section 11.2: the source byte: the source kind in bits 7 to 4, the extra slot in bits 3 to 0. -/
def Source.code : Source → Nat
  | .bank .a _ => 16 | .bank .b _ => 32 | .extra slot => 48 + slot

/-- R48, STATUS-GET: 0 none, 1 bank A, 2 bank B, 3 extra. -/
def sourceKind : Option Source → Nat
  | none => 0 | some (.bank .a _) => 1 | some (.bank .b _) => 2 | some (.extra _) => 3

/-- R48, STATUS-GET byte 6: entry number or extra slot. With no current source the spec gives the byte no value: a free
value (DESIGN CHOICE, notes/assumptions/58.md). -/
def sourceNumber (free : Nat) : Option Source → Byte
  | none => Config.noSourceNumber free | some (.bank _ n) => byteOf n | some (.extra slot) => byteOf slot

/-! ## Log records (section 11.2) -/

def LogBody.kind : LogBody → Nat
  | .start .. => 0 | .join .. => 1 | .duplicate .. => 2 | .timeStep .. => 3 | .changeover .. => 4
  | .bankLost .. => 5 | .entryOn .. => 6 | .entryOff .. => 7 | .entryMissed .. => 8 | .trip .. => 9
  | .terminalFault .. => 10 | .linkLoss .. => 11 | .jammed .. => 12

/-- The signed difference of a TIMESTEP record in 24 bits, held within ±8 388 607. -/
def diff24 (d : Int) : Nat := ((max (-8388607) (min 8388607 d)) % 16777216).toNat

/-- Bytes 8 to 15 of a record before the bytes sent as 0 are added. -/
def LogBody.fields : LogBody → List Byte
  | .start r st reach cl => [byteOf r.code, byteOf st, byteOf reach, byteOf (min cl 255)]
  | .join new old c => [byteOf new.code, byteOf old.code, byteOf c.code]
  | .duplicate st j => [byteOf st, byteOf j.code]
  | .timeStep step old d => byteOf (if step then 1 else 0) :: word32 old ++ word24 (diff24 d)
  | .changeover live label spent =>
    [byteOf live.code, byteOf label, byteOf ((spent.map Bank.code).getD 255)]
  | .bankLost bank cause entry => [byteOf bank.code, byteOf cause, byteOf (entry.getD 255)]
  | .entryOn src n t step level late =>
    [byteOf src.code, byteOf n, terminalByte t, byteOf (step.getD 0)] ++ word16 level ++ word16 (min late 65535)
  | .entryOff src n code t step trips off =>
    [byteOf src.code, byteOf n, byteOf code.code, terminalByte t, byteOf (step.getD 0), byteOf trips]
      ++ word16 (min off 65535)
  | .entryMissed src n code f => [byteOf src.code, byteOf n, byteOf code.code, byteOf f.code]
  | .trip t n a level fwd => [terminalByte t, byteOf n, byteOf a.code] ++ word16 level ++ word16 fwd
  | .terminalFault src n t c => [byteOf src.code, byteOf n, byteOf t, byteOf c.code]
  | .linkLoss returned op t => [byteOf (if returned then 1 else 0), byteOf op.code, terminalByte t]
  | .jammed t stage d p => [byteOf t, byteOf stage, byteOf d.code, byteOf ((p.map Position.code).getD 0)]

/-- R48: the 15 payload bytes of a LOGREC; bytes that section 11.2 does not name are sent as 0. -/
def logrecBytes (r : LogRecord) : List Byte :=
  (word16 r.seq.toNat ++ word32 r.stamp ++ [byteOf ((if r.unset then 128 else 0) + r.body.kind)] ++ r.body.fields
    ++ List.replicate 8 0).take 15

/-! ## Entry and extra records as requests carry them (R48) -/

/-- Field codes of a RANGE reply (R48). -/
inductive RangeField where
  | bank | number | days | start | stop | frequency | mode | carrier | cls | programme | candidates | slot | date
  | count | label | instant
  deriving DecidableEq, Repr

def RangeField.code : RangeField → Nat
  | .bank => 1 | .number => 2 | .days => 3 | .start => 4 | .stop => 5 | .frequency => 6 | .mode => 7 | .carrier => 8
  | .cls => 9 | .programme => 10 | .candidates => 11 | .slot => 12 | .date => 13 | .count => 14 | .label => 15
  | .instant => 16

/-- The shared fields of a record before any check; a candidate byte of 255 ends the list. -/
structure RawProg where
  start     : Nat
  stop      : Nat
  freq      : Nat
  mode      : Nat
  carrier   : Nat
  cls       : Nat
  programme : Nat
  cands     : List Nat
  deriving DecidableEq, Repr

/-- R48: the fields that ENTRY-PUT and EXTRA-PUT carry in the same bytes. -/
def rawProgAt (p : List Byte) : RawProg :=
  { start := wordAt p 6, stop := wordAt p 8, freq := wordAt p 10, mode := byteAt p 5 % 4, cls := byteAt p 5 / 4 % 4,
    programme := wordAt p 12 / 1024, carrier := wordAt p 12 % 1024,
    cands := [byteAt p 14, byteAt p 15, byteAt p 16] }

/-- The record that passed its checks: the candidates end at the first 255. -/
def RawProg.toProg (r : RawProg) (mode : Mode) : Prog :=
  { start := r.start, stop := r.stop, freq := r.freq, mode := mode, carrier := r.carrier, cls := r.cls,
    programme := r.programme, cands := r.cands.takeWhile (· != 255) }

/-- A held record's fields as a request would carry them. -/
def Prog.toRaw (g : Prog) : RawProg :=
  { start := g.start, stop := g.stop, freq := g.freq, mode := g.mode.code, carrier := g.carrier, cls := g.cls,
    programme := g.programme, cands := g.cands ++ List.replicate (3 - g.cands.length) 255 }

/-- R2: the position of the first candidate that fails. DEDUCED (notes/assumptions/15.md): a terminal after a 255
fails at its own position. -/
def candidateFail (rows : List TermRow) (freq : Nat) : Nat → List Nat → Bool → List Nat → Option Nat
  | _, _, _, [] => none
  | pos, seen, ended, t :: rest =>
    if t == 255 && pos ≤ 3 then
      if pos == 1 then some 1 else candidateFail rows freq (pos + 1) seen true rest
    else if ended || pos > 3 || t > 39 || seen.contains t then some pos
    else match rows.find? (·.number == t) with
      | none => some pos
      | some row =>
        if row.low > freq || row.high < freq then some pos
        else candidateFail rows freq (pos + 1) (t :: seen) false rest

/-- The first failing check of a list, in order. -/
def firstFail : List (Bool × RangeField) → Option (RangeField × Nat)
  | [] => none
  | (bad, field) :: rest => if bad then some (field, 0) else firstFail rest

/-- R1, R3: the first of the shared fields found out of range, in the order of the record table, with the candidate
position; `stopInstantBad` is the test of R3 on an extra's stop instant, reported as stop. -/
def progFail (cfg : Settings) (rows : List TermRow) (r : RawProg) (stopInstantBad : Bool) :
    Option (RangeField × Nat) :=
  match firstFail
      [(decide (r.start ≥ 1440), .start),
       (decide (r.stop ≥ 1440) || r.stop == r.start || stopInstantBad, .stop),
       (decide (r.freq < 2300) || decide (r.freq > 26100) || decide (r.freq < cfg.fmin) || decide (r.freq > cfg.fmax),
        .frequency),
       ((modeOfCode r.mode).isNone, .mode),
       (r.carrier == 0 || decide (r.carrier > 999) || decide (r.carrier > cfg.rating), .carrier),
       (decide (r.cls > 3), .cls),
       (r.programme == 0 || decide (r.programme > 16), .programme)] with
  | some f => some f
  | none => (candidateFail rows r.freq 1 [] false r.cands).map fun pos => (.candidates, pos)

/-- R1, R2: the first failing field of an entry record. -/
def entryFail (cfg : Settings) (rows : List TermRow) (number days : Nat) (r : RawProg) : Option (RangeField × Nat) :=
  match firstFail [(decide (number > 127), .number), (days == 0 || decide (days > 127), .days)] with
  | some f => some f
  | none => progFail cfg rows r false

/-- R48: bytes 2 to 16 of ENTRY-PUT for a record held in a bank (the reply to ENTRY-GET). -/
def entryBytes (bank : Bank) (e : Entry) : List Byte :=
  [byteOf bank.code, byteOf e.number, byteOf e.days.toNat, byteOf (e.prog.cls % 4 * 4 + e.prog.mode.code)]
    ++ word16 e.prog.start ++ word16 e.prog.stop ++ word16 e.prog.freq
    ++ word16 (e.prog.programme * 1024 + e.prog.carrier) ++ (e.prog.toRaw.cands.map byteOf).take 3

end Sys2Proof.Machine
end

