-- ==== Sys2Proof/Machine/Flags.lean ====
section
/-! DEFINITION. Flags: the ALERT output and its causes (R190, R48), and the flags byte of a NOTICE (R48). -/

namespace Sys2Proof.Machine

/-- R190: ALERT is asserted while any of its causes is set. -/
def Alert.asserted (a : Alert) : Bool := a.disabled || a.isolated || a.linkLost || a.jammed || a.duplicate

/-- One flag at a bit place. -/
def flagBit (b : Bool) (place : Nat) : Nat := if b then 2 ^ place else 0

/-- R48, STATUS-GET byte 11: bit 0 DISABLED, bit 1 ISOLATED, bit 2 link lost, bit 3 JAMMED, bit 4 duplicate. -/
def Alert.byte (a : Alert) : Byte :=
  byteOf (flagBit a.disabled 0 + flagBit a.isolated 1 + flagBit a.linkLost 2 + flagBit a.jammed 3
    + flagBit a.duplicate 4)

/-- R48, NOTICE byte 2: bit 0 LOCAL, bit 1 TRIPPED, bit 2 JAMMED. -/
def noticeFlags (n : NoticeFrame) : Byte :=
  byteOf (flagBit n.localFlag 0 + flagBit n.tripped 1 + flagBit n.jammed 2)

/-- R67: the JAMMED flag is set while any own crosspoint is JAMMED. -/
def Matrix.anyJammed (m : Matrix) : Bool := m.rows.any (·.drive == .jammed)

end Sys2Proof.Machine
end

