-- ==== Sys2Proof/Machine/BusSlots.lean ====
section
/-! DEFINITION. The outbound slots and queues of the bus interface (section 3.5): placing, offering, the end of an
attempt, and what a change of join state does to them. Each operation acts on `Bus` alone and hands back the notices
it gives. -/

namespace Sys2Proof.Machine

/-- R45: whether an attempt of a frame of the holder is on the bus. -/
def Bus.inAttempt (b : Bus) (h : Holder) : Bool :=
  match b.attempt with
  | some a => a.holder == h
  | none => false

/-! ## Placing -/

/-- R50: a NOTICE replaces the frame in the slot, or becomes the waiting successor during an attempt. -/
def Bus.placeNotice (b : Bus) (n : NoticeFrame) : Bus :=
  if b.inAttempt .notice then { b with noticeNext := some n } else { b with notice := some n }

/-- R50: the same for an INTENT. -/
def Bus.placeIntent (b : Bus) (f : IntentFrame) : Bus :=
  if b.inAttempt .intent then { b with intentNext := some f } else { b with intent := some f }

/-- R51: a CLAIM is placed only into an empty slot; `false` is the refused notice. -/
def Bus.placeClaim (b : Bus) (f : ClaimFrame) : Bus × Bool :=
  if b.claim.isSome then (b, false) else ({ b with claim := some f }, true)

/-- R52: a FREE is merged with one for the same terminal, takes the empty slot, joins the backlog, or is not queued. -/
def Bus.placeFree (b : Bus) (f : FreeFrame) : Bus :=
  match b.free with
  | none => { b with free := some f }
  | some g =>
    if g.terminal == f.terminal || b.freeBack.any (·.terminal == f.terminal) then b
    else if b.freeBack.length < freeBacklog then { b with freeBack := b.freeBack ++ [f] }
    else b

/-- R52: the newer FAULT's reason with the larger of the two minute counts. -/
def FaultFrame.merge (old new : FaultFrame) : FaultFrame :=
  { new with minutes := max old.minutes new.minutes }

/-- R52: a FAULT replaces a waiting one for the same terminal that is not in an attempt, takes the empty slot, joins
the backlog, or is not queued. Where one waits in the slot and another in the backlog, the slot's alone is replaced
(DESIGN CHOICE, notes/assumptions/73.md). -/
def Bus.placeFault (b : Bus) (f : FaultFrame) : Bus :=
  match b.fault with
  | none => { b with fault := some f }
  | some g =>
    if g.terminal == f.terminal && ! b.inAttempt .fault then { b with fault := some (g.merge f) }
    else if b.faultBack.any (·.terminal == f.terminal) then
      { b with faultBack := b.faultBack.map fun h => if h.terminal == f.terminal then h.merge f else h }
    else if b.faultBack.length < faultBacklog then { b with faultBack := b.faultBack ++ [f] }
    else b

/-- R53: a DENY of the same claimant and terminal is replaced in its place; of two of them the older one is (DESIGN
CHOICE, notes/assumptions/72.md). -/
def denyReplace (f : DenyFrame) : List DenyFrame → List DenyFrame
  | [] => []
  | g :: rest =>
    if g.claimant == f.claimant && g.terminal == f.terminal then f :: rest else g :: denyReplace f rest

/-- R53: the frames of the DENY queue that a new DENY can replace: not the one in an attempt. -/
def Bus.denyWaiting (b : Bus) : List DenyFrame := if b.inAttempt .deny then b.denyQ.drop 1 else b.denyQ

/-- R53: a DENY replaces its like, joins the end of the queue, or is not queued. -/
def Bus.placeDeny (b : Bus) (f : DenyFrame) : Bus :=
  if b.denyWaiting.any (fun g => g.claimant == f.claimant && g.terminal == f.terminal) then
    { b with denyQ := (if b.inAttempt .deny then b.denyQ.take 1 else []) ++ denyReplace f b.denyWaiting }
  else if b.denyQ.length < denyCapacity then { b with denyQ := b.denyQ ++ [f] }
  else b

/-- R54: a LOGREC joins the queue; a full queue pushes out the oldest frame that is not in an attempt, and its attempt
count becomes 0 when that was the oldest of all. -/
def Bus.placeLogrec (b : Bus) (r : LogRecord) : Bus :=
  if b.logQ.length < logCapacity then { b with logQ := b.logQ ++ [r] }
  else if b.inAttempt .logrec then { b with logQ := b.logQ.take 1 ++ b.logQ.drop 2 ++ [r] }
  else { b with logQ := b.logQ.drop 1 ++ [r], logCount := 0 }

/-- R55: the REPLY slot. -/
def Bus.placeReply (b : Bus) (r : Reply) : Bus := { b with reply := some r }

/-! ## Withdrawal of the CLAIM (R51) -/

/-- R51: not in an attempt the CLAIM leaves at once; in an attempt the withdrawal is pending; an empty slot has no
effect. -/
def Bus.withdrawClaim (b : Bus) : Bus × List Handed :=
  if b.claim.isNone then (b, [])
  else if b.inAttempt .claim then ({ b with withdrawing := true }, [])
  else ({ b with claim := none, claimCount := 0 }, [.claimWithdrawn])

/-! ## Eligibility and offering (R49) -/

/-- R49, the table. -/
def eligible (j : JoinState) (h : Holder) : Bool :=
  match j with
  | .disabled => h == .reply
  | .listening => false
  | .learning => h != .claim && h != .intent
  | .joined => true
  | .isolated => h != .claim && h != .intent

/-- The class field of a NOTICE (R42): the better of the classes it carries, else 3. -/
def NoticeFrame.cls (n : NoticeFrame) : Nat :=
  min ((n.held.map (·.cls)).getD 3) ((n.booked.map (·.cls)).getD 3)

/-- R49: the frame of each slot and the oldest of each queue, with its identifier (R42). -/
def Bus.offers (b : Bus) (station : Nat) : List (Nat × Holder) :=
  let at_ (h : Holder) (cls : Option Nat) : List (Nat × Holder) :=
    match cls with
    | none => []
    | some c => [(identifier h.code c station, h)]
  at_ .deny (b.denyQ.head?.map (·.cls)) ++ at_ .free (b.free.map (·.cls)) ++ at_ .claim (b.claim.map (·.cls))
    ++ at_ .intent (b.intent.map (·.cls)) ++ at_ .notice (b.notice.map (·.cls)) ++ at_ .fault (b.fault.map fun _ => 0)
    ++ at_ .reply (b.reply.map fun _ => 3) ++ at_ .logrec (b.logQ.head?.map fun _ => 3)

/-- The offer with the lowest identifier. -/
def lowestOffer : List (Nat × Holder) → Option (Nat × Holder)
  | [] => none
  | x :: rest =>
    match lowestOffer rest with
    | none => some x
    | some y => if x.1 ≤ y.1 then some x else some y

/-- R49: what the station offers at an idle bus. -/
def Bus.offered (b : Bus) (j : JoinState) (station : Nat) : Option (Nat × Holder) :=
  lowestOffer ((b.offers station).filter fun o => eligible j o.2)

/-! ## Building the bytes of an attempt (R47, R48) -/

/-- R48: the 14 bytes of a NOTICE at local second `n`; `free` numbers the free bytes. -/
def NoticeFrame.bytes (f : NoticeFrame) (n free : Nat) : List Byte :=
  let filler (k : Nat) : Byte := Config.noticeFiller (16 * free + k)
  let held : List Byte :=
    match f.held with
    | none => [byteOf 255, filler 0, filler 1, filler 2]
    | some h => [byteOf h.terminal, byteOf h.cls] ++ word16 (remainingOf h.till n)
  let booked : List Byte :=
    match f.booked with
    | none => [byteOf 255, filler 3, filler 4, filler 5, filler 6, filler 7]
    | some k =>
      [byteOf k.terminal, byteOf k.cls] ++ word16 (startsIn k.since n) ++ word16 (lastsOf k.since k.till n)
  [byteOf f.join.code, noticeFlags f] ++ word16 f.demand ++ held ++ booked

/-- R48: the 16 bytes of a REPLY; the bytes after its data are free values. -/
def Reply.bytes (r : Reply) (free : Nat) : List Byte :=
  (byteOf (r.kind * 16 + r.code.code) :: r.data
    ++ (List.range 15).map fun k => Config.replyFiller (16 * free + k)).take 16

def DenyFrame.bytes (f : DenyFrame) (n : Nat) : List Byte :=
  [byteOf f.claimant, byteOf f.terminal, byteOf f.reason.code] ++ word16 (remainingOf f.till n)

def ClaimFrame.bytes (f : ClaimFrame) (n : Nat) : List Byte :=
  [byteOf f.terminal, byteOf f.cls] ++ word16 (startsIn f.since n) ++ word16 (lastsOf f.since (some f.till) n)

def IntentFrame.bytes (f : IntentFrame) : List Byte :=
  word16 f.intended ++ word16 f.current ++ [byteOf f.cls]

/-- R47: the payload of the holder's frame at the local second `n` of the attempt's start bit. -/
def Bus.payload (b : Bus) (h : Holder) (n free : Nat) : List Byte :=
  match h with
  | .deny => (b.denyQ.head?.map fun f => f.bytes n).getD []
  | .free => (b.free.map fun f => [byteOf f.terminal]).getD []
  | .claim => (b.claim.map fun f => f.bytes n).getD []
  | .intent => (b.intent.map fun f => f.bytes).getD []
  | .notice => (b.notice.map fun f => f.bytes n free).getD []
  | .fault => (b.fault.map fun f => [byteOf f.terminal, byteOf f.reason.code, byteOf f.minutes]).getD []
  | .reply => (b.reply.map fun f => f.bytes free).getD []
  | .logrec => (b.logQ.head?.map logrecBytes).getD []

/-- The starts-in that an attempt of a CLAIM carries; 0 for the other kinds. -/
def Bus.claimStartsIn (b : Bus) (h : Holder) (n : Nat) : Nat :=
  match h, b.claim with
  | .claim, some f => startsIn f.since n
  | _, _ => 0

/-- R43, R47: the attempt that begins at local time `t` with the offered frame; none is begun during an attempt. -/
def Bus.begin_ (b : Bus) (j : JoinState) (station t free : Nat) : Bus :=
  if b.attempt.isSome then b
  else match b.offered j station with
    | none => b
    | some (ident, h) =>
      let payload := b.payload h (t / 1000) free
      let a : Attempt :=
        { holder := h, ident := BitVec.ofNat 11 ident, bytes := payload, crc := frameCrc ident payload, start := t,
          startsIn := b.claimStartsIn h (t / 1000), leftJoined := false, superseded := false, removed := false }
      { b with attempt := some a }

/-! ## The end of an attempt -/

/-- The holder's attempt count (R45). -/
def Bus.count (b : Bus) : Holder → Nat
  | .deny => b.denyCount | .free => b.freeCount | .claim => b.claimCount | .intent => b.intentCount
  | .notice => b.noticeCount | .fault => b.faultCount | .reply => b.replyCount | .logrec => b.logCount

def Bus.setCount (b : Bus) (h : Holder) (n : Nat) : Bus :=
  match h with
  | .deny => { b with denyCount := n }
  | .free => { b with freeCount := n }
  | .claim => { b with claimCount := n }
  | .intent => { b with intentCount := n }
  | .notice => { b with noticeCount := n }
  | .fault => { b with faultCount := n }
  | .reply => { b with replyCount := n }
  | .logrec => { b with logCount := n }

/-- R45, R50, R52 to R55: the frame leaves its slot or queue, and what waits behind it moves forward. -/
def Bus.leave (b : Bus) (h : Holder) : Bus :=
  match h with
  | .deny => { b with denyQ := b.denyQ.drop 1 }
  | .free => { b with free := b.freeBack.head?, freeBack := b.freeBack.drop 1 }
  | .claim => { b with claim := none, withdrawing := false }
  | .intent => { b with intent := b.intentNext, intentNext := none }
  | .notice => { b with notice := b.noticeNext, noticeNext := none }
  | .fault => { b with fault := b.faultBack.head?, faultBack := b.faultBack.drop 1 }
  | .reply => { b with reply := none }
  | .logrec => { b with logQ := b.logQ.drop 1 }

/-- An INTENT notice is acted on when it tells of the newest INTENT and that is no withdrawal (R163; DEDUCED,
notes/assumptions/13.md). -/
def Bus.intentCounts (b : Bus) (a : Attempt) : Bool :=
  b.intentNext.isNone && ! a.superseded && ! ((b.intent.map (·.withdrawal)).getD true)

/-- R45: the sent notice that the owner of the frame acts on. -/
def Bus.sentNotices (b : Bus) (a : Attempt) : List Handed :=
  match a.holder with
  | .claim => [.claimSent a.start a.startsIn b.withdrawing]
  | .intent => if b.intentCounts a then [.intentSent a.start] else []
  | .reply => [.replyGone]
  | _ => []

/-- R45: the dropped notice that the owner of the frame acts on. -/
def Bus.dropNotices (b : Bus) (a : Attempt) : List Handed :=
  match a.holder with
  | .claim => [.claimDropped]
  | .intent => if b.intentCounts a then [.intentDropped] else []
  | .reply => [.replyGone]
  | _ => []

/-- R50: the successor takes the slot of the frame just tried; the attempt count carries on. -/
def Bus.moveSuccessor (b : Bus) (h : Holder) : Bus :=
  match h with
  | .notice => if b.noticeNext.isSome then { b with notice := b.noticeNext, noticeNext := none } else b
  | .intent => if b.intentNext.isSome then { b with intent := b.intentNext, intentNext := none } else b
  | _ => b

/-- R51, R56: what becomes of a CLAIM or INTENT that was not sent, when it is withdrawn or JOINED was left during its
attempt: it leaves as withdrawn or cancelled. None: it stays. -/
def Bus.takenBack (b : Bus) (a : Attempt) : Option (Bus × List Handed) :=
  match a.holder with
  | .claim =>
    if b.withdrawing || a.leftJoined then
      some ({ b with claim := none, claimCount := 0, withdrawing := false }, [.claimWithdrawn])
    else none
  | .intent =>
    if a.leftJoined then
      some ({ b with intent := b.intentNext, intentNext := none, intentCount := 0 },
        if b.intentCounts a then [.intentCancelled] else [])
    else none
  | _ => none

/-- R45, success: the frame leaves its slot, its count and the consecutive-drop count become 0, and the owner is
handed a sent notice. A frame removed at the entry to DISABLED gives none (R56). -/
def Bus.succeed (b : Bus) : Bus × List Handed :=
  match b.attempt with
  | none => (b, [])
  | some a =>
    if a.removed then ({ b with attempt := none, drops := 0 }, [])
    else
      ((({ b with attempt := none, drops := 0 } : Bus).leave a.holder).setCount a.holder 0, b.sentNotices a)

/-- R45, R46: the sixteenth failure drops the frame. -/
def Bus.dropFrame (b : Bus) (a : Attempt) : Bus × List Handed :=
  let drops := min (b.drops + 1) dropMax
  ((({ b with attempt := none, drops := drops } : Bus).leave a.holder).setCount a.holder 0,
    (if drops ≥ isolationDrops then [Handed.isolation] else []) ++ b.dropNotices a)

/-- R45, failure. -/
def Bus.fail (b : Bus) : Bus × List Handed :=
  match b.attempt with
  | none => (b, [])
  | some a =>
    if a.removed then ({ b with attempt := none }, [])
    else match ({ b with attempt := none } : Bus).takenBack a with
      | some r => r
      | none =>
        if b.count a.holder + 1 < attemptLimit then
          ((({ b with attempt := none } : Bus).setCount a.holder (b.count a.holder + 1)).moveSuccessor a.holder, [])
        else b.dropFrame a

/-- R43: a loss of arbitration ends the attempt without counting it. -/
def Bus.loseArbitration (b : Bus) : Bus × List Handed :=
  match b.attempt with
  | none => (b, [])
  | some a =>
    if a.removed then ({ b with attempt := none }, [])
    else match ({ b with attempt := none } : Bus).takenBack a with
      | some r => r
      | none => (({ b with attempt := none } : Bus).moveSuccessor a.holder, [])

/-! ## Change of join state (R56) -/

/-- R56, entering DISABLED: all but the REPLY slot is emptied, without notices; a frame in an attempt runs on. -/
def Bus.disable (b : Bus) : Bus :=
  { Bus.reset with
    reply := b.reply, replyCount := b.replyCount, drops := b.drops, lastHeard := b.lastHeard,
    attempt := b.attempt.map fun a => if a.holder == .reply then a else { a with removed := true } }

/-- R56, leaving JOINED: what is not in an attempt leaves as withdrawn or cancelled; what is in one remembers it. -/
def Bus.leaveJoined (b : Bus) : Bus × List Handed :=
  let mark := b.attempt.map fun a =>
    { a with leftJoined := true, superseded := a.superseded || (a.holder == .intent && b.intentNext.isSome) }
  let (claim, n1) :=
    if b.claim.isSome && ! b.inAttempt .claim then ((none, 0), [Handed.claimWithdrawn])
    else ((b.claim, b.claimCount), [])
  let (intent, n2) :=
    if b.inAttempt .intent then ((b.intent, b.intentCount), if b.intentNext.isSome then [Handed.intentCancelled] else [])
    else ((none, 0), if b.intent.isSome then [Handed.intentCancelled] else [])
  ({ b with attempt := mark, claim := claim.1, claimCount := claim.2, intent := intent.1, intentCount := intent.2,
            intentNext := none }, n1 ++ n2)

/-- R56. -/
def Bus.onJoin (b : Bus) (old new : JoinState) : Bus × List Handed :=
  if new == .disabled then (b.disable, [])
  else if old == .joined && new != .joined then b.leaveJoined
  else (b, [])

end Sys2Proof.Machine
end

