-- ==== Sys2Proof/Machine/Ops.lean ====
section
/-! DEFINITION. Operations that every block uses: handing notices, moving local time, and writing log records
(R40, R184). -/

namespace Sys2Proof.Machine

/-- Hands notices to other blocks; they are taken in the order handed (notes/assumptions/3.md). -/
def State.emit (s : State) (ms : List Handed) : State := { s with handed := s.handed ++ ms }

/-- R25: local time moves on to the time of a command, never back (notes/assumptions/1.md). Transmitter records whose
last byte has been sent leave the output queue (R137, notes/assumptions/11.md). -/
def State.atTime (s : State) (t : Nat) : State :=
  { s with
    now := max s.now t,
    stampMinute := none,
    link := { s.link with out := s.link.out.filter fun r => decide (max s.now t * 48 < r.ends) } }

/-- Whether a deadline has been reached. A command of a timed event taken before the event is due has no effect
(notes/assumptions/1.md). -/
def State.reached (s : State) (due : Option Nat) : Bool :=
  match due with
  | none => false
  | some t => decide (t ≤ s.now)

/-! ## The air log -/

/-- R184 steps 1 to 3: the record takes the next number and becomes the newest of at most 64. -/
def AirLog.write (l : AirLog) (stamp : Nat) (unset : Bool) (body : LogBody) : AirLog :=
  let ring := l.ring ++ [{ seq := l.nextSeq, stamp := stamp, unset := unset, body := body }]
  { ring := ring.drop (ring.length - ringCapacity), nextSeq := l.nextSeq + 1 }

/-- R184 with the timestamp given: the record is stored, and placed as a LOGREC except in DISABLED. -/
def State.writeLogAt (s : State) (stamp : Nat) (unset : Bool) (body : LogBody) : State :=
  { s with
    log := s.log.write stamp unset body,
    bus := if s.pres.join == .disabled then s.bus
      else s.bus.placeLogrec { seq := s.log.nextSeq, stamp := stamp, unset := unset, body := body } }

/-- R40, R184: a record stamped with the present UTC second, or with second 0 of the minute whose boundary is being taken;
while UNSET, with the local second and the UNSET flag. -/
def State.writeLog (s : State) (body : LogBody) : State :=
  match s.utc with
  | some u => s.writeLogAt (match s.stampMinute with | some m => 60 * m | none => u) false body
  | none => s.writeLogAt s.localSecond true body

/-- R192 step 2: a record that precedes those written since the reset and takes the number of the first of them. -/
def AirLog.writeFirst (l : AirLog) (stamp : Nat) (body : LogBody) : AirLog :=
  let ring := { seq := l.nextSeq - BitVec.ofNat 16 l.ring.length, stamp := stamp, unset := true, body := body }
    :: l.ring.map fun r => { r with seq := r.seq + 1 }
  { ring := ring.drop (ring.length - ringCapacity), nextSeq := l.nextSeq + 1 }

/-- R192 step 2: START, the first record, written before any TIME frame set the clock: with the UNSET flag and the local
second, which is 0 when a TIMESTEP record has followed it already (DEDUCED, notes/assumptions/68.md). -/
def State.writeStart (s : State) (body : LogBody) : State :=
  let stamp := if s.log.ring.isEmpty then s.localSecond else 0
  let queued := s.bus.logQ.map fun r => { r with seq := r.seq + 1 }
  let start := { seq := s.log.nextSeq - BitVec.ofNat 16 s.log.ring.length, stamp := stamp, unset := true, body := body }
  { s with
    log := s.log.writeFirst stamp body,
    bus := if s.pres.join == .disabled then s.bus
      else { s.bus with logQ := if queued.length < logCapacity then start :: queued else queued } }

/-- R185: the record with a sequence number, while the ring holds it. -/
def AirLog.get (l : AirLog) (seq : BitVec 16) : Option LogRecord :=
  match l.ring.getLast? with
  | none => none
  | some newest =>
    let back := (newest.seq - seq).toNat
    if back < l.ring.length then l.ring[l.ring.length - 1 - back]? else none

/-! ## Small readings -/

/-- Whether the station is in a join state. -/
def State.inJoin (s : State) (j : JoinState) : Bool := s.pres.join == j

/-- A step's level of a carrier: floor of the percentage (R147). -/
def stepLevel (carrier step : Nat) : Nat := carrier * step / 100

/-- The first element that is some. -/
def firstSome {α : Type} : List (Option α) → Option α
  | [] => none
  | some x :: _ => some x
  | none :: rest => firstSome rest

/-- Every element that satisfies the test is changed. -/
def updateWhere {α : Type} (test : α → Bool) (change : α → α) (l : List α) : List α :=
  l.map fun x => if test x then change x else x

end Sys2Proof.Machine
end

