-- ==== Sys2Proof/Machine/BookingMap.lean ====
section
/-! DEFINITION. The booking map as data (chapter 5): the booking comparison, slots and eviction (R76, R78), what frames
and scans do to the rows (R79 to R92), and the questions the map answers (R98). Everything here acts on the rows
alone. -/

namespace Sys2Proof.Machine

/-! ## Comparison and spans -/

/-- What the booking comparison looks at (section 7.10 of the scope). -/
structure Rank where
  cls     : Nat
  since   : Int
  station : Nat
  deriving DecidableEq, Repr

/-- Section 7.10: the better class wins; between equal classes the earlier start; between equal starts the lower
station number. -/
def Rank.beats (x y : Rank) : Bool :=
  if x.cls != y.cls then decide (x.cls < y.cls)
  else if x.since != y.since then decide (x.since < y.since)
  else decide (x.station < y.station)

/-- R76: DEDICATED bookings and bookings of owner 0 rank as class 0. -/
def Booking.rank (b : Booking) : Rank :=
  { cls := if b.state == .dedicated || b.owner == 0 then 0 else b.cls, since := b.since, station := b.owner }

/-- Section 7.6: two spans overlap when one starts before the other ends and ends after the other starts. -/
def spansOverlap (since1 : Int) (till1 : Option Int) (since2 : Int) (till2 : Option Int) : Bool :=
  (match till2 with | none => true | some u => decide (since1 < u))
    && (match till1 with | none => true | some u => decide (since2 < u))

/-- The end of a booking in the test of overlap: R94 has a STALE booking open-ended from its from, whatever until R86 gave
it (for the questions of R98 DEDUCED, notes/assumptions/83.md). -/
def Booking.reach (b : Booking) : Option Int := if b.state == .stale then none else b.till

/-- Whether a booking's span overlaps a span. -/
def Booking.overlaps (b : Booking) (since : Int) (till : Option Int) : Bool := spansOverlap b.since b.reach since till

/-- Whether a booking's span covers a span. -/
def Booking.covers (b : Booking) (since : Int) (till : Option Int) : Bool :=
  decide (b.since ≤ since)
    && (match b.till, till with
        | none, _ => true
        | some _, none => false
        | some u, some v => decide (v ≤ u))

/-! ## Slots (R76, R78) -/

/-- R76: the order of the occupied slots. -/
def Booking.before (x y : Booking) : Bool :=
  decide (x.since < y.since) || (x.since == y.since && x.rank.beats y.rank)

/-- A booking takes its place in the order; one that ties with a standing one comes after it (DESIGN CHOICE,
notes/assumptions/59.md). -/
def insertBooking (b : Booking) : List Booking → List Booking
  | [] => [b]
  | x :: rest => if b.before x then b :: x :: rest else x :: insertBooking b rest

/-- R78: the bookings that may be evicted. -/
def Booking.evictable (b : Booking) : Bool := b.state == .booked && b.source == .heard

/-- R78: the HEARD BOOKED booking with the latest from; between equal froms the one that loses the comparison. Both
come last in the order of R76. -/
def lastEvictable (slots : List Booking) : Option Booking := (slots.filter Booking.evictable).getLast?

/-- R78: whether the newcomer may take the place of the booking found. An own booking may do so whatever the from. -/
def Booking.mayEvict (newcomer found : Booking) : Bool :=
  newcomer.source == .own || decide (newcomer.since < found.since)

/-- The row with the booking entered, or none when R78 finds no room. -/
def TermRow.enter (r : TermRow) (b : Booking) : Option TermRow :=
  if r.slots.length < slotCapacity then some { r with slots := insertBooking b r.slots }
  else match lastEvictable r.slots with
    | none => none
    | some old =>
      if b.mayEvict old then some { r with slots := insertBooking b (r.slots.erase old) } else none

/-- The row without the bookings that satisfy the test. -/
def TermRow.drop (r : TermRow) (test : Booking → Bool) : TermRow :=
  { r with slots := r.slots.filter fun b => ! test b }

/-- The row with the bookings that satisfy the test changed and moved to their new places. -/
def TermRow.change (r : TermRow) (test : Booking → Bool) (f : Booking → Booking) : TermRow :=
  { r with slots := ((r.slots.filter test).map f).foldr insertBooking (r.slots.filter fun b => ! test b) }

/-! ## Rows of the map -/

/-- The row of a terminal; none outside the reach. -/
def rowOf (m : List TermRow) (t : Nat) : Option TermRow := m.find? (·.number == t)

/-- Whether a terminal is in the reach. -/
def inReach (m : List TermRow) (t : Nat) : Bool := m.any (·.number == t)

/-- The row of a terminal is replaced. -/
def setRow (m : List TermRow) (r : TermRow) : List TermRow := updateWhere (·.number == r.number) (fun _ => r) m

/-- A booking enters a terminal; none outside the reach or without room. -/
def mapEnter (m : List TermRow) (t : Nat) (b : Booking) : Option (List TermRow) :=
  ((rowOf m t).bind (·.enter b)).map (setRow m)

/-- Bookings of a terminal leave. -/
def mapDropAt (m : List TermRow) (t : Nat) (test : Booking → Bool) : List TermRow :=
  updateWhere (·.number == t) (·.drop test) m

/-- The first own booking in a state, with its terminal. -/
def ownIn (m : List TermRow) (st : BookState) : Option (Nat × Booking) :=
  firstSome (m.map fun r => (r.slots.find? fun b => b.source == .own && b.state == st).map fun b => (r.number, b))

/-- The own HELD booking. -/
def ownHeld (m : List TermRow) : Option (Nat × Booking) := ownIn m .held

/-- The own BOOKED booking. -/
def ownBooked (m : List TermRow) : Option (Nat × Booking) := ownIn m .booked

/-- Whether the test names the own booking in a state. -/
def isOwn (st : BookState) (b : Booking) : Bool := b.source == .own && b.state == st

/-- R98, R94: an own DEDICATED booking is on the terminal. -/
def ownDedicated (m : List TermRow) (station t : Nat) : Bool :=
  match rowOf m t with
  | none => false
  | some r => r.slots.any fun b => b.state == .dedicated && b.owner == station

/-! ## Terminal table (R79, R80) -/

/-- R79: suspect while suspect-until lies after the present local second. -/
def TermRow.isSuspect (r : TermRow) (n : Nat) : Bool :=
  match r.suspect with
  | none => false
  | some u => decide (n < u)

/-- R98, Suspect. -/
def isSuspect (m : List TermRow) (t n : Nat) : Bool :=
  match rowOf m t with
  | none => false
  | some r => r.isSuspect n

/-- R79: the suspect mark of one FAULT, whose local second is `a`. -/
def TermRow.mark (r : TermRow) (n a minutes : Nat) : TermRow :=
  let until_ := a + 60 * minutes
  if ! r.isSuspect n then { r with suspect := some until_ }
  else if (r.suspect.getD 0) < until_ then { r with suspect := some until_ }
  else r

/-- R79. -/
def mapMark (m : List TermRow) (t n a minutes : Nat) : List TermRow :=
  updateWhere (·.number == t) (·.mark n a minutes) m

/-- R80: marks whose time has come end. -/
def mapUnmark (m : List TermRow) (n : Nat) : List TermRow :=
  m.map fun r =>
    match r.suspect with
    | some u => if u ≤ n then { r with suspect := none } else r
    | none => r

/-! ## Learning (R82 to R86) -/

/-- A booking learned from a frame whose local second is `a`. -/
def heardBooking (owner : Nat) (st : BookState) (cls : Nat) (since : Int) (till : Option Int) (a : Nat) : Booking :=
  { owner := owner, state := st, cls := cls, since := since, till := till, source := .heard, heard := some a,
    found := false }

/-- A booking of the own station. -/
def ownBooking (owner : Nat) (st : BookState) (cls : Nat) (since : Int) (till : Option Int) (found : Bool) : Booking :=
  { owner := owner, state := st, cls := cls, since := since, till := till, source := .own, heard := none,
    found := found }

/-- R82 step 1: the flush. -/
def mapFlush (m : List TermRow) (s : Nat) : List TermRow :=
  m.map fun r => r.drop fun b => b.owner == s && b.source == .heard

/-- R84: a FREE removes every HEARD booking of the sender on the terminal. -/
def mapFree (m : List TermRow) (t s : Nat) : List TermRow :=
  mapDropAt m t fun b => b.owner == s && b.source == .heard

/-- The class byte of a NOTICE (R48); above 3 a free value. -/
def noticeClass (b : Byte) : Nat := if b.toNat ≤ 3 then b.toNat else (Config.classAboveThree b).toNat

/-- R82 step 2: the HELD booking that a NOTICE names. -/
def noticeHeld (p : List Byte) (s a : Nat) : Nat × Booking :=
  (byteAt p 5, heardBooking s .held (noticeClass (p.getD 5 0)) a (tillOf a (wordAt p 7)) a)

/-- R82 step 3: the BOOKED booking that a NOTICE names. -/
def noticeBooked (p : List Byte) (s a : Nat) : Nat × Booking :=
  let since := sinceOf a (wordAt p 11)
  (byteAt p 9, heardBooking s .booked (noticeClass (p.getD 9 0)) since (tillOf since (wordAt p 13)) a)

/-- R83: the BOOKED booking that a CLAIM enters. -/
def claimBooking (p : List Byte) (s a : Nat) : Nat × Booking :=
  let since := sinceOf a (wordAt p 3)
  (byteAt p 1, heardBooking s .booked (byteAt p 2) since (tillOf since (wordAt p 5)) a)

/-- R85: the bookings that a DENY with reason HELD or BOOKED replaces. -/
def denyReplaces (s : Nat) (st : BookState) (b : Booking) : Bool :=
  b.owner == s && ((b.source == .heard && b.state == st) || (st == .held && b.state == .stale))

/-- R86: whether a terminal has a STALE booking. -/
def TermRow.hasStale (r : TermRow) : Bool := r.slots.any (·.state == .stale)

/-! ## Aging and expiry (R87, R88) -/

/-- R87: whether a booking is aged at local second `n`. -/
def Booking.silent (b : Booking) (n : Nat) : Bool :=
  b.source == .heard && (b.state == .held || b.state == .booked) && b.owner != 0
    && (match b.heard with | none => false | some h => decide (h + agingSeconds ≤ n))

/-- R87: BOOKED bookings leave, HELD bookings become STALE and open-ended. -/
def TermRow.age (r : TermRow) (n : Nat) : TermRow :=
  { r with slots := (r.slots.filter fun b => ! (b.silent n && b.state == .booked)).map fun b =>
      if b.silent n then { b with state := .stale, till := none } else b }

/-- R88: a HEARD BOOKED booking whose until has come leaves. -/
def Booking.ended (b : Booking) (n : Nat) : Bool :=
  b.source == .heard && b.state == .booked
    && (match b.till with | none => false | some u => decide (u ≤ (n : Int)))

/-! ## Column sense (R89, R90, R92) -/

/-- R89: the runs of one row after one scan. -/
def TermRow.run (r : TermRow) (sense : Sense) (pos : Position) : TermRow :=
  match sense, pos with
  | .occupied, .opened => { r with occRun := min (r.occRun + 1) occRunMax, freeRun := 0 }
  | .free, _ => { r with occRun := 0, freeRun := min (r.freeRun + 1) freeRunMax }
  | .occupied, _ => { r with occRun := 0, freeRun := 0 }

/-- R90: whether a terminal receives a phantom. -/
def TermRow.wantsPhantom (r : TermRow) : Bool :=
  decide (phantomRun ≤ r.occRun)
    && ! r.slots.any fun b => b.state == .held || b.state == .stale || b.state == .dedicated

/-- R90: the phantom. -/
def phantom (n : Nat) : Booking :=
  { owner := 0, state := .stale, cls := 0, since := n, till := none, source := .sense, heard := none, found := false }

/-- R92. -/
def TermRow.clearStale (r : TermRow) : TermRow :=
  if r.freeRun == freeRunMax then r.drop (·.state == .stale) else r

/-! ## Dedicated terminals (R93) -/

def dedicatedBooking (d : Nat) : Booking :=
  { owner := d, state := .dedicated, cls := 0, since := 0, till := none, source := .config, heard := none,
    found := false }

/-! ## Answering claims (R94, R95) -/

/-- The answer to a CLAIM. -/
inductive Answer where
  | deny (reason : DenyReason) (cls : Nat) (till : Option Int)
  | yield_
  | nothing
  deriving DecidableEq, Repr

/-- The latest of two ends of spans, open-ended taking precedence. -/
def laterTill (x y : Option Int) : Option Int :=
  match x, y with
  | some u, some v => some (max u v)
  | _, _ => none

/-- R95: the until of the overlapping STALE booking with the latest until. -/
def latestTill : List Booking → Option Int
  | [] => some 0
  | [b] => b.till
  | b :: rest => laterTill b.till (latestTill rest)

/-- R94: the tests on a terminal's row, in order, for a claim of station `s` entered as `claim`. The DENY of test 3 carries
the until of R95, which a STALE booking that R86 entered may have behind it. -/
def TermRow.answer (r : TermRow) (station : Nat) (claim : Booking) : Answer :=
  let meets (b : Booking) : Bool := b.overlaps claim.since claim.till
  let stale := r.slots.filter fun b => b.state == .stale && meets b
  if r.slots.any fun b => b.state == .dedicated && b.owner == station then .deny .dedicated 0 none
  else match r.slots.find? fun b => isOwn .held b && meets b with
    | some h => .deny .held h.cls h.till
    | none =>
      if ! stale.isEmpty then .deny .stale 0 (latestTill stale)
      else match r.slots.find? fun b => isOwn .booked b && meets b with
        | none => .nothing
        | some k => if k.rank.beats claim.rank then .deny .booked k.cls k.till else .yield_

/-! ## Questions (R98) -/

/-- A question about a terminal's row. -/
def askRow (m : List TermRow) (t : Nat) (q : TermRow → Bool) : Bool :=
  match rowOf m t with
  | none => false
  | some r => q r

/-- A HELD, STALE or DEDICATED booking of another station. -/
def Booking.occupies (b : Booking) (station : Nat) : Bool :=
  b.owner != station && (b.state == .held || b.state == .stale || b.state == .dedicated)

/-- Blocked: a HELD, STALE or DEDICATED booking of another station overlaps the span. -/
def blocked (m : List TermRow) (station t : Nat) (since : Int) (till : Option Int) : Bool :=
  askRow m t fun r => r.slots.any fun b => b.occupies station && b.overlaps since till

/-- Booked against: a BOOKED booking of another station overlaps the span and wins the comparison. -/
def bookedAgainst (m : List TermRow) (t : Nat) (own : Rank) (till : Option Int) : Bool :=
  askRow m t fun r => r.slots.any fun b =>
    b.owner != own.station && b.state == .booked && b.overlaps own.since till && b.rank.beats own

/-- Booked over: a BOOKED booking of another station overlaps the span. -/
def bookedOver (m : List TermRow) (station t : Nat) (since : Int) (till : Option Int) : Bool :=
  askRow m t fun r => r.slots.any fun b => b.owner != station && b.state == .booked && b.overlaps since till

/-- No room: the four slots are full and hold no HEARD BOOKED booking. -/
def noRoom (m : List TermRow) (t : Nat) : Bool :=
  askRow m t fun r => decide (slotCapacity ≤ r.slots.length) && ! r.slots.any Booking.evictable

end Sys2Proof.Machine
end

