-- ==== Sys2Proof/Machine/Presence.lean ====
section
/-! DEFINITION. The presence unit (chapter 4): building and placing NOTICE, change notices, join-state changes, heard
notices and duplicate findings. -/

namespace Sys2Proof.Machine

/-! ## NOTICE (R67, R68) -/

/-- R67: a NOTICE built from the present values of its sources. -/
def State.buildNotice (s : State) : NoticeFrame :=
  { join := s.pres.join, localFlag := s.link.localFlag, tripped := s.link.tripped, jammed := s.mat.anyJammed,
    demand := s.psu.announced,
    held := (ownHeld s.map).map fun h => { terminal := h.1, cls := h.2.cls, till := h.2.till },
    booked := (ownBooked s.map).map fun k =>
      { terminal := k.1, cls := k.2.cls, since := k.2.since, till := k.2.till } }

/-- R68: a placement sets the notice timer and ends notice pending. -/
def State.placeNotice (s : State) : State :=
  { s with
    bus := s.bus.placeNotice s.buildNotice,
    pres := { s.pres with noticeTimer := some s.now, noticePending := false } }

/-- R68: the join states in which NOTICE is placed. -/
def JoinState.sendsNotice (j : JoinState) : Bool := j == .learning || j == .joined || j == .isolated

/-- R68, change: a NOTICE is placed at once, or notice pending is set; in DISABLED and LISTENING without effect. -/
def State.noticeChange (s : State) : State :=
  if s.pres.join.sendsNotice then
    match s.pres.noticeTimer with
    | none => s.placeNotice
    | some t =>
      if t + noticeGapMs ≤ s.now then s.placeNotice
      else { s with pres := { s.pres with noticePending := true } }
  else s

/-! ## Join state (R62 to R66) -/

/-- R63, R64, R65, R72: the presence unit's own state on entering a join state. -/
def Presence.enter (p : Presence) (new : JoinState) (now lastHeard : Nat) : Presence :=
  { p with
    join := new,
    listening := if new == .listening then p.listening else none,
    learning := if new == .learning then some (now + learningMs) else none,
    silence := if new == .learning || new == .joined then some (lastHeard + silenceMs) else none }

/-- R66: the change and its hand-out: first the slots (R56) with their notices, then the blocks, then the record, the
ALERT causes and the NOTICE. The ceiling takes the announced demand at the moment JOINED is left (R157). -/
def State.changeJoin (s : State) (new : JoinState) (cause : JoinCause) : State :=
  let old := s.pres.join
  let r := s.bus.onJoin old new
  State.emit
    { s with
      bus := r.1,
      pres := s.pres.enter new s.now s.bus.lastHeard,
      psu := if old == .joined then { s.psu with ceiling := s.psu.announced } else s.psu }
    (r.2 ++ [.joinNotice old new, .joinTail old new cause])

/-- R66 step 4. -/
def Alert.onJoin (a : Alert) (new : JoinState) : Alert :=
  { a with disabled := a.disabled || new == .disabled, isolated := new == .isolated }

/-- R66 steps 3 to 5. -/
def State.joinTail (s : State) (old new : JoinState) (cause : JoinCause) : State :=
  let s1 := s.writeLog (.join new old cause)
  State.noticeChange { s1 with alert := s1.alert.onJoin new }

/-- R73: an isolation cause. -/
def State.takeIsolation (s : State) : State :=
  if s.pres.join == .learning || s.pres.join == .joined then s.changeJoin .isolated .drops else s

/-- R72, R75: a heard notice; none is taken before the hand-over (R62). -/
def State.takeHeard (s : State) (start : Nat) : State :=
  if s.image.isNone then s
  else match s.pres.join with
    | .learning => { s with pres := { s.pres with silence := some (start + silenceMs) } }
    | .joined => { s with pres := { s.pres with silence := some (start + silenceMs) } }
    | .isolated => s.changeJoin .learning .heard
    | .listening => s
    | .disabled => s

/-- R70: the mark, its ALERT cause and the DUPLICATE record. -/
def State.setDuplicate (s : State) : State :=
  let s1 := s.writeLog (.duplicate s.cfg.station s.pres.join)
  { s1 with pres := { s1.pres with duplicate := true }, alert := { s1.alert with duplicate := true } }

/-- R70: a duplicate finding. -/
def State.takeDuplicate (s : State) : State :=
  if s.image.isNone then s
  else match s.pres.join with
    | .listening => s.setDuplicate.changeJoin .disabled .duplicate
    | .learning => if s.pres.duplicate then s else s.setDuplicate
    | .joined => if s.pres.duplicate then s else s.setDuplicate
    | .isolated => if s.pres.duplicate then s else s.setDuplicate
    | .disabled => s

end Sys2Proof.Machine
end

