-- ==== Sys2Proof/Machine/MapOps.lean ====
section
/-! DEFINITION. The booking map block (chapter 5): requests of R77, suspect marks and their notices (R79, R80), and
what each received frame and each scan does to the map, with the notices that follow. -/

namespace Sys2Proof.Machine

/-- The rows are replaced. A change of an own HELD or BOOKED booking hands the presence unit a change notice (R77), and
an own HELD booking that enters, leaves or changes its terminal is made known to the transmitter link (R142). -/
def State.withMap (s : State) (m : List TermRow) : State :=
  let moved := (ownHeld s.map).map (·.1) != (ownHeld m).map (·.1)
  let changed := ownHeld s.map != ownHeld m || ownBooked s.map != ownBooked m
  let s1 := State.emit { s with map := m } (if moved then [.heldChanged] else [])
  if changed then s1.noticeChange else s1

/-- A booking enters a terminal under R78; an entry is made known to the matrix interface (R128). -/
def State.enterBooking (s : State) (t : Nat) (b : Booking) : State :=
  match mapEnter s.map t b with
  | none => s
  | some m => (s.withMap m).emit [.entered t]

/-! ## Requests (R77) -/

/-- What becomes of an Enter own BOOKED. -/
inductive EnterResult where
  | entered | standing | full
  deriving DecidableEq, Repr

/-- R77, Enter own BOOKED. -/
def State.enterOwnBooked (s : State) (t cls : Nat) (since till : Int) : State × EnterResult :=
  if (ownBooked s.map).isSome then (s, .standing)
  else match mapEnter s.map t (ownBooking s.cfg.station .booked cls since (some till) false) with
    | none => (s, .full)
    | some m => ((s.withMap m).emit [.entered t], .entered)

/-- R77, Extend: the until, and the class where given, of the own booking in the state named. -/
def State.extendOwn (s : State) (t : Nat) (st : BookState) (cls : Nat) (till : Option Int) : State :=
  s.withMap (updateWhere (·.number == t)
    (fun r => r.change (isOwn st) fun b => { b with cls := cls, till := till }) s.map)

/-- R77, Promote: the own BOOKED booking becomes HELD, keeping class, from and until. -/
def State.promote (s : State) (t : Nat) : State × Bool :=
  if (ownHeld s.map).isNone && ((ownBooked s.map).map (·.1)) == some t then
    (s.withMap (updateWhere (·.number == t)
      (fun r => r.change (isOwn .booked) fun b => { b with state := .held }) s.map), true)
  else (s, false)

/-- R77, Remove. -/
def State.removeOwn (s : State) (t : Nat) (st : BookState) : State :=
  s.withMap (mapDropAt s.map t (isOwn st))

/-- R77, Found closed: an own HELD booking, class 3, from the present local second, open-ended. -/
def State.foundClosed (s : State) (t : Nat) : State :=
  if (ownHeld s.map).isSome then s
  else s.enterBooking t (ownBooking s.cfg.station .held 3 s.localSecond none true)

/-! ## Suspect marks (R79, R80) -/

/-- R80: whether a terminal is the own HELD or own BOOKED terminal. -/
def isOwnTerminal (m : List TermRow) (t : Nat) : Bool :=
  (ownHeld m).map (·.1) == some t || (ownBooked m).map (·.1) == some t

/-- R79: a FAULT whose local second is `a`. -/
def State.markFault (s : State) (t a minutes : Nat) : State :=
  let m := mapMark s.map t s.localSecond a minutes
  let became := ! isSuspect s.map t s.localSecond && isSuspect m t s.localSecond
  State.emit { s with map := m } (if became && isOwnTerminal m t then [.suspect t true] else [])

/-- R79, R52: an own FAULT is placed in the FAULT slot and handed to the map at placement. -/
def State.ownFault (s : State) (t : Nat) (reason : FaultReason) (minutes : Nat) : State :=
  State.markFault
    { s with bus := s.bus.placeFault { terminal := t, reason := reason, minutes := minutes } } t s.localSecond minutes

/-- R80: the marks whose time has come end, with the notices for the own terminals. -/
def State.endMarks (s : State) : State :=
  let m := mapUnmark s.map s.localSecond
  let ended := (s.map.filter fun r =>
    match r.suspect with
    | some u => decide (u ≤ s.localSecond)
    | none => false).map (·.number)
  State.emit { s with map := m } ((ended.filter (isOwnTerminal m)).map fun t => .suspect t false)

/-! ## Received frames (R81 to R86, R94 to R96). `f.start / 1000` is the local second of the frame's start. -/

/-- R82. -/
def State.mapNotice (s : State) (f : RxFrame) : State :=
  let a := f.start / 1000
  let held := noticeHeld f.payload f.sender.toNat a
  let booked := noticeBooked f.payload f.sender.toNat a
  (State.enterBooking { s with map := mapFlush s.map f.sender.toNat } held.1 held.2).enterBooking booked.1 booked.2

/-- R84. -/
def State.mapFreeFrame (s : State) (f : RxFrame) : State :=
  { s with map := mapFree s.map (byteAt f.payload 1) f.sender.toNat }

/-- R85: a DENY with reason HELD or BOOKED. -/
def State.mapDenied (s : State) (f : RxFrame) (st : BookState) : State :=
  let a := f.start / 1000
  let t := byteAt f.payload 2
  let b := heardBooking f.sender.toNat st f.cls.toNat a (tillOf a (wordAt f.payload 4)) a
  State.enterBooking { s with map := mapDropAt s.map t (denyReplaces f.sender.toNat st) } t b

/-- R86: a DENY with reason STALE. -/
def State.mapDeniedStale (s : State) (f : RxFrame) : State :=
  let a := f.start / 1000
  let t := byteAt f.payload 2
  if askRow s.map t TermRow.hasStale then s
  else s.enterBooking t (heardBooking 0 .stale 0 a (tillOf a (wordAt f.payload 4)) a)

/-- R85, R86. -/
def State.mapDeny (s : State) (f : RxFrame) : State :=
  match byteAt f.payload 3 with
  | 0 => s.mapDenied f .held
  | 1 => s.mapDenied f .booked
  | 2 => s.mapDeniedStale f
  | _ => s

/-- R83: the claimant's BOOKED booking replaces its HEARD BOOKED booking of the terminal, or takes room. -/
def State.mapClaimEnters (s : State) (t : Nat) (b : Booking) : State :=
  State.enterBooking
    { s with map := mapDropAt s.map t fun x => x.owner == b.owner && x.source == .heard && x.state == .booked } t b

/-- R94: the answer the map gives to a claim; none in LISTENING. -/
def State.claimAnswer (s : State) (t : Nat) (b : Booking) : Answer :=
  if s.pres.join.sendsNotice then
    match rowOf s.map t with
    | none => .nothing
    | some r => r.answer s.cfg.station b
  else .nothing

/-- R96: the own BOOKED booking is removed and the claim engine is handed a preemption notice. -/
def State.yieldBooking (s : State) (t : Nat) : State :=
  match ownBooked s.map with
  | some (_, k) => (s.removeOwn t .booked).emit [.preempted t k.cls]
  | none => s

/-- R83, R94, R95. -/
def State.mapClaim (s : State) (f : RxFrame) : State :=
  let (t, b) := claimBooking f.payload f.sender.toNat (f.start / 1000)
  match s.claimAnswer t b with
  | .deny reason cls till =>
    let answer : DenyFrame := { claimant := f.sender.toNat, terminal := t, reason := reason, cls := cls, till := till }
    { s with bus := s.bus.placeDeny answer }
  | .yield_ => (s.yieldBooking t).mapClaimEnters t b
  | .nothing => s.mapClaimEnters t b

/-- R79, heard: a FAULT from another station. -/
def State.mapFaultFrame (s : State) (f : RxFrame) : State :=
  s.markFault (byteAt f.payload 1) (f.start / 1000) (byteAt f.payload 3)

/-! ## Scans (R89 to R92) -/

/-- R89: the runs of every row after a scan. -/
def mapRuns (rows : List XRow) (m : List TermRow) : List TermRow :=
  m.map fun r =>
    match rows.find? (·.terminal == r.number) with
    | some x =>
      match x.sense, x.pos with
      | some se, some p => r.run se p
      | _, _ => r
    | none => r

/-- R90: phantoms enter the terminals that want one. -/
def State.enterPhantoms (s : State) : List Nat → State
  | [] => s
  | t :: rest =>
    (if askRow s.map t TermRow.wantsPhantom then s.enterBooking t (phantom s.localSecond) else s).enterPhantoms rest

/-- R89, R90 and R92 for one scan result. -/
def State.mapScan (s : State) (rows : List XRow) : State :=
  let s1 : State := { s with map := mapRuns rows s.map }
  let s2 := s1.enterPhantoms (s1.map.map (·.number))
  { s2 with map := s2.map.map TermRow.clearStale }

end Sys2Proof.Machine
end

