-- ==== Sys2Proof/Machine/Power.lean ====
section
/-! DEFINITION. The power share unit (chapter 9): the demand arithmetic, the demand table and its sums, admission, and
lowering. -/

namespace Sys2Proof.Machine

/-! ## Arithmetic (R155) -/

/-- Division rounded up. -/
def ceilDiv (a b : Nat) : Nat := (a + b - 1) / b

/-- R155: RF demand of a carrier at a step in a mode. -/
def rfDemand (carrier step : Nat) (mode : Mode) (efficiency : Nat) : Nat :=
  ceilDiv (carrier * step * mode.factor) (100 * efficiency)

/-- R155: total demand of a step. -/
def totalDemand (cfg : Settings) (carrier step : Nat) (mode : Mode) : Nat :=
  cfg.standby + rfDemand carrier step mode cfg.efficiency

/-- R155: the commanded carrier of a step: rounded down, and 1 kW when that rounds to 0. -/
def commandedCarrier (carrier step : Nat) : Nat := max 1 (stepLevel carrier step)

/-- R155: the budget. -/
def budget (cfg : Settings) : Nat := cfg.limit - cfg.reserve

/-- The four steps, highest first. -/
def powerSteps : List Nat := [100, 71, 50, 25]

/-- R150: the next lower step; 25 stays. -/
def lowerStep (k : Nat) : Nat := if k == 100 then 71 else if k == 71 then 50 else 25

/-! ## Level limit (R146) -/

/-- R146: the least of the entry carrier, the rating of the own HELD terminal, the transmitter rating and, while that
terminal is suspect, the entry carrier at the 50 % step. -/
def State.levelLimit (s : State) (carrier : Nat) : Nat :=
  let held := (ownHeld s.map).bind fun h => rowOf s.map h.1
  let own := min carrier s.cfg.rating
  match held with
  | none => own
  | some r => min (min own r.rating) (if r.isSuspect s.localSecond then commandedCarrier carrier 50 else carrier)

/-! ## Announced demand (R157) -/

/-- R157: the announced demand in its three conditions. -/
def State.demandNow (s : State) : Nat :=
  if s.psu.localMark then totalDemand s.cfg s.cfg.rating 100 .am
  else match s.psu.admitted, s.psu.basis with
    | some k, some b => totalDemand s.cfg b.carrier k b.mode
    | _, _ => s.cfg.standby

/-- R157: the announced demand is set, with a change notice when it changes. -/
def State.announce (s : State) : State :=
  let s1 : State := { s with psu := { s.psu with announced := s.demandNow } }
  if s.demandNow == s.psu.announced then s else s1.noticeChange

/-! ## Demand table (R158 to R160) -/

/-- R160: the kW by which an intent exceeds the current demand of its record. -/
def DemandRec.rise (r : DemandRec) (counts : Intent → Bool) : Nat :=
  match r.intent with
  | none => 0
  | some i => if counts i then i.intended - r.current.getD 0 else 0

/-- R160: current demands, with the rises of the intents that count. -/
def demandSum (table : List DemandRec) (counts : Intent → Bool) : Nat :=
  (table.map fun r => r.current.getD 0 + r.rise counts).sum

/-- R160: others committed. -/
def othersCommitted (table : List DemandRec) : Nat := demandSum table fun _ => true

/-- R160: others ahead of an own intent of a class. -/
def othersAhead (table : List DemandRec) (cls : Nat) : Nat :=
  demandSum table fun i => decide (i.cls < cls) || (i.cls == cls && i.earlier)

/-- The record of a station is changed. -/
def changeRec (table : List DemandRec) (station : Nat) (f : DemandRec → DemandRec) : List DemandRec :=
  table.modify (station - 1) f

/-- R158: what a NOTICE does to its sender's record. -/
def DemandRec.notice (r : DemandRec) (demand : Nat) : DemandRec :=
  { current := some demand,
    intent := match r.intent with
      | some i => if i.intended ≤ demand then none else some i
      | none => none }

/-- R158, R159: what an INTENT does to its sender's record. -/
def DemandRec.intend (r : DemandRec) (i : Intent) (current : Nat) : DemandRec :=
  { current := some (r.current.getD current), intent := some i }

/-- R159: the own INTENT's start marks every intent of the table. -/
def DemandRec.place (start : Nat) (r : DemandRec) : DemandRec :=
  { r with intent := r.intent.map fun i => { i with earlier := decide (i.arrival < start) } }

/-- R159: whether an intent's life has run out at local time `t`. -/
def Intent.expired (i : Intent) (t : Nat) : Bool := decide (i.arrival + intentLifeMs ≤ t)

def DemandRec.hasExpired (r : DemandRec) (t : Nat) : Bool :=
  match r.intent with
  | none => false
  | some i => i.expired t

/-- R159: intents whose life has run out become none. -/
def DemandRec.expire (r : DemandRec) (t : Nat) : DemandRec :=
  if r.hasExpired t then { r with intent := none } else r

/-! ## Lowering (R165) -/

/-- R156: the effective cap. -/
def Power.effectiveCap (p : Power) : Nat := min p.requestCap (min p.tripCap (p.suspectCap.getD 100))

/-- R165: at a commanded level at or below the carrier of the pending lower, taken at the level limit, the admitted
step falls. -/
def State.settleLower (s : State) : State :=
  match s.psu.pendingLower, s.psu.basis with
  | some k, some b =>
    if s.link.level ≤ min (commandedCarrier b.carrier k) (s.levelLimit b.carrier) then
      State.announce { s with psu := { s.psu with admitted := some k, pendingLower := none } }
    else s
  | _, _ => s

/-- R165: a fall to a step is asked for; the pending lower becomes the lower of the two. -/
def State.lowerTo (s : State) (k : Nat) : State :=
  match s.psu.admitted with
  | none => s
  | some a =>
    let goal := min k s.psu.effectiveCap
    if goal < a then
      State.settleLower { s with psu := { s.psu with pendingLower := some (min goal (s.psu.pendingLower.getD goal)) } }
    else s

/-- R165, Release: at a commanded level of 0 the admission ends; the admission request becomes none with it (DESIGN CHOICE,
notes/assumptions/91.md). -/
def State.settleRelease (s : State) : State :=
  if s.psu.releasePending && s.link.level == 0 then
    State.announce
      { s with
        psu := { s.psu with
          admitted := none, pendingLower := none, basis := none, request := none, releasePending := false } }
  else s

/-- R165: what a change of the commanded level does. -/
def State.powerLevel (s : State) : State := s.settleLower.settleRelease

/-! ## Admission (R161 to R164) -/

/-- R164: a withdrawal INTENT, placed while JOINED. -/
def State.placeWithdrawal (s : State) : State :=
  match s.psu.request with
  | some r =>
    let f : IntentFrame :=
      { intended := s.psu.announced, current := s.psu.announced, cls := r.cls, withdrawal := true }
    if s.pres.join == .joined then { s with bus := s.bus.placeIntent f } else s
  | none => s

/-- R163: the INTENT of a step is placed. -/
def State.placeIntent (s : State) (r : AdmitReq) (k : Nat) : State :=
  let f : IntentFrame :=
    { intended := totalDemand s.cfg r.carrier k r.mode, current := s.psu.announced, cls := r.cls, withdrawal := false }
  { s with bus := s.bus.placeIntent f, psu := { s.psu with candidate := some k, phase := .placed } }

/-- R164: a step is admitted; a pending lower that stands becomes none (DESIGN CHOICE, notes/assumptions/77.md). -/
def State.admitStep (s : State) (r : AdmitReq) (k : Nat) : State :=
  let s1 := State.announce
    { s with
      psu := { s.psu with
        admitted := some k, pendingLower := none, basis := some { carrier := r.carrier, mode := r.mode },
        candidate := none, ownStart := none, windowEnd := none, phase := .none } }
  s1.emit [.pwAdmitted k s1.psu.announced (commandedCarrier r.carrier k)]

/-- R161: whether a step is a lowering: its demand is not above the one announced, while a step is admitted. -/
def State.isLowering (s : State) (r : AdmitReq) (k : Nat) : Bool :=
  s.psu.admitted.isSome && decide (totalDemand s.cfg r.carrier k r.mode ≤ s.psu.announced)

/-- R161: what the demand of a step is added to, and what it is held against. -/
def State.stepRoom (s : State) : Nat × Nat :=
  if s.pres.join == .joined then (othersCommitted s.psu.table, budget s.cfg) else (0, s.psu.ceiling)

/-- R161: whether a step fits. -/
def State.stepFits (s : State) (r : AdmitReq) (k : Nat) : Bool :=
  decide (s.stepRoom.1 + totalDemand s.cfg r.carrier k r.mode ≤ s.stepRoom.2)

/-- R161: the candidate steps. -/
def Power.candidates (p : Power) : List Nat := powerSteps.filter fun k => decide (k ≤ p.effectiveCap)

/-- R162: the shortfall at the lowest candidate step. -/
def State.shortfall (s : State) (r : AdmitReq) : Int :=
  (s.stepRoom.1 + totalDemand s.cfg r.carrier (s.psu.candidates.getLast?.getD 25) r.mode : Int) - s.stepRoom.2

/-- R161, R162: no step fits: the unit waits, and says so once. -/
def State.waitForRoom (s : State) (r : AdmitReq) : State :=
  State.emit { s with psu := { s.psu with phase := .wait, waitHanded := true } }
    (if s.psu.waitHanded then [] else [.pwWaiting (s.shortfall r)])

/-- R161: a lowering is taken at once. -/
def State.takeLowering (s : State) (r : AdmitReq) (k : Nat) : State :=
  (State.emit { s with psu := { s.psu with phase := .none, candidate := none } }
    [.pwAdmitted k s.psu.announced (commandedCarrier r.carrier k)]).lowerTo k

/-- R161: the step is chosen: the highest candidate that fits, and without one the unit waits. A step so chosen that is a
lowering is taken as one, in any join state (DEDUCED, notes/assumptions/42.md). -/
def State.chooseStep (s : State) : State :=
  match s.psu.request with
  | none => s
  | some r =>
    match s.psu.candidates.find? (s.stepFits r) with
    | none => s.waitForRoom r
    | some k =>
      if s.isLowering r k then s.takeLowering r k
      else if s.pres.join == .joined then s.placeIntent r k
      else s.admitStep r k

/-- R162: a unit in WAIT chooses again. -/
def State.chooseIfWaiting (s : State) : State :=
  if s.psu.phase == .wait then State.chooseStep { s with psu := { s.psu with phase := .choose } } else s

/-- R161: Admit. -/
def State.requestStep (s : State) (r : AdmitReq) (cap : Nat) : State :=
  if s.psu.localMark then s.emit [.pwRefused false]
  else if s.psu.phase == .placed || s.psu.phase == .window || s.psu.phase == .backoff then s.emit [.pwRefused true]
  else
    State.chooseStep
      { s with
        psu := { s.psu with
          request := some r, requestCap := cap,
          tripCap := if s.psu.lastAdmit == some (r.occ, r.terminal) then s.psu.tripCap else 100,
          lastAdmit := some (r.occ, r.terminal),
          suspectCap := if isSuspect s.map r.terminal s.localSecond then some 50 else none,
          phase := .choose, waitHanded := false } }

/-- R165, Cancel. The window end and the backoff end become none with the phase (DESIGN CHOICE,
notes/assumptions/78.md). -/
def State.cancelAdmission (s : State) : State :=
  let s1 := if s.psu.phase == .placed || s.psu.phase == .window then s.placeWithdrawal else s
  if s.psu.phase == .none then s
  else
    { s1 with
      psu := { s1.psu with
        phase := .none, request := none, candidate := none, ownStart := none, windowEnd := none,
        backoffEnd := none } }

/-- R165, Release: an admission in progress is ended as by Cancel, and the rest waits for a level of 0. -/
def State.releaseAdmission (s : State) : State :=
  let s1 := s.cancelAdmission
  State.settleRelease { s1 with psu := { s1.psu with releasePending := true } }

/-! ## Notices taken -/

/-- R163: the sent notice of the own INTENT. -/
def State.takeIntentSent (s : State) (start : Nat) : State :=
  if s.psu.phase == .placed then
    { s with
      psu := { s.psu with
        ownStart := some start, table := s.psu.table.map (DemandRec.place start),
        windowEnd := some (s.now + intentWindowMs), phase := .window } }
  else s

/-- R163: the dropped and the cancelled notice: the step is chosen again. -/
def State.takeIntentLost (s : State) : State :=
  if s.psu.phase == .placed then State.chooseStep { s with psu := { s.psu with phase := .choose, candidate := none } }
  else s

/-- R164: the window end. A failed test leaves the own intent start as it is, so that an INTENT received in BACKOFF is
LATER (R159), and the window end as it is (DESIGN CHOICE, notes/assumptions/78.md). -/
def State.endIntentWindow (s : State) : State :=
  match s.psu.request, s.psu.candidate with
  | some r, some k =>
    if othersAhead s.psu.table r.cls + totalDemand s.cfg r.carrier k r.mode ≤ budget s.cfg then s.admitStep r k
    else
      let s1 := s.placeWithdrawal
      { s1 with
        psu := { s1.psu with
          candidate := none, backoffEnd := some (s.now + backoffMs), phase := .backoff } }
  | _, _ => s

/-- R158: a NOTICE. -/
def State.powerNotice (s : State) (f : RxFrame) : State :=
  State.chooseIfWaiting
    { s with psu := { s.psu with
        table := changeRec s.psu.table f.sender.toNat fun r => r.notice (wordAt f.payload 3) } }

/-- R158, R159: an INTENT; received while the unit has an own intent start it is LATER, else EARLIER. -/
def State.powerIntent (s : State) (f : RxFrame) : State :=
  let i : Intent :=
    { intended := wordAt f.payload 1, cls := byteAt f.payload 5, earlier := s.psu.ownStart.isNone, arrival := f.start }
  State.chooseIfWaiting
    { s with psu := { s.psu with
        table := changeRec s.psu.table f.sender.toNat fun r => r.intend i (wordAt f.payload 3) } }

/-- R166: LOCAL. -/
def State.takePowerLocal (s : State) : State :=
  let s1 := s.cancelAdmission
  State.announce { s1 with psu := { s1.psu with localMark := true, admitted := none, pendingLower := none } }

/-- R166: REMOTE. -/
def State.takePowerRemote (s : State) : State := State.announce { s with psu := { s.psu with localMark := false } }

/-- R165, STEP-LOWER: the trip cap becomes the new step. -/
def State.takeStepLower (s : State) (k : Nat) : State :=
  (State.lowerTo { s with psu := { s.psu with tripCap := k } } k).chooseIfWaiting

/-- R165: a suspect notice for the terminal of the admission request. -/
def State.powerSuspect (s : State) (t : Nat) (on : Bool) : State :=
  if (s.psu.request.map (·.terminal)) == some t then
    let s1 : State := { s with psu := { s.psu with suspectCap := if on then some 50 else none } }
    (s1.lowerTo 100).chooseIfWaiting
  else s

end Sys2Proof.Machine
end

