-- ==== Sys2Proof/Machine/Link.lean ====
section
/-! DEFINITION. The transmitter link (chapter 8): records, PERMIT, tuning, ramping, trips, local control, transmitter
faults and link loss. -/

namespace Sys2Proof.Machine

/-! ## Records and the commanded level (R137, R139) -/

/-- R137: the length of a record in bytes. -/
def TxRecord.length : TxRecord → Nat
  | .tune _ _ => 5 | .programme _ => 3 | .level _ => 4 | .rf _ => 3

/-- R137: the bytes of a record without its check byte. -/
def TxRecord.body : TxRecord → List Byte
  | .tune freq mode => byteOf 1 :: word16 freq ++ [byteOf mode.code]
  | .programme channel => [byteOf 2, byteOf channel]
  | .level kw => byteOf 3 :: word16 kw
  | .rf on => [byteOf 4, byteOf (if on then 1 else 0)]

/-- R137: a record ends with a byte that makes the sum of all its bytes 0 modulo 256. -/
def TxRecord.bytes (r : TxRecord) : List Byte :=
  r.body ++ [byteOf (256 - (r.body.map BitVec.toNat).sum % 256)]

/-- R137: 1/48 ms that one byte takes at 19200 baud. -/
def byteTime : Nat := 25

/-- R139: records are sent one after the other; the time at which one issued now has been sent. -/
def Link.sentAt (l : Link) (now : Nat) (r : TxRecord) : Nat :=
  max (now * 48) ((l.out.getLast?.map (·.ends)).getD 0) + r.length * byteTime

/-- Whether the link may issue records: not in DISABLED, while LOST, or under local control (R139, R148, R152). -/
def State.mayIssue (s : State) : Bool :=
  s.pres.join != .disabled && s.link.state != .lost && ! s.link.localFlag

/-- A record is issued into the output queue. -/
def State.issue (s : State) (r : TxRecord) : State :=
  if s.mayIssue then
    { s with link := { s.link with out := s.link.out ++ [{ record := r, ends := s.link.sentAt s.now r }] } }
  else s

/-- R139: the commanded level; each change is handed to the power share unit (R147). -/
def State.setLevel (s : State) (kw : Nat) : State :=
  if s.link.level == kw then s
  else State.emit { s with link := { s.link with level := kw } } [.levelChanged]

/-- R146: a LEVEL is issued at the lesser of its own value and the level limit. -/
def State.issueLevel (s : State) (kw : Nat) : State :=
  let kw' := min kw (s.levelLimit ((s.link.ramp.map (·.carrier)).getD kw))
  (s.issue (.level kw')).setLevel kw'

/-- RF off is issued; the commanded level is 0 after it (R139). -/
def State.rfOff (s : State) : State := (s.issue (.rf false)).setLevel 0

/-- LEVEL 0 and RF off. -/
def State.cutRf (s : State) : State := (s.issueLevel 0).rfOff

/-- R141, R152: the output queue is emptied; a record that is being sent is sent whole (notes/assumptions/11.md). -/
def Link.emptyOut (l : Link) : List TxOut := l.out.take 1

/-! ## Settling (R148) -/

/-- R148: with RF-PRESENT inactive SETTLING ends. -/
def State.trySettle (s : State) : State :=
  if s.link.op == .settling && ! s.rfPresent then
    State.emit { s with link := { s.link with op := .none, opTerminal := none } } [.txSettled]
  else s

/-- The plan, the tune deadline and the recycle time become none. -/
def Link.stopWork (l : Link) : Link := { l with plan := [], tuneDeadline := none, recycleAt := none, recycling := false }

/-! ## PERMIT (R142, R143) -/

/-- R142: the latest scan reads the terminal CLOSED and every other own crosspoint OPEN. -/
def Matrix.onlyClosed (m : Matrix) (t : Nat) : Bool :=
  (m.rows.any fun x => x.terminal == t && x.pos == some .closed)
    && m.rows.all fun x => if x.terminal == t then x.pos == some .closed else x.pos == some .opened

/-- R142: the conditions under which the link asserts PERMIT for a terminal. -/
def State.permitReady (s : State) (t : Nat) : Bool :=
  s.mat.onlyClosed t && s.mat.active.isNone && (ownHeld s.map).map (·.1) == some t && s.link.state == .up
    && ! s.link.localFlag && s.link.faultCode == 0

/-- R143: PERMIT falls at once, with LEVEL 0 and RF off; the operation becomes SETTLING. -/
def State.permitLost (s : State) (cause : PermitCause) : State :=
  if s.link.permit then
    let s1 := State.cutRf { s with link := { s.link with permit := false } }
    (State.emit { s1 with link := { s1.link.stopWork with op := .settling } } [.txPermitLost cause]).trySettle
  else s

/-- R143: what a scan result does to PERMIT. With the operation terminal not CLOSED and another crosspoint not OPEN the
cause is the move of the own crosspoint (DESIGN CHOICE, notes/assumptions/90.md). -/
def State.permitScan (s : State) : State :=
  match s.link.opTerminal with
  | none => s
  | some t =>
    if s.mat.onlyClosed t then s
    else if s.mat.rows.any fun x => x.terminal == t && x.pos == some .closed then s.permitLost .otherNotOpen
    else s.permitLost .ownMoved

/-- R142, R143: the own HELD booking entered, left or changed its terminal. -/
def State.permitHeld (s : State) : State :=
  if (ownHeld s.map).map (·.1) == s.link.opTerminal then s else s.permitLost .heldLost

/-! ## Tuning (R144, R145) -/

/-- R144: the ladder begins afresh for another pair, and TRIPPED is cleared (notes/assumptions/18.md). -/
def State.freshLadder (s : State) (occ : OccKey) (t : Nat) : State :=
  let same := match s.link.ladder with
    | some l => l.occ == occ && l.terminal == t
    | none => false
  if same then s
  else
    let s1 : State :=
      { s with link := { s.link with
          ladder := some { occ := occ, terminal := t, count := 0, last := none }, tripped := false } }
    if s.link.tripped then s1.noticeChange else s1

/-- R144 steps 1 to 3: the first refusal that applies. -/
def State.tuneRefusal (s : State) (t : Nat) : Option TxRefusal :=
  if s.link.state != .up then some .linkLost
  else if s.link.localFlag then some .local_
  else if s.link.faultCode != 0 then some .faulted
  else if s.link.op == .rampUp || s.link.op == .steady || s.link.op == .recycle || s.link.op == .rampDown
      || s.link.op == .settling then some .busy
  else if ! s.permitReady t then some .notReady
  else none

/-- R144: Tune, with the occurrence for the trip ladder. -/
def State.tune (s : State) (occ : OccKey) (t freq : Nat) (mode : Mode) (programme : Nat) : State :=
  match s.tuneRefusal t with
  | some r => s.emit [.txRefused .tune r]
  | none =>
    let s1 : State := { s with link := { s.link with opTerminal := some t, permit := true } }
    let s2 := (s1.issue (.tune freq mode)).issue (.programme programme)
    State.freshLadder
      { s2 with link := { s2.link with
          seenClear := false, tuneDeadline := some (s.now + s.cfg.tune * 1000), op := .tuning } } occ t

/-- R145: a tune failure. -/
def State.failTune (s : State) (limit : Bool) : State :=
  State.emit
    { s with link := { s.link with permit := false, tuneDeadline := none, op := .none, opTerminal := none } }
    [.txTuneFailed s.link.opTerminal limit]

/-- R145: during a tune a REPORT with tuned and tune-failed both clear sets seen-clear. -/
def State.takeSeenClear (s : State) (r : Report) : State :=
  if s.link.op == .tuning && ! r.tuned && ! r.tuneFailed then { s with link := { s.link with seenClear := true } }
  else s

/-- R145: the tuned and tune-failed flags of a REPORT. One with both set ends the tune as TUNED (DESIGN CHOICE,
notes/assumptions/64.md). -/
def State.takeTuneFlags (s : State) (r : Report) : State :=
  match s.link.op with
  | .tuning =>
    if ! r.tuned && ! r.tuneFailed then s.takeSeenClear r
    else if ! s.link.seenClear then s
    else if r.tuned then
      State.emit { s with link := { s.link with op := .tuned, tuneDeadline := none } } [.txTuned s.link.opTerminal]
    else s.failTune false
  | .tuned =>
    if r.tuned then s
    else
      State.emit { s with link := { s.link with permit := false, op := .none, opTerminal := none } }
        [.txDetuned s.link.opTerminal]
  | _ => s

/-! ## Ramping (R146 to R148) -/

/-- R146: the target of a step. -/
def State.targetOf (s : State) (carrier step : Nat) : Nat := min (commandedCarrier carrier step) (s.levelLimit carrier)

/-- R147: the rungs to a target that exceed the commanded level. -/
def rungs (target level : Nat) : List Nat :=
  ((List.range 10).map fun i => max 1 (target * (i + 1) / 10)).filter fun v => decide (level < v)

/-- A rung plan: the first value at a time, each later one a period after the one before. -/
def planFrom (due period : Nat) : List PlanAct → List PlanItem
  | [] => []
  | a :: rest => { due := due, act := a } :: planFrom (due + period) period rest

/-- The forward kW of the last report; 0 while no REPORT has been taken (DESIGN CHOICE, notes/assumptions/98.md). -/
def Link.forward (l : Link) : Nat := (l.report.map (·.forward)).getD 0

/-- R147 step 4: with no rung left the operation is STEADY and RAMPED is handed. -/
def State.endRamp (s : State) : State :=
  if s.link.plan.isEmpty then
    State.emit { s with link := { s.link with op := .steady, recycling := false } }
      [.txRamped s.link.level s.link.forward s.link.recycling]
  else s

/-- R147 steps 2 to 4, from the commanded level to the target of the ramp parameters. -/
def State.startRamp (s : State) (p : RampParams) (recycle : Bool) : State :=
  let s1 : State := { s with link := { s.link with ramp := some p, recycleAt := none, recycling := recycle, plan := [] } }
  match rungs p.target s.link.level with
  | [] => s1.endRamp
  | v :: rest =>
    let s2 := if s.link.level == 0 then s1.issue (.rf true) else s1
    let s3 := s2.issueLevel v
    State.endRamp
      { s3 with link := { s3.link with
          op := .rampUp, plan := planFrom (s.now + rampRungMs) rampRungMs (rest.map .level) } }

/-- R147: the first refusal that applies. -/
def State.rampRefusal (s : State) : Option TxRefusal :=
  if s.link.state != .up then some .linkLost
  else if s.link.localFlag then some .local_
  else if s.link.faultCode != 0 then some .faulted
  else if s.tripLine then some .tripped
  else if ! s.link.permit
      || ! (s.link.op == .tuned || s.link.op == .rampUp || s.link.op == .steady || s.link.op == .recycle) then
    some .notReady
  else none

/-- R147: Ramp-up. One that replaces a recycle ramp is no recycle ramp (DESIGN CHOICE, notes/assumptions/65.md). -/
def State.rampUp (s : State) (carrier step : Nat) : State :=
  match s.rampRefusal with
  | some r => s.emit [.txRefused .rampUp r]
  | none => s.startRamp { carrier := carrier, step := step, target := s.targetOf carrier step } false

/-- Planned levels are lowered to a limit. -/
def PlanItem.cap (limit : Nat) (i : PlanItem) : PlanItem :=
  match i.act with
  | .level v => { i with act := .level (min v limit) }
  | .rfOff => i

/-- R147: Step-down. In STEADY RAMPED is handed; during a ramp or a recycle the plan is lowered (DESIGN CHOICE,
notes/assumptions/19.md). -/
def State.stepDown (s : State) (step : Nat) : State :=
  match s.link.ramp with
  | none => s
  | some p =>
    let p' : RampParams := { p with step := step, target := s.targetOf p.carrier step }
    let s1 : State := { s with link := { s.link with ramp := some p', plan := s.link.plan.map (PlanItem.cap p'.target) } }
    let s2 := if p'.target < s.link.level then s1.issueLevel p'.target else s1
    match s.link.op with
    | .steady => s2.emit [.txRamped s2.link.level s2.link.forward false]
    | .rampUp => s2
    | .recycle => s2
    | _ => s

/-- R148: RF off, PERMIT falls and the link settles. -/
def State.endCarrier (s : State) : State :=
  let s1 := s.rfOff
  State.trySettle { s1 with link := { s1.link.stopWork with permit := false, op := .settling } }

/-- R148 steps 1 and 2: the four rungs down and the RF off after them. -/
def State.startRampDown (s : State) : State :=
  let l := s.link.level
  if l == 0 then s.endCarrier
  else
    let s1 := State.issueLevel { s with link := { s.link.stopWork with op := .rampDown } } (max 1 (l * 3 / 4))
    { s1 with link := { s1.link with
        plan := planFrom (s.now + rampDownMs) rampDownMs
          [.level (max 1 (l / 2)), .level (max 1 (l / 4)), .level 0, .rfOff] } }

/-- R148: Ramp-down, by the operation it finds. Under local control the operation is NONE and SETTLED is the answer (R152);
SETTLING under it, after a loss of the link, is joined like any other (DESIGN CHOICE, notes/assumptions/76.md). -/
def State.rampDown (s : State) : State :=
  match s.link.op with
  | .none => s.emit [.txSettled]
  | .tuning => State.endCarrier (s.emit [.txTuneAborted s.link.opTerminal])
  | .tuned => s.endCarrier
  | .rampUp => s.startRampDown
  | .steady => s.startRampDown
  | .recycle => s.startRampDown
  | .rampDown => s
  | .settling => s

/-- R147: the next rung of a ramp-up. -/
def State.nextRung (s : State) : State :=
  match s.link.plan with
  | { due := _, act := .level v } :: rest =>
    let s1 := State.issueLevel { s with link := { s.link with plan := rest } } v
    s1.endRamp
  | _ => s

/-- R148: the next rung of a ramp-down, or the RF off that ends it. -/
def State.nextDownRung (s : State) : State :=
  match s.link.plan with
  | { due := _, act := .level v } :: rest => State.issueLevel { s with link := { s.link with plan := rest } } v
  | { due := _, act := .rfOff } :: _ => s.endCarrier
  | [] => s

/-! ## The level limit and the suspect mark (R146) -/

/-- R146: the HELD terminal has become suspect: the target and every planned rung are lowered to the limit, and LEVEL
at the limit is issued when the commanded level is above it. -/
def State.linkSuspect (s : State) (t : Nat) (on : Bool) : State :=
  let ramping := s.link.op == .rampUp || s.link.op == .steady || s.link.op == .recycle
  match s.link.ramp with
  | none => s
  | some p =>
    if on && ramping && (ownHeld s.map).map (·.1) == some t then
      let limit := s.levelLimit p.carrier
      let s1 : State :=
        { s with link := { s.link with
            ramp := some { p with target := min p.target limit }, plan := s.link.plan.map (PlanItem.cap limit) } }
      if limit < s.link.level then (s1.issueLevel limit).emit [.txCapped limit] else s1
    else s

/-! ## Trips (R149 to R151) -/

/-- R149 step 1: the count, after the window has been applied and this trip counted. A trip in the millisecond of the
window's end, taken before that end, counts on from the old value (R154; DEDUCED, notes/assumptions/66.md). A trip counted
at 4 within the window is number 4 again (DESIGN CHOICE, notes/assumptions/97.md). -/
def Ladder.counted (l : Ladder) (now : Nat) : Ladder :=
  let old := match l.last with
    | some t => if t + tripWindowMs < now then 0 else l.count
    | none => l.count
  { l with count := min (old + 1) 4, last := some now }

/-- R150: the action of a counted trip. -/
def tripAction (count : Nat) : TripAction :=
  if count ≤ 2 then .recycle else if count == 3 then .stepLower else .exhausted

/-- R149 step 3: the TRIPPED flag is set, with a change notice when it was clear. -/
def State.setTripped (s : State) : State :=
  if s.link.tripped then s else State.noticeChange { s with link := { s.link with tripped := true } }

/-- R150: the operation becomes RECYCLE. -/
def State.startRecycle (s : State) : State :=
  { s with link := { s.link with op := .recycle, recycleAt := some (s.now + recycleMs) } }

/-- R150: the step of the ramp parameters falls, with its target. -/
def State.lowerRamp (s : State) : State :=
  { s with link := { s.link with
      ramp := s.link.ramp.map fun p =>
        { p with step := lowerStep p.step, target := s.targetOf p.carrier (lowerStep p.step) } } }

/-- R150: the action, with the outcomes handed. TRIP is handed before TRIP-EXHAUSTED (DESIGN CHOICE,
notes/assumptions/96.md). -/
def State.takeTripAction (s : State) (count : Nat) (action : TripAction) : State :=
  let step := ((s.link.ramp.map (·.step)).getD 25)
  match action with
  | .stepLower =>
    (s.lowerRamp.startRecycle).emit [.powerStepLower (lowerStep step), .txTrip count action (lowerStep step)]
  | .exhausted =>
    let s1 : State := { s with link := { s.link.stopWork with permit := false, op := .settling } }
    let s2 := match s.link.ladder with
      | some l => s1.ownFault l.terminal .reflected faultMinutes
      | none => s1
    (s2.emit [.txTrip count action step, .txTripExhausted (s.link.ladder.map (·.terminal))]).trySettle
  | _ => s.startRecycle.emit [.txTrip count action step]

/-- R149: a counted trip. -/
def State.countTrip (s : State) : State :=
  let ladder := s.link.ladder.map (·.counted s.now)
  let count := (ladder.map (·.count)).getD 1
  let level := s.link.level
  let s1 := State.cutRf { s with link := { s.link with ladder := ladder, plan := [], recycling := false } }
  let s2 := s1.setTripped
  (s2.writeLog (.trip s2.link.opTerminal count (tripAction count) level s2.link.forward)).takeTripAction count
    (tripAction count)

/-- R151: a trip outside RAMP-UP and STEADY. Its record names the operation terminal, none in NONE and under local control
(DESIGN CHOICE, notes/assumptions/88.md). -/
def State.uncountedTrip (s : State) : State :=
  if s.link.op == .rampDown && ! s.link.localFlag then
    let s1 := s.writeLog (.trip s.link.opTerminal 0 .ended s.link.level s.link.forward)
    (State.issueLevel { s1 with link := s1.link.stopWork } 0).endCarrier
  else s.writeLog (.trip s.link.opTerminal 0 .none s.link.level s.link.forward)

/-- R149, R151: an assertion edge of TRIP. -/
def State.takeTrip (s : State) : State :=
  if (s.link.op == .rampUp || s.link.op == .steady) && ! s.link.localFlag then s.countTrip else s.uncountedTrip

/-- R150: the recycle ramp, once its time has come and TRIP is deasserted. -/
def State.recycle (s : State) : State :=
  match s.link.ramp with
  | some p =>
    if s.link.op == .recycle && s.reached s.link.recycleAt && ! s.tripLine then s.startRamp p true else s
  | none => s

/-- R149: the end of the trip window. -/
def State.endTripWindow (s : State) : State :=
  match s.link.ladder with
  | some l =>
    let s1 : State := { s with link := { s.link with ladder := some { l with count := 0 }, tripped := false } }
    if s.link.tripped then s1.noticeChange else s1
  | none => s

/-! ## Link loss (R141) -/

/-- R141: the loss of the link. The loss deadline becomes none (DESIGN CHOICE, notes/assumptions/87.md). -/
def State.loseLink (s : State) : State :=
  let cut := s.link.op
  let s1 := State.setLevel { s with link := { s.link with
      state := .lost, lossDeadline := none, permit := false, out := s.link.emptyOut, lostOp := cut } } 0
  let s2 := s1.writeLog (.linkLoss false cut ((ownHeld s.map).map (·.1)))
  let s3 : State :=
    { s2 with
      alert := { s2.alert with linkLost := true },
      link := { s2.link.stopWork with op := if cut == .none && ! s.rfPresent then .none else .settling } }
  (s3.emit [.txLinkLost cut]).trySettle

/-- R141: the first valid REPORT makes the link UP; after a loss it is LINK-BACK. -/
def State.linkUp (s : State) : State :=
  match s.link.state with
  | .up => s
  | .waiting => { s with link := { s.link with state := .up } }
  | .lost =>
    let s1 := s.writeLog (.linkLoss true s.link.lostOp ((ownHeld s.map).map (·.1)))
    State.emit { s1 with link := { s1.link with state := .up }, alert := { s1.alert with linkLost := false } }
      [.txLinkBack]

/-! ## Local control and faults (R152, R153) -/

/-- R152: local control begins. -/
def State.beginLocal (s : State) : State :=
  let cut := s.link.op
  let s1 := State.setLevel { s with link := { s.link.stopWork with
      permit := false, out := s.link.emptyOut, op := .none, opTerminal := none, localFlag := true } } 0
  s1.noticeChange.emit [.powerLocal, .txLocal cut]

/-- R152: local control ends. -/
def State.endLocal (s : State) : State :=
  let s1 := State.noticeChange { s with link := { s.link with localFlag := false, op := .settling } }
  (s1.emit [.powerRemote, .txRemote]).trySettle

/-- R152: the local-control flag of a REPORT. -/
def State.takeLocalFlag (s : State) (r : Report) : State :=
  if r.localCtl && ! s.link.localFlag then s.beginLocal
  else if ! r.localCtl && s.link.localFlag then s.endLocal
  else s

/-- R153: the transmitter fault becomes set. The rung plan, the tune deadline and the recycle time become none (DESIGN
CHOICE, notes/assumptions/89.md). -/
def State.beginFault (s : State) (code : Nat) : State :=
  let s1 := State.cutRf { s with link := { s.link with permit := false, faultCode := code } }
  let s2 : State := { s1 with link := { s1.link.stopWork with op := if s.link.op == .none then .none else .settling } }
  (s2.emit [.txFault code]).trySettle

/-- R153: the fault summary of a REPORT. -/
def State.takeFaultCode (s : State) (r : Report) : State :=
  if r.fault == s.link.faultCode then s
  else if r.fault == 0 then State.emit { s with link := { s.link with faultCode := 0 } } [.txClear]
  else if s.link.faultCode == 0 then s.beginFault r.fault
  else State.emit { s with link := { s.link with faultCode := r.fault } } [.txFault r.fault]

/-- R148: a REPORT that says RF present while SETTLING makes the link issue RF off again. -/
def State.takeRfFlag (s : State) (r : Report) : State :=
  if s.link.op == .settling && r.rf then s.rfOff else s

/-! ## REPORT (R140) -/

/-- R137, R140: a valid REPORT's fields. -/
def reportOf (bytes : List Byte) (now : Nat) : Report :=
  let flags := byteAt bytes 2
  { tuned := flags % 2 == 1, tuneFailed := flags / 2 % 2 == 1, rf := flags / 4 % 2 == 1,
    localCtl := flags / 8 % 2 == 1, forward := wordAt bytes 3, fault := byteAt bytes 5, arrival := now }

/-- R140: what makes a record a valid REPORT. -/
def validReport (bytes : List Byte) : Bool :=
  bytes.length == 6 && byteAt bytes 1 == 8 && (bytes.map BitVec.toNat).sum % 256 == 0
    && decide (byteAt bytes 2 < 16)

/-- R139: from an accepted hand-over on, and not in DISABLED, the link takes REPORT. -/
def State.linkTakes (s : State) : Bool := s.image == some .accepted && s.pres.join != .disabled

/-- R140: whether the flags and the fault summary of two REPORTs are the same. -/
def Report.same (r q : Report) : Bool :=
  r.tuned == q.tuned && r.tuneFailed == q.tuneFailed && r.rf == q.rf && r.localCtl == q.localCtl && r.fault == q.fault

/-- R140: a valid REPORT. One whose flags and fault summary are unchanged does nothing beyond steps 1 and 2 but what
R141, R145 and R148 say of every such REPORT: it makes a lost link UP, sets seen-clear, and gives RF off again while
SETTLING (DEDUCED, notes/assumptions/17.md). -/
def State.takeReport (s : State) (r : Report) : State :=
  let s1 : State :=
    { s with link := { s.link with report := some r, lossDeadline := some (s.now + reportLossMs) } }
  if s.link.report.any r.same then (s1.linkUp.takeSeenClear r).takeRfFlag r
  else ((((s1.linkUp).takeLocalFlag r).takeFaultCode r).takeTuneFlags r).takeRfFlag r

end Sys2Proof.Machine
end

