-- ==== Sys2Proof/Machine/Matrix.lean ====
section
/-! DEFINITION. The switch matrix interface (chapter 7): readings of a scan, drives, close and open requests, jams and
unbidden moves. -/

namespace Sys2Proof.Machine

/-! ## Readings (R122) -/

/-- R122: the position of a crosspoint: with both contacts made, or neither, it reads BETWEEN. -/
def readPosition (scan : Contacts) (t : Nat) : Position :=
  match scan.openMade.getLsbD t, scan.closedMade.getLsbD t with
  | true, false => .opened
  | false, true => .closed
  | _, _ => .between

/-- R122: the column sense of a terminal. -/
def readSense (scan : Contacts) (t : Nat) : Sense := if scan.senseMade.getLsbD t then .occupied else .free

/-- R123 step 1: positions and column-sense values are replaced. -/
def XRow.read (scan : Contacts) (x : XRow) : XRow :=
  { x with pos := some (readPosition scan x.terminal), sense := some (readSense scan x.terminal) }

/-- The row of a terminal. -/
def Matrix.row (m : Matrix) (t : Nat) : Option XRow := m.rows.find? (·.terminal == t)

/-- The position last read of a terminal's own crosspoint. -/
def Matrix.posOf (m : Matrix) (t : Nat) : Option Position := (m.row t).bind (·.pos)

/-- The drive state of a terminal's own crosspoint. -/
def Matrix.driveOf (m : Matrix) (t : Nat) : DriveState := ((m.row t).map (·.drive)).getD .idle

/-- One row is changed. -/
def Matrix.setRow (m : Matrix) (t : Nat) (f : XRow → XRow) : Matrix :=
  { m with rows := updateWhere (·.terminal == t) f m.rows }

/-- The drive state of one terminal is set. -/
def Matrix.setDrive (m : Matrix) (t : Nat) (d : DriveState) : Matrix := m.setRow t fun x => { x with drive := d }

/-! ## Drives (R124, R125) -/

/-- R124: both lines are clear: PERMIT off and RF-PRESENT inactive. -/
def State.linesClear (s : State) : Bool := ! s.link.permit && ! s.rfPresent

/-- R124: the travel time of a drive at local time `now`. -/
def Drive.travelAt (d : Drive) (now : Nat) : Nat :=
  match d.running with
  | some t => d.travel + (now - t)
  | none => d.travel

/-- R124: a drive is suspended: its travel time stops counting, short of the limit (R136). -/
def Drive.suspend (d : Drive) (now : Nat) : Drive :=
  { d with travel := min (d.travelAt now) (travelLimitMs - 1), running := none }

/-- R135: the join states in which drives are started. -/
def State.mayDrive (s : State) : Bool := s.pres.join.sendsNotice

/-- The drive state that a drive gives its terminal; in a RECOVERY drive it stays JAMMED (R121). -/
def driveStateOf (d : Direction) (p : Purpose) : DriveState :=
  if p == .recovery then .jammed else match d with
    | .close => .closing
    | .openUp => .opening

/-- A drive starts with travel time 0, suspended while a line is not clear (R124, R128, R131). A drive start makes an
asserted PERMIT fall first (R143). -/
def State.startDrive (s : State) (t : Nat) (dir : Direction) (p : Purpose) (stop : Option Int) (openWaits : Bool) :
    State :=
  let s1 := s.permitLost .driveStart
  let d : Drive :=
    { terminal := t, direction := dir, purpose := p, travel := 0,
      running := if s1.linesClear then some s1.now else none, stop := stop, openWaits := openWaits }
  { s1 with mat := { s1.mat.setDrive t (driveStateOf dir p) with active := some d } }

/-- The release mark becomes none when its opening has ended (R125, R132). -/
def Matrix.clearMark (m : Matrix) (t : Nat) : Matrix :=
  if m.releaseMark == some t then { m with releaseMark := none } else m

/-- R125: the notice of an ended open, by its purpose. -/
def openNotice (t : Nat) : Purpose → List Handed
  | .requested => [.mxOpened t false]
  | .tidy => []
  | .reversal => [.mxOpened t true]
  | .recovery => []
  | .release => [.mxReleased t]

/-! ## Close tests (R127, R128) -/

/-- R127 test 6: Blocked over the span from now to the stop, or a HELD booking of another station whose until is not
after now. Over a span that has ended any HELD, STALE or DEDICATED booking of another station fails the test, as the law of
R127 has it (DEDUCED, notes/assumptions/99.md). -/
def State.closeBlocked (s : State) (t : Nat) (stop : Option Int) : Bool :=
  let behind (till : Option Int) : Bool := till.any fun u => decide (u ≤ (s.localSecond : Int))
  blocked s.map s.cfg.station t s.localSecond stop
    || askRow s.map t fun r => r.slots.any fun b =>
        b.occupies s.cfg.station && ((b.state == .held && behind b.till) || behind stop)

/-- R127: tests 3 and 5 to 8; the first that fails. -/
def State.closeTest (s : State) (t : Nat) (stop : Option Int) : Option CloseTest :=
  if s.mat.rows.any fun x => x.terminal != t && x.pos != some .opened then some .otherNotOpen
  else if (ownHeld s.map).map (·.1) != some t then some .notHeld
  else if s.closeBlocked t stop then some .blocked
  else if bookedOver s.map s.cfg.station t s.localSecond stop then some .bookedOver
  else if (s.mat.row t).bind (·.sense) != some .free then some .occupied
  else none

/-- R127 tests 1, 2 and 4, which fail in silence. -/
def State.closeHeldBack (s : State) : Bool :=
  s.mat.active.isSome || ! s.mat.openWork.isEmpty || s.mat.anyJammed || ! s.linesClear || ! s.mayDrive

/-- R127: the pending close is tested: it is driven, waits in silence, waits with WAITING handed once, or ends with
NOT-HELD. A test that fails in silence does not end a run of failing tests, so that WAITING is handed once for each
pending close (DESIGN CHOICE, notes/assumptions/63.md). One of tests 1 to 4 failing together with test 5 keeps the close
pending in silence (DESIGN CHOICE, notes/assumptions/74.md). -/
def State.testPending (s : State) : State :=
  match s.mat.pendingClose with
  | none => s
  | some p =>
    if s.closeHeldBack then s
    else match s.closeTest p.terminal p.stop with
      | none =>
        State.startDrive { s with mat := { s.mat with pendingClose := none } } p.terminal .close .requested p.stop false
      | some .otherNotOpen => s
      | some .notHeld =>
        State.emit { s with mat := { s.mat with pendingClose := none } } [.mxNotHeld p.terminal]
      | some test =>
        if p.waited then s
        else
          State.emit { s with mat := { s.mat with pendingClose := some { p with waited := true } } }
            [.mxWaiting p.terminal test]

/-- R128: the close is abandoned: the drive becomes a reversal, and ABANDONED is handed. -/
def State.abandonClose (s : State) (d : Drive) (test : CloseTest) : State :=
  let r : Drive :=
    { d with direction := .openUp, purpose := .reversal, travel := 0, running := d.running.map fun _ => s.now }
  State.emit { s with mat := { s.mat.setDrive d.terminal .opening with active := some r } }
    [.mxAbandoned d.terminal test]

/-- R128: the tests of a close drive are made again. -/
def State.retestClose (s : State) : State :=
  match s.mat.active with
  | some d =>
    if d.direction == .close then
      match s.closeTest d.terminal d.stop with
      | none => s
      | some test => s.abandonClose d test
    else s
  | none => s

/-- R128: a booking entered the slots of a terminal. -/
def State.matrixEntered (s : State) (t : Nat) : State :=
  if (s.mat.active.map (·.terminal)) == some t then s.retestClose else s

/-! ## Choosing the next drive (R130) -/

/-- R130: the lowest-numbered terminal of the open work whose purpose is not RELEASE, and otherwise one whose purpose
is. -/
def chooseOpen (work : List OpenWork) : Option OpenWork :=
  let lowest (l : List OpenWork) : Option OpenWork :=
    l.foldl (fun best w => match best with
      | none => some w
      | some b => if w.terminal < b.terminal then some w else some b) none
  match lowest (work.filter fun w => w.purpose != .release) with
  | some w => some w
  | none => lowest work

/-- R130: work is taken from the open work until a drive starts; JAMMED terminals leave, and terminals read OPEN leave
with their notice. The choice goes on at once after a terminal that leaves without a drive, to the pending close too
(DESIGN CHOICE, notes/assumptions/95.md). `fuel` bounds the terminals looked at. -/
def State.nextOpen : Nat → State → State
  | 0, s => s
  | fuel + 1, s =>
    match chooseOpen s.mat.openWork with
    | none => s.testPending
    | some w =>
      let s1 : State := { s with mat := { s.mat with openWork := s.mat.openWork.filter (·.terminal != w.terminal) } }
      if s.mat.driveOf w.terminal == .jammed then State.nextOpen fuel s1
      else if s.mat.posOf w.terminal == some .opened then
        State.nextOpen fuel (State.emit { s1 with mat := s1.mat.clearMark w.terminal } (openNotice w.terminal w.purpose))
      else s1.startDrive w.terminal .openUp w.purpose none false

/-- R130: with no drive active the next work is chosen, unless a line is not clear or drives are not started. -/
def State.nextDrive (s : State) : State :=
  if s.mat.active.isSome || ! s.linesClear || ! s.mayDrive then s
  else State.nextOpen (s.mat.openWork.length + 1) s

/-! ## Requests (R126, R129) -/

/-- R136: an Open handed for a terminal still waits in the open work. TIDY and RELEASE work is no Open's. -/
def Matrix.openAsked (m : Matrix) (t : Nat) : Bool := m.openWork.any fun w => w.terminal == t && w.purpose == .requested

/-- R126: Close. A terminal that an Open still waits to open is not handed CLOSED: the close is left pending behind the
open work (R136). -/
def State.close (s : State) (t : Nat) (stop : Option Int) : State :=
  let closing := match s.mat.active with
    | some d => d.direction == .close
    | none => false
  if s.mat.pendingClose.isSome || closing then s.emit [.mxBusy t]
  else if (ownHeld s.map).map (·.1) != some t then s.emit [.mxNotHeld t]
  else if s.mat.posOf t == some .closed && s.mat.driveOf t == .idle && ! s.mat.openAsked t then
    s.emit [.mxClosed t]
  else
    State.testPending
      { s with mat := { s.mat with pendingClose := some { terminal := t, stop := stop, waited := false } } }

/-- A terminal joins the open work with a purpose, or takes it if it is already there. -/
def addOpen (work : List OpenWork) (t : Nat) (p : Purpose) : List OpenWork :=
  if work.any (·.terminal == t) then updateWhere (·.terminal == t) (fun w => { w with purpose := p }) work
  else work ++ [{ terminal := t, purpose := p }]

/-- R129: an Open joined to the drive that opens the terminal. -/
def Drive.joinOpen (d : Drive) : Drive :=
  if d.purpose == .tidy || d.purpose == .release then { d with purpose := .requested } else d

/-- R129: Open. -/
def State.openTerminal (s : State) (t : Nat) : State :=
  let pending := if (s.mat.pendingClose.map (·.terminal)) == some t then none else s.mat.pendingClose
  let s1 : State := { s with mat := { s.mat with pendingClose := pending } }
  match s1.mat.row t with
  | none => s1
  | some x =>
    if x.drive == .jammed then s1.emit [.mxJammed t x.failed]
    else if x.pos == some .opened && x.drive == .idle then s1.emit [.mxOpened t false]
    else
      let queue : State := { s1 with mat := { s1.mat with openWork := addOpen s1.mat.openWork t .requested } }
      match s1.mat.active with
      | none => queue
      | some d =>
        if d.terminal != t then queue
        else match d.direction with
          | .openUp => { s1 with mat := { s1.mat with active := some d.joinOpen } }
          | .close => { s1 with mat := { s1.mat with active := some { d with openWaits := true } } }

/-! ## Drive ends and jams (R125, R131, R132) -/

/-- The ALERT cause and the change notice when the last JAMMED crosspoint is cleared (R132). -/
def State.jamsGone (s : State) : State :=
  if s.mat.anyJammed then s else State.noticeChange { s with alert := { s.alert with jammed := false } }

/-- R132: a JAMMED crosspoint leaves JAMMED. -/
def State.clearJam (s : State) (t : Nat) (p : Position) : State :=
  let failed := ((s.mat.row t).map (·.failed)).getD .close
  let s1 := s.writeLog (.jammed t 2 failed (some p))
  let s2 : State :=
    { s1 with mat := (s1.mat.setRow t fun x => { x with drive := .idle, recovery := false }).clearMark t }
  (s2.emit [.mxCleared t p]).jamsGone

/-- R125: a drive that reads its target ends, with the notice of its purpose. A request to open that waited on a close
is taken again, and one that waited on a close which was reversed is answered by the one OPENED marked reversal (R129;
DESIGN CHOICE, notes/assumptions/75.md). -/
def State.endDrive (s : State) (d : Drive) : State :=
  let s1 : State := { s with mat := { s.mat.setDrive d.terminal .idle with active := none } }
  match d.direction with
  | .close =>
    let s2 := s1.emit [.mxClosed d.terminal]
    if d.openWaits then s2.openTerminal d.terminal else s2
  | .openUp => State.emit { s1 with mat := s1.mat.clearMark d.terminal } (openNotice d.terminal d.purpose)

/-- R123 step 2, R125, R132: a drive whose terminal is read at its target ends, suspended or not (DEDUCED,
notes/assumptions/43.md); a RECOVERY drive ends at CLOSED too. -/
def State.scanDrive (s : State) : State :=
  match s.mat.active with
  | none => s
  | some d =>
    match s.mat.posOf d.terminal, d.purpose, d.direction with
    | some .opened, .recovery, _ =>
      State.clearJam { s with mat := { s.mat with active := none } } d.terminal .opened
    | some .closed, .recovery, _ =>
      State.clearJam { s with mat := { s.mat with active := none } } d.terminal .closed
    | some .opened, _, .openUp => s.endDrive d
    | some .closed, _, .close => s.endDrive d
    | _, _, _ => s

/-- R123 step 3: JAMMED terminals with no active drive that are read OPEN or CLOSED are cleared. -/
def State.scanJams (s : State) : List XRow → State
  | [] => s
  | x :: rest =>
    let free := (s.mat.active.map (·.terminal)) != some x.terminal
    (match x.drive, x.pos with
      | .jammed, some .opened =>
        if free && s.mat.driveOf x.terminal == DriveState.jammed then s.clearJam x.terminal .opened else s
      | .jammed, some .closed =>
        if free && s.mat.driveOf x.terminal == DriveState.jammed then s.clearJam x.terminal .closed else s
      | _, _ => s).scanJams rest

/-- R131: the drive has failed. A request to open that waited on a failed close ends with it, and JAMMED is handed once
(DESIGN CHOICE, notes/assumptions/86.md). -/
def State.jam (s : State) (d : Drive) : State :=
  let first := ! s.mat.anyJammed
  let tried := ((s.mat.row d.terminal).map (·.recovery)).getD false
  let s1 : State :=
    { s with
      mat := { (s.mat.setRow d.terminal fun x => { x with drive := .jammed, failed := d.direction, recovery := true }) with
        active := none } }
  let s2 := (s1.writeLog (.jammed d.terminal 0 d.direction none)).ownFault d.terminal .crosspoint faultMinutes
  let s3 := if first then State.noticeChange { s2 with alert := { s2.alert with jammed := true } } else s2
  let s4 := if d.purpose == .tidy then s3 else s3.emit [.mxJammed d.terminal d.direction]
  if tried then s4.nextDrive else s4.startDrive d.terminal .openUp .recovery none false

/-- R132: a RECOVERY drive that fails ends; the crosspoint stays JAMMED. -/
def State.endRecovery (s : State) (d : Drive) : State :=
  let s1 := s.writeLog (.jammed d.terminal 1 .openUp none)
  State.nextDrive { s1 with mat := { (s1.mat.setRow d.terminal fun x => { x with failed := .openUp }) with active := none } }

/-- R124: a suspended drive resumes when both lines are clear; a close first passes its tests. -/
def State.resumeDrive (s : State) : State :=
  match s.mat.active with
  | none => s
  | some d =>
    if d.running.isSome || ! s.linesClear then s
    else
      let s1 := s.retestClose
      match s1.mat.active with
      | some d' => { s1 with mat := { s1.mat with active := some { d' with running := some s.now } } }
      | none => s1

/-! ## Unbidden moves (R133) -/

/-- R133: the moves out of CLOSED of the own HELD terminal; `old` are the rows before the scan. A crosspoint whose drive
ended or whose jam cleared at this scan has not moved unbidden (DESIGN CHOICE, notes/assumptions/62.md). -/
def movedNotices (old : List XRow) (m : Matrix) (held : Option Nat) : List Handed :=
  old.flatMap fun x =>
    match x.drive, x.pos, m.posOf x.terminal with
    | .idle, some .closed, some p =>
      if held == some x.terminal && p != .closed && m.driveOf x.terminal == .idle then
        [.mxMoved x.terminal .closed p]
      else []
    | _, _, _ => []

/-- R133: the tidy test of a row. -/
def XRow.untidy (x : XRow) (held mark : Option Nat) : Bool :=
  (x.pos == some .closed || x.pos == some .between) && x.drive == .idle && held != some x.terminal
    && mark != some x.terminal

/-- R133: untidy crosspoints join the open work, while the join state is LEARNING, JOINED or ISOLATED. -/
def State.tidy (s : State) : State :=
  if s.mayDrive then
    let held := (ownHeld s.map).map (·.1)
    let add := (s.mat.rows.filter fun x =>
      x.untidy held s.mat.releaseMark && ! s.mat.openWork.any (·.terminal == x.terminal)).map fun x =>
        ({ terminal := x.terminal, purpose := .tidy } : OpenWork)
    { s with mat := { s.mat with openWork := s.mat.openWork ++ add } }
  else s

/-! ## The scan (R122, R123) -/

/-- R122, R123: one scan result: the map and the link take it, then the matrix interface takes its steps. The next work is
chosen once, in step 6, a drive that ends in step 2 among the rest (DESIGN CHOICE, notes/assumptions/61.md). A close
drive is tested again whether it runs or is suspended (R128). -/
def State.takeScan (s : State) (scan : Contacts) : State :=
  let old := s.mat.rows
  let s1 : State := { s with mat := { s.mat with rows := old.map (XRow.read scan), lastScan := some s.now } }
  let s2 := (s1.mapScan s1.mat.rows).permitScan
  let s3 := s2.scanDrive
  let s4 := s3.scanJams s3.mat.rows
  let s5 := (s4.emit (movedNotices old s4.mat ((ownHeld s4.map).map (·.1)))).tidy
  s5.retestClose.nextDrive

/-! ## The hand-over (R134) -/

/-- R121: the row of a reach terminal before its first reading. -/
def XRow.fresh (t : Nat) : XRow :=
  { terminal := t, pos := none, sense := none, drive := .idle, recovery := false, failed := .close }

/-- The terminals read CLOSED. -/
def closedTerminals (rows : List XRow) : List Nat := (rows.filter fun x => x.pos == some .closed).map (·.terminal)

/-- The lowest of a list. -/
def lowestOf : List Nat → Option Nat
  | [] => none
  | t :: rest =>
    match lowestOf rest with
    | none => some t
    | some u => some (min t u)

/-- R134: the own row is settled from the start-up scan; until then the matrix interface stands at its reset values. -/
def State.settleFound (s : State) (reach : List Nat) (scan : Contacts) : State :=
  let rows := reach.map fun t => (XRow.fresh t).read scan
  let s1 : State := { s with mat := { Matrix.reset with rows := rows, scanFrom := some s.now } }
  match lowestOf (closedTerminals rows) with
  | none => s1
  | some t =>
    let s2 := s1.foundClosed t
    if (closedTerminals rows).length > 1 then
      { s2 with mat := { s2.mat with releaseMark := some t, openWork := [{ terminal := t, purpose := .release }] } }
    else s2

end Sys2Proof.Machine
end

