-- ==== Sys2Proof/Machine/Claim.lean ====
section
/-! DEFINITION. The claim engine (chapter 6): search, candidate walk, the own claim and its window, crossing claims, the
watched booking and withdrawal. -/

namespace Sys2Proof.Machine

/-- Section 1.8: what makes two occurrences the same. -/
def Occurrence.key (o : Occurrence) : OccKey := { source := o.source, start := o.start }

/-- A FREE is placed (R52). -/
def State.placeFree (s : State) (t cls : Nat) : State :=
  { s with bus := s.bus.placeFree { terminal := t, cls := cls } }

/-! ## The context -/

/-- The phase becomes IDLE and the context holds nothing; the watched booking stands (R99, R105, R118). -/
def Claim.idle (c : Claim) : Claim := { Claim.reset with watched := c.watched }

/-- R112 step 3. -/
def Claim.clearOwn (c : Claim) : Claim :=
  { c with terminal := none, ownStart := none, ownStartsIn := 0, windowEnd := none, crossing := [] }

/-- The class of the occurrence searched for. -/
def Claim.cls (c : Claim) : Nat := (c.occ.map (·.prog.cls)).getD 0

/-- The occurrence that the engine serves: that of the context, or of the Search that follows a pending withdrawal. -/
def Claim.serving (c : Claim) : Option OccKey :=
  match c.phase, c.followUp with
  | .idle, _ => none
  | .withdrawing, some (.search o _) => some o.key
  | .withdrawing, some .stop => none
  | _, _ => c.occ.map (·.key)

/-- The mark of a position, numbered from 1. -/
def Claim.setMark (c : Claim) (index : Nat) (m : Mark) : Claim := { c with marks := c.marks.set (index - 1) m }

/-- R101, R109: the index is lowered by one, so that the next reading reads the candidate again. -/
def Claim.stepBack (c : Claim) : Claim := { c with index := c.index - 1 }

/-! ## Usability (R103) and own holding (R104) -/

/-- R104: whether an own booking reaches the from of a span. -/
def Booking.reaches (b : Booking) (since : Int) : Bool :=
  b.found || (decide (b.since ≤ since) && (match b.till with | none => true | some u => decide (since ≤ u)))

/-- R104: the own booking on a terminal that reaches the from; an own HELD one comes first. -/
def ownReaching (m : List TermRow) (t : Nat) (since : Int) : Option Booking :=
  let test (o : Option (Nat × Booking)) : Option Booking :=
    match o with
    | some (t', b) => if t' == t && b.reaches since then some b else none
    | none => none
  firstSome [test (ownHeld m), test (ownBooked m)]

/-- R103: the tests in their order. -/
def State.usable (s : State) (o : Occurrence) (t : Nat) : Bool :=
  match rowOf s.map t with
  | none => false
  | some r =>
    decide (r.low ≤ o.prog.freq) && decide (o.prog.freq ≤ r.high)
      && decide (commandedCarrier o.prog.carrier 25 ≤ r.rating)
      && ! blocked s.map s.cfg.station t s.claim.since (some s.claim.till)
      && ! bookedAgainst s.map t { cls := o.prog.cls, since := s.claim.since, station := s.cfg.station }
          (some s.claim.till)
      && (! noRoom s.map t || (ownReaching s.map t s.claim.since).isSome)

/-- R104: the until of an extended booking. -/
def extendedTill (own : Option Int) (till : Int) : Option Int :=
  match own with
  | none => some till
  | some u => some (max u till)

/-! ## Outcomes of the walk -/

/-- The search has given a terminal: the phase is BOOKED and the outcome is handed, with the candidate's position (R104,
R113). -/
def State.handBooked (s : State) (o : Occurrence) (t : Nat) (how : HowTaken) : State :=
  State.emit { s with claim := { s.claim.clearOwn with phase := .booked } }
    [.booked o.key t s.claim.index how (isSuspect s.map t s.localSecond)]

/-- R113: the booking becomes the watched booking. -/
def State.watch (s : State) (o : Occurrence) (t : Nat) : State :=
  { s with claim := { s.claim with watched := some { terminal := t, occ := o } } }

/-- R113: the standing own BOOKED booking is superseded. -/
def State.supersede (s : State) : State :=
  match ownBooked s.map with
  | none => s
  | some (t, k) =>
    let s1 := (s.removeOwn t .booked).placeFree t k.cls
    match s.claim.watched with
    | some w => State.emit { s1 with claim := { s1.claim with watched := none } } [.lostBooking w.terminal w.occ.key .superseded]
    | none => s1

/-- R113: the own BOOKED booking is entered, superseding one that stands; `false` when the slots are full. Where one stands
and the slots are full as well, the standing one is superseded first (DESIGN CHOICE, notes/assumptions/85.md). -/
def State.enterBooked (s : State) (o : Occurrence) (t : Nat) : State × Bool :=
  let s0 := if (ownBooked s.map).isSome then s.supersede else s
  match s0.enterOwnBooked t o.prog.cls s.claim.since s.claim.till with
  | (s1, .entered) => (s1.watch o t, true)
  | (s1, _) => (s1, false)

/-- R104: the own booking on the terminal is extended and the search ends. -/
def State.takeExtended (s : State) (o : Occurrence) (t : Nat) (b : Booking) : State :=
  let s1 := s.extendOwn t b.state (min b.cls o.prog.cls) (extendedTill b.till s.claim.till)
  (if b.state == .booked then s1.watch o t else s1).handBooked o t .extended

/-- R108: a CLAIM of the candidate; outside JOINED the walk stops in WAIT-JOIN. A CLAIM refused while JOINED, which R108 says
cannot arise, stops there too, where R109 would walk again at once (DESIGN CHOICE, notes/assumptions/100.md). -/
def State.placeClaim (s : State) (o : Occurrence) (t : Nat) : State :=
  let f : ClaimFrame := { terminal := t, cls := o.prog.cls, since := s.claim.since, till := s.claim.till }
  if s.pres.join == .joined then
    match s.bus.placeClaim f with
    | (b, true) =>
      { s with bus := b, claim := { s.claim with terminal := some t, crossing := [], phase := .placed } }
    | (_, false) => { s with claim := { s.claim.stepBack with phase := .waitJoin } }
  else { s with claim := { s.claim.stepBack with phase := .waitJoin } }

/-- R105: the walk has passed the last position and makes no second pass. -/
def State.endWalk (s : State) : State :=
  if s.claim.marks.all (· == .exhausted) then
    State.emit { s with claim := s.claim.idle } ((s.claim.occ.map fun o => Handed.exhausted o.key).toList)
  else
    State.emit { s with claim := { s.claim with phase := .retryWait, retry := some (s.now + claimRetryMs) } }
      ((s.claim.occ.map fun o => Handed.waiting o.key).toList)

/-- R102 to R105, R108: the walk, from the position after the index. `fuel` bounds the readings. -/
def State.walkFrom : Nat → State → State
  | 0, s => s
  | fuel + 1, s =>
    match s.claim.occ with
    | none => s
    | some o =>
      match o.prog.cands[s.claim.index]? with
      | none =>
        if s.claim.pass == .normal && s.claim.skipped then
          State.walkFrom fuel { s with claim := { s.claim with pass := .suspect, skipped := false, index := 0 } }
        else s.endWalk
      | some t =>
        let s1 : State := { s with claim := { s.claim with index := s.claim.index + 1 } }
        if s.claim.marks[s.claim.index]? != some .opened then State.walkFrom fuel s1
        else if s.claim.pass == .normal && isSuspect s.map t s.localSecond then
          State.walkFrom fuel { s1 with claim := { s1.claim with skipped := true } }
        else if ! s.usable o t then State.walkFrom fuel s1
        else match ownReaching s.map t s.claim.since with
          | some b => s1.takeExtended o t b
          | none =>
            if ownDedicated s.map s.cfg.station t then
              match s1.enterBooked o t with
              | (s2, true) => s2.handBooked o t .dedicated
              | (s2, false) =>
                State.walkFrom fuel
                  { (s2.placeFree t o.prog.cls) with claim := s2.claim.setMark s2.claim.index .lost }
            else s1.placeClaim o t

/-- Two passes over three candidates, with the end of each, take at most eight readings. -/
def walkFuel : Nat := 12

def State.walk (s : State) : State := State.walkFrom walkFuel s

/-! ## Requests (R100, R101, R118) -/

/-- R100: a new search begins: the context is set up and the walk is made. -/
def State.beginSearch (s : State) (o : Occurrence) (givenUp : List Nat) : State :=
  match s.localSecondOf o.start, s.localSecondOf o.stop with
  | some since, some till =>
    if till ≤ (s.localSecond : Int) then State.emit { s with claim := s.claim.idle } [.expired o.key]
    else
      State.walk
        { s with
          claim := { Claim.reset with
            occ := some o, since := since, till := till,
            marks := o.prog.cands.map fun t => if givenUp.contains t then .exhausted else .opened,
            phase := .halted, watched := s.claim.watched } }
  | _, _ => s.emit [.searchRefused o.key]

/-- R51: the CLAIM in the slot is asked back; the follow-up is carried out on the notice. -/
def State.askBack (s : State) (f : FollowUp) : State :=
  let r := s.bus.withdrawClaim
  State.emit { s with bus := r.1, claim := { s.claim with phase := .withdrawing, followUp := some f } } r.2

/-- FREE for the claim terminal, with the claim's class. -/
def State.freeClaim (s : State) : State :=
  match s.claim.terminal with
  | some t => s.placeFree t s.claim.cls
  | none => s

/-- R100: Search. -/
def State.search (s : State) (o : Occurrence) (givenUp : List Nat) : State :=
  if s.utc.isNone then s.emit [.searchRefused o.key]
  else match s.claim.phase with
    | .placed => s.askBack (.search o givenUp)
    | .window => s.freeClaim.beginSearch o givenUp
    | .withdrawing => { s with claim := { s.claim with followUp := some (.search o givenUp) } }
    | .idle => s.beginSearch o givenUp
    | .waitJoin => s.beginSearch o givenUp
    | .retryWait => s.beginSearch o givenUp
    | .booked => s.beginSearch o givenUp
    | .halted => s.beginSearch o givenUp

/-- R101: Exhaust. -/
def State.exhaust (s : State) (t : Nat) : State :=
  match s.claim.phase, s.claim.occ with
  | .idle, _ => s
  | _, none => s
  | _, some o =>
    { s with
      claim := { s.claim with
        marks := List.zipWith (fun m c => if c == t then .exhausted else m) s.claim.marks o.prog.cands } }

/-- R101: Resume. -/
def State.resume (s : State) : State :=
  if s.claim.phase == .booked || s.claim.phase == .halted then s.walk else s

/-- R118: the watched booking of a cancelled occurrence is removed and freed. One that is no longer the own BOOKED booking
of its terminal is not watched any more (R115; DEDUCED, notes/assumptions/53.md). -/
def State.cancelWatched (s : State) (k : OccKey) : State :=
  match s.claim.watched with
  | some w =>
    if w.occ.key == k then
      let s1 := match ownBooked s.map with
        | some (t, b) => if t == w.terminal then (s.removeOwn t .booked).placeFree t b.cls else s
        | none => s
      { s1 with claim := { s1.claim with watched := none } }
    else s
  | none => s

/-- R118: the context of a cancelled occurrence. -/
def State.cancelContext (s : State) (k : OccKey) : State :=
  if s.claim.serving == some k then
    match s.claim.phase with
    | .placed => s.askBack .stop
    | .window => { s.freeClaim with claim := s.claim.idle }
    | .withdrawing => { s with claim := { s.claim with followUp := some .stop } }
    | _ => { s with claim := s.claim.idle }
  else s

/-- R118: Cancel. -/
def State.cancelClaim (s : State) (k : OccKey) : State := (s.cancelContext k).cancelWatched k

/-! ## Crossing claims (R111) -/

/-- What the claims of two stations are compared on. -/
structure ClaimRank where
  cls     : Nat
  startMs : Int
  station : Nat
  deriving DecidableEq, Repr

/-- R111: starts that differ by less than 2 000 ms are equal starts. -/
def ClaimRank.beats (x y : ClaimRank) : Bool :=
  if x.cls != y.cls then decide (x.cls < y.cls)
  else if decide (equalStartMs ≤ x.startMs - y.startMs) || decide (equalStartMs ≤ y.startMs - x.startMs) then
    decide (x.startMs < y.startMs)
  else decide (x.station < y.station)

def Crossing.rank (c : Crossing) : ClaimRank := { cls := c.cls, startMs := c.startMs, station := c.station }

/-- R111: a received CLAIM as a crossing claim. -/
def crossingOf (f : RxFrame) : Crossing :=
  let b := (claimBooking f.payload f.sender.toNat (f.start / 1000)).2
  { station := f.sender.toNat, cls := b.cls, startMs := f.start + 1000 * min (wordAt f.payload 3) 65534,
    since := b.since, till := b.till }

/-- R111: whether `x` stands before `y` in the order of replacement: worst class, latest start, highest station. -/
def Crossing.worse (x y : Crossing) : Bool :=
  if x.cls != y.cls then decide (y.cls < x.cls)
  else if x.startMs != y.startMs then decide (y.startMs < x.startMs)
  else decide (y.station < x.station)

/-- R111: the remembered claim that a new one replaces in a full list. -/
def replaceable (c : Crossing) (l : List Crossing) : Option Crossing :=
  (l.filter fun x => c.rank.beats x.rank).foldl (fun best x => match best with
    | none => some x
    | some b => if x.worse b then some x else some b) none

/-- R111: a crossing claim is remembered. -/
def remember (c : Crossing) (l : List Crossing) : List Crossing :=
  if l.any (·.station == c.station) then updateWhere (·.station == c.station) (fun _ => c) l
  else if l.length < crossingCapacity then l ++ [c]
  else match replaceable c l with
    | none => l
    | some old => updateWhere (· == old) (fun _ => c) l

/-- R111: the own claim as the bus carried it. -/
def State.ownRank (s : State) : ClaimRank :=
  { cls := s.claim.cls, startMs := (s.claim.ownStart.getD 0) + 1000 * s.claim.ownStartsIn, station := s.cfg.station }

/-! ## The own claim (R109, R110, R112, R113) -/

/-- R112: the own claim is lost and the walk goes on. -/
def State.loseClaim (s : State) : State :=
  let s1 := s.freeClaim
  State.walk { s1 with claim := (s1.claim.setMark s1.claim.index .lost).clearOwn }

/-- What follows a withdrawal that has ended (R100, R114, R118). A new Search that finds the clock UNSET then is refused and
leaves no search, the phase IDLE (DESIGN CHOICE, notes/assumptions/84.md). -/
def State.followUp (s : State) : State :=
  let c := s.claim.clearOwn
  match s.claim.followUp with
  | some .walkOn => State.walk { s with claim := { c with followUp := none, skipped := true } }
  | some (.search o g) => State.beginSearch { s with claim := s.claim.idle } o g
  | some .stop => { s with claim := s.claim.idle }
  | none => { s with claim := s.claim.idle }

/-- R109, Sent. -/
def State.takeClaimSent (s : State) (start startsIn : Nat) : State :=
  match s.claim.phase with
  | .placed =>
    let s1 : State :=
      { s with
        claim := { s.claim with
          ownStart := some start, ownStartsIn := startsIn, windowEnd := some (s.now + claimWindowMs),
          phase := .window } }
    if s1.claim.crossing.any fun c => c.rank.beats s1.ownRank then s1.loseClaim else s1
  | .withdrawing => s.freeClaim.followUp
  | _ => s

/-- R109, Dropped. -/
def State.takeClaimDropped (s : State) : State :=
  match s.claim.phase with
  | .placed => State.walk { s with claim := s.claim.clearOwn.stepBack }
  | .withdrawing => s.followUp
  | _ => s

/-- R109, Withdrawn. -/
def State.takeClaimWithdrawn (s : State) : State :=
  match s.claim.phase with
  | .placed =>
    let c := s.claim.clearOwn.stepBack
    if s.pres.join == .joined then State.walk { s with claim := c }
    else { s with claim := { c with phase := .waitJoin } }
  | .withdrawing => s.followUp
  | _ => s

/-- R113: the window ends unlost. -/
def State.endClaimWindow (s : State) : State :=
  match s.claim.occ, s.claim.terminal with
  | some o, some t =>
    match s.enterBooked o t with
    | (s1, true) => s1.handBooked o t .claimed
    | (s1, false) => s1.loseClaim
  | _, _ => s

/-! ## The watched booking (R115 to R117) -/

/-- R115, R117: a context in BOOKED that serves the lost booking's occurrence becomes HALTED, its mark LOST. -/
def Claim.halt (c : Claim) (k : OccKey) : Claim :=
  if c.phase == .booked && c.occ.map (·.key) == some k then { (c.setMark c.index .lost) with phase := .halted } else c

/-- R115, R116: the watched booking is lost: removed, freed and reported. -/
def State.loseWatched (s : State) (w : Watched) (cause : LostCause) : State :=
  let cls := ((ownBooked s.map).map (·.2.cls)).getD w.occ.prog.cls
  let s1 := (s.removeOwn w.terminal .booked).placeFree w.terminal cls
  State.emit { s1 with claim := { (s1.claim.halt w.occ.key) with watched := none } }
    [.lostBooking w.terminal w.occ.key cause]

/-- R115: the watch at a local second. -/
def State.watchSecond (s : State) : State :=
  match s.claim.watched with
  | none => s
  | some w =>
    match ownBooked s.map with
    | some (t, k) =>
      if t == w.terminal then
        if blocked s.map s.cfg.station t (max k.since s.localSecond) k.till then s.loseWatched w .overtaken else s
      else { s with claim := { s.claim with watched := none } }
    | none => { s with claim := { s.claim with watched := none } }

/-- R117: a preemption notice. -/
def State.takePreempted (s : State) (t cls : Nat) : State :=
  let s1 := s.placeFree t cls
  match s.claim.watched with
  | some w =>
    if w.terminal == t then
      State.emit { s1 with claim := { (s1.claim.halt w.occ.key) with watched := none } }
        [.lostBooking t w.occ.key .preempted]
    else s1
  | none => s1

/-! ## Frames (R110, R111, R114, R116) -/

/-- R110, R116: a DENY. One for the claim's terminal in WINDOW loses the claim alone, the watched booking of that terminal
standing; one for the watched booking's terminal otherwise loses the booking, in PLACED too (DESIGN CHOICE,
notes/assumptions/60.md). -/
def State.claimDeny (s : State) (f : RxFrame) : State :=
  let t := byteAt f.payload 2
  if byteAt f.payload 1 != s.cfg.station then s
  else if s.claim.phase == .window && s.claim.terminal == some t then s.loseClaim
  else match s.claim.watched with
    | some w =>
      if w.terminal == t && (ownBooked s.map).map (·.1) == some t then s.loseWatched w .lateDenied else s
    | none => s

/-- R111: a CLAIM of another station. -/
def State.claimClaim (s : State) (f : RxFrame) : State :=
  let c := crossingOf f
  if s.claim.terminal == some (byteAt f.payload 1) && spansOverlap s.claim.since (some s.claim.till) c.since c.till then
    match s.claim.phase with
    | .placed => { s with claim := { s.claim with crossing := remember c s.claim.crossing } }
    | .window => if c.rank.beats s.ownRank then s.loseClaim else s
    | _ => s
  else s

/-- R114: a FAULT. -/
def State.claimFault (s : State) (t : Nat) : State :=
  if s.claim.phase == .placed && s.claim.pass == .normal && s.claim.terminal == some t then s.askBack .walkOn else s

/-! ## Join state (R99, R119) and retry (R107) -/

/-- R119: a context in WAIT-JOIN runs its walk on entry to JOINED; R99: all is dropped on entry to DISABLED. -/
def State.claimJoin (s : State) (new : JoinState) : State :=
  match new with
  | .disabled => { s with claim := Claim.reset }
  | .joined => if s.claim.phase == .waitJoin then s.walk else s
  | _ => s

/-- R107: the retry. -/
def State.retryWalk (s : State) : State :=
  match s.claim.occ with
  | none => s
  | some o =>
    if s.claim.till ≤ (s.localSecond : Int) then State.emit { s with claim := s.claim.idle } [.expired o.key]
    else
      State.walk
        { s with
          claim := { s.claim with
            marks := s.claim.marks.map fun m => if m == .lost then .opened else m,
            pass := .normal, skipped := false, index := 0, retry := none } }

end Sys2Proof.Machine
end

