-- ==== Sys2Proof/Machine/Schedule.lean ====
section
/-! DEFINITION. The schedule store (chapter 1): lookups, serial memory, changeover and extra removal, and the six
schedule requests. -/

namespace Sys2Proof.Machine

/-! ## Banks -/

def Store.bank (s : Store) : Bank → BankData
  | .a => s.bankA | .b => s.bankB

def Store.setBank (s : Store) (bk : Bank) (d : BankData) : Store :=
  match bk with
  | .a => { s with bankA := d }
  | .b => { s with bankB := d }

def Bank.other : Bank → Bank
  | .a => .b | .b => .a

/-- The entry a bank holds under a number. -/
def BankData.entry (d : BankData) (n : Nat) : Option Entry := d.entries.find? (·.number == n)

/-- R10 step 4: the entry takes the slot of its number; the entries stay in number order. -/
def putEntry (e : Entry) : List Entry → List Entry
  | [] => [e]
  | x :: rest =>
    if e.number < x.number then e :: x :: rest
    else if e.number == x.number then e :: rest
    else x :: putEntry e rest

/-! ## Current and next entry (R21, R22) -/

/-- R21: the occurrence of an entry that is active at an instant. -/
def entryAt (bank : Bank) (e : Entry) (t : Nat) : Option Occurrence :=
  let d := weekday (t / 1440)
  let m := t % 1440
  let day : Int := (t - m : Nat)
  let occ (start stop : Int) : Occurrence :=
    { source := .bank bank e.number, number := e.number, prog := e.prog, start := start, stop := stop }
  if e.prog.start < e.prog.stop then
    if activeAt e d m then some (occ (day + e.prog.start) (day + e.prog.stop)) else none
  else if onDay e.days d && decide (e.prog.start ≤ m) then
    some (occ (day + e.prog.start) (day + 1440 + e.prog.stop))
  else if onDay e.days ((d + 6) % 7) && decide (m < e.prog.stop) then
    some (occ (day - 1440 + e.prog.start) (day + e.prog.stop))
  else none

/-- R21: the occurrence of an extra that is active at an instant. -/
def extraAt (slot : Nat) (x : Extra) (t : Nat) : Option Occurrence :=
  if extraActive x t then
    some { source := .extra slot, number := x.number, prog := x.prog, start := extraStart x, stop := extraStop x }
  else none

/-- R21 step 1: the active extra. -/
def activeExtra (extras : List (Option Extra)) (t : Nat) : Option Occurrence :=
  firstSome (extras.zipIdx.map fun p => p.1.bind fun x => extraAt p.2 x t)

/-- R21 step 2: the active entry of a bank. -/
def activeEntry (bank : Bank) (d : BankData) (t : Nat) : Option Occurrence :=
  firstSome (d.entries.map fun e => entryAt bank e t)

/-- The LIVE bank. -/
def Store.liveBank (s : Store) : Option Bank :=
  if s.bankA.state == .live then some .a else if s.bankB.state == .live then some .b else none

/-- The changeover instant of a READY bank that is at or before an instant. -/
def BankData.dueAt (d : BankData) (t : Nat) : Option Nat :=
  if d.state == .ready then d.instant.filter fun i => decide (i ≤ t) else none

/-- R18, R22: the READY bank whose instant is at or before an instant; of two, the one with the later instant. -/
def Store.dueBank (s : Store) (t : Nat) : Option Bank :=
  match s.bankA.dueAt t, s.bankB.dueAt t with
  | some i, some j => if i < j then some .b else some .a
  | some _, none => some .a
  | none, some _ => some .b
  | none, none => none

/-- R21: what is current at an instant with a given LIVE bank. -/
def Store.occurrenceAt (s : Store) (live : Option Bank) (t : Nat) : Option Occurrence :=
  match activeExtra s.extras t with
  | some o => some o
  | none => live.bind fun bk => activeEntry bk (s.bank bk) t

/-- R21: the current entry at an instant. -/
def Store.currentAt (s : Store) (t : Nat) : Option Occurrence := s.occurrenceAt s.liveBank t

/-- R22: the current entry at a later instant, with a READY bank whose instant has come treated as LIVE. -/
def Store.foreseenAt (s : Store) (x : Nat) : Option Occurrence :=
  s.occurrenceAt (match s.dueBank x with | some bk => some bk | none => s.liveBank) x

/-- R22: the next entry at an instant, over so many minutes. The minutes are counted on past 2099-12-31 23:59, where the
spec says nothing of the lookup (DESIGN CHOICE, notes/assumptions/55.md). -/
def Store.nextAfter (s : Store) (t minutes : Nat) : Option Occurrence :=
  let cur := (s.currentAt t).map (·.key)
  firstSome ((List.range minutes).map fun i =>
    (s.foreseenAt (t + 1 + i)).filter fun o => cur != some o.key)

/-- R21, R22: the current occurrence; none while the clock is UNSET. -/
def State.currentEntry (s : State) : Option Occurrence := s.instant.bind s.store.currentAt

/-- R22: the next occurrence; none while the clock is UNSET. -/
def State.nextEntry (s : State) : Option Occurrence := s.instant.bind fun t => s.store.nextAfter t (s.cfg.lead / 60)

/-! ## Serial memory (R15, R16). The arrangement of the bytes is a DESIGN CHOICE (notes/assumptions/5.md). -/

/-- The bytes of a header that its sum is kept over. -/
def headerBytes (state : BankState) (label : Nat) (instant : Option Nat) (entrySet : List Nat) (count : Nat) : List Byte :=
  [byteOf state.code, byteOf label]
    ++ (match instant with | none => byteOf 0 :: word32 0 | some i => byteOf 1 :: word32 i)
    ++ entrySet.map byteOf ++ [byteOf count]

/-- The sum over a header and the entries of its entry set. -/
def bankSum (bank : Bank) (state : BankState) (label : Nat) (instant : Option Nat) (entries : List Entry) : BitVec 16 :=
  crc16 (headerBytes state label instant (entries.map (·.number)) entries.length ++ entries.flatMap (entryBytes bank))

/-- The header of a bank as it is written to serial memory. -/
def BankData.header (d : BankData) (bank : Bank) : StoredHeader :=
  { state := d.state, label := d.label, instant := d.instant, entrySet := d.entries.map (·.number),
    count := d.entries.length, sum := bankSum bank d.state d.label d.instant d.entries, intact := true }

/-- A serial-memory write is issued, with the REPLY that waits on it. -/
def State.issueWrite (s : State) (w : SerialWrite) (reply : Option Reply) : State :=
  { s with serial := { s.serial with writes := s.serial.writes ++ [{ what := w, reply := reply }] } }

/-- A bank's header is issued for writing. -/
def State.writeHeader (s : State) (bank : Bank) (reply : Option Reply) : State :=
  s.issueWrite (.header bank ((s.store.bank bank).header bank)) reply

def Serial.bank (s : Serial) : Bank → StoredBank
  | .a => s.bankA | .b => s.bankB

def Serial.setBank (s : Serial) (bk : Bank) (d : StoredBank) : Serial :=
  match bk with
  | .a => { s with bankA := d }
  | .b => { s with bankB := d }

/-- What an ended write leaves in the memory; `kept` is whether the memory kept it (R15, notes/assumptions/8.md). -/
def Serial.apply (s : Serial) (w : SerialWrite) (kept : Bool) : Serial :=
  match w with
  | .header bank h => s.setBank bank { s.bank bank with header := { h with intact := kept } }
  | .slot bank e =>
    s.setBank bank { s.bank bank with
      slots := { number := e.number, entry := e, intact := kept }
        :: (s.bank bank).slots.filter fun x => x.number != e.number }

/-- R15: a write that was cut short leaves what it was writing in an unknown condition; the writes behind it are not
made. -/
def Serial.cutShort (s : Serial) : Serial :=
  match s.writes with
  | [] => s
  | w :: _ => { s.apply w.what false with writes := [] }

/-- The entries that a stored header names, when every slot is there and intact. -/
def StoredBank.entries (bk : StoredBank) : Option (List Entry) :=
  bk.header.entrySet.mapM fun n => (bk.slots.find? fun x => x.number == n && x.intact).map (·.entry)

/-- R16: the finding on a stored bank: the bank read, or the cause of its loss with the first failing entry. -/
def readBack (cfg : Settings) (rows : List TermRow) (bank : Bank) (bk : StoredBank) :
    BankData × Option (Nat × Option Nat) :=
  match bk.header.intact, bk.entries with
  | true, some es =>
    if bankSum bank bk.header.state bk.header.label bk.header.instant es != bk.header.sum then (.reset, some (1, none))
    else match bk.header.state with
      | .empty => (.reset, none)
      | .loading => (.reset, some (0, none))
      | st =>
        match es.find? fun e => (entryFail cfg rows e.number e.days.toNat e.prog.toRaw).isSome with
        | some e => (.reset, some (2, some e.number))
        | none => ({ state := st, label := bk.header.label, instant := bk.header.instant, entries := es }, none)
  | _, _ => (.reset, some (1, none))

/-- R16: one bank is settled, with its BANKLOST record and the EMPTY header written back. -/
def State.settleBank (s : State) (bank : Bank) : State :=
  let r := readBack s.cfg s.map bank (s.serial.bank bank)
  let s1 : State := { s with store := s.store.setBank bank r.1 }
  match r.2 with
  | none => s1
  | some (cause, entry) => (s1.writeLog (.bankLost bank cause entry)).writeHeader bank none

/-- R16: with both headers LIVE, bank B is settled SPENT. Each bank is settled by itself first, so that of two LIVE headers
one on a lost bank makes nothing SPENT (DESIGN CHOICE, notes/assumptions/56.md). -/
def State.settleBothLive (s : State) : State :=
  if s.store.bankA.state == .live && s.store.bankB.state == .live then
    State.writeHeader { s with store := { s.store with bankB := { s.store.bankB with state := .spent } } } .b none
  else s

/-- R16, R192 step 3: bank A and then bank B. -/
def State.readBanks (s : State) : State := ((s.settleBank .a).settleBank .b).settleBothLive

/-! ## Changeover and removal (R18, R19, R23) -/

/-- A bank takes a state. -/
def Store.setState (s : Store) (bk : Bank) (st : BankState) : Store := s.setBank bk { s.bank bk with state := st }

/-- R18: the bank that the changeover makes SPENT: the LIVE one, or the other READY bank whose instant has passed. -/
def Store.spentBy (s : Store) (bk : Bank) (t : Nat) : Option Bank :=
  if (s.bank bk.other).state == .live || ((s.bank bk.other).dueAt t).isSome then some bk.other else none

/-- R18, R24: the changeover of a bank, with its notice to the sequencer. -/
def State.changeOver (s : State) (bk : Bank) (t : Nat) : State :=
  match s.store.spentBy bk t with
  | some o =>
    let s1 : State := { s with store := (s.store.setState o .spent).setState bk .live }
    (((s1.writeHeader o none).writeHeader bk none).writeLog (.changeover bk (s.store.bank bk).label (some o))).emit
      [.storeNotice (.changeover bk)]
  | none =>
    let s1 : State := { s with store := s.store.setState bk .live }
    ((s1.writeHeader bk none).writeLog (.changeover bk (s.store.bank bk).label none)).emit
      [.storeNotice (.changeover bk)]

/-- R18, R19: the changeover test against a minute. -/
def State.changeoverTest (s : State) (t : Nat) : State :=
  match s.store.dueBank t with
  | some bk => s.changeOver bk t
  | none => s

/-- R23: extras whose stop instant is at or before a minute leave their slots. -/
def removeExtras (extras : List (Option Extra)) (t : Nat) : List (Option Extra) :=
  extras.map fun x => x.filter fun e => decide (t < extraStop e)

/-- R18, R19, R23: what the store does at a minute boundary or a clock setting. -/
def State.storeMinute (s : State) (t : Nat) : State :=
  let s1 := s.changeoverTest t
  { s1 with store := { s1.store with extras := removeExtras s1.store.extras t } }

/-! ## Replies -/

def Bank.stateByte (s : Store) (bk : Bank) : Byte := byteOf (s.bank bk).state.code

def rangeReply (kind : Nat) (f : RangeField × Nat) : Reply :=
  { kind := kind, code := .range, data := [byteOf f.1.code, byteOf f.2] }

def stateReply (kind : Nat) (state : Byte) : Reply := { kind := kind, code := .state, data := [state] }

def doneReply (kind : Nat) (data : List Byte) : Reply := { kind := kind, code := .done, data := data }

/-- The REPLY of a request is placed (R55, R187). -/
def State.reply (s : State) (r : Reply) : State := { s with bus := s.bus.placeReply r }

/-! ## The schedule requests (R8 to R14). `p` is the payload of the REQUEST. -/

/-- R9. -/
def State.bankOpen (s : State) (p : List Byte) : State :=
  match bankOfCode (byteAt p 2) with
  | none => s.reply (rangeReply 0 (.bank, 0))
  | some bk =>
    match (s.store.bank bk).state with
    | .live => s.reply (stateReply 0 (Bank.stateByte s.store bk))
    | .loading => s.reply (stateReply 0 (Bank.stateByte s.store bk))
    | st =>
      let s1 : State :=
        { s with store := s.store.setBank bk { state := .loading, label := 0, instant := none, entries := [] } }
      let s2 := s1.writeHeader bk (some (doneReply 0 [Bank.stateByte s1.store bk]))
      if st == .ready then s2.emit [.storeNotice (.bankOpened bk)] else s2

/-- R5: the first held entry, in number order, that overlaps a new one of another number. -/
def firstOverlap (e : Entry) (held : List Entry) : Option Nat :=
  (held.find? fun x => x.number != e.number && entriesOverlap e x).map (·.number)

/-- R10. -/
def State.entryPut (s : State) (p : List Byte) : State :=
  match bankOfCode (byteAt p 2) with
  | none => s.reply (rangeReply 1 (.bank, 0))
  | some bk =>
    let d := s.store.bank bk
    let raw := rawProgAt p
    if d.state != .loading then s.reply (stateReply 1 (Bank.stateByte s.store bk))
    else match entryFail s.cfg s.map (byteAt p 3) (byteAt p 4) raw, modeOfCode raw.mode with
      | some f, _ => s.reply (rangeReply 1 f)
      | none, none => s.reply (rangeReply 1 (.mode, 0))
      | none, some mode =>
        let e : Entry := { number := byteAt p 3, days := BitVec.ofNat 7 (byteAt p 4), prog := raw.toProg mode }
        match firstOverlap e d.entries with
        | some n => s.reply { kind := 1, code := .overlap, data := [byteOf n] }
        | none =>
          let s1 : State := { s with store := s.store.setBank bk { d with entries := putEntry e d.entries } }
          s1.issueWrite (.slot bk e) (some (doneReply 1 [Bank.stateByte s1.store bk]))

/-- R11 step 2: the first failing field of a BANK-CLOSE. A bad date, one by its year byte included, fails as the instant
(DESIGN CHOICE, notes/assumptions/71.md). -/
def closeFail (store : Store) (bk : Bank) (p : List Byte) : Option (RangeField × Nat) :=
  let year := 2000 + byteAt p 5
  let x := instantOf year (byteAt p 6) (byteAt p 7) (wordAt p 8)
  firstFail
    [(decide (byteAt p 3 > 128), .count),
     (decide (byteAt p 4 > 255), .label),
     (! validDate year (byteAt p 6) (byteAt p 7) || decide (wordAt p 8 ≥ 1440)
        || ((store.bank bk.other).state == .ready && (store.bank bk.other).instant == some x), .instant)]

/-- R11. -/
def State.bankClose (s : State) (p : List Byte) : State :=
  match bankOfCode (byteAt p 2) with
  | none => s.reply (rangeReply 2 (.bank, 0))
  | some bk =>
    let d := s.store.bank bk
    if d.state != .loading then s.reply (stateReply 2 (Bank.stateByte s.store bk))
    else match closeFail s.store bk p with
      | some f => s.reply (rangeReply 2 f)
      | none =>
        if byteAt p 3 != d.entries.length then
          s.reply { kind := 2, code := .count, data := [byteOf d.entries.length] }
        else
          let x := instantOf (2000 + byteAt p 5) (byteAt p 6) (byteAt p 7) (wordAt p 8)
          let s1 : State :=
            { s with store := s.store.setBank bk { d with state := .ready, label := byteAt p 4, instant := some x } }
          (s1.writeHeader bk (some (doneReply 2 [Bank.stateByte s1.store bk]))).emit [.storeNotice (.bankReady bk)]

/-- R3: the first failing field of an EXTRA-PUT; the slot field of the wire cannot fail (R48). -/
def extraFail (cfg : Settings) (rows : List TermRow) (t : Nat) (x : Extra) (raw : RawProg) : Option (RangeField × Nat) :=
  match firstFail
      [(decide (x.number > 127), .number),
       (! validDate x.year x.month x.day, .date)] with
  | some f => some f
  | none =>
    let stop := if raw.start < raw.stop then instantOf x.year x.month x.day raw.stop
      else instantOf x.year x.month x.day (1440 + raw.stop)
    progFail cfg rows raw (decide (stop ≤ t) || decide (maxInstant < stop))

/-- R6: the first other slot whose extra overlaps. -/
def firstExtraOverlap (slot : Nat) (x : Extra) (extras : List (Option Extra)) : Option Nat :=
  firstSome (extras.zipIdx.map fun p =>
    p.1.bind fun y => if p.2 != slot && extrasOverlap x y then some p.2 else none)

/-- A slot of the extra list is set. -/
def State.setExtra (s : State) (slot : Nat) (x : Option Extra) : State :=
  { s with store := { s.store with extras := s.store.extras.set slot x } }

/-- R12 step 4: the extra takes its slot and the sequencer is notified (R24). -/
def State.storeExtra (s : State) (slot : Nat) (x : Extra) : State :=
  (s.setExtra slot (some x)).emit [.storeNotice (.extraStored slot)]

/-- R48: the extra record that an EXTRA-PUT carries, for a mode read. -/
def extraOf (p : List Byte) (mode : Mode) : Extra :=
  { number := byteAt p 3, year := 2000 + byteAt p 4, month := byteAt p 5 / 16, day := byteAt p 2 % 32,
    prog := (rawProgAt p).toProg mode }

/-- R12. The old extra of the slot is dropped first, with its notice. -/
def State.extraPut (s : State) (p : List Byte) : State :=
  match s.instant with
  | none => s.reply (stateReply 3 (byteOf s.clock.state.code))
  | some t =>
    let raw := rawProgAt p
    let slot := byteAt p 2 / 32
    let x := extraOf p ((modeOfCode raw.mode).getD .am)
    match extraFail s.cfg s.map t x raw with
    | some f => s.reply (rangeReply 3 f)
    | none =>
      match firstExtraOverlap slot x s.store.extras with
      | some n => s.reply { kind := 3, code := .overlap, data := [byteOf n] }
      | none =>
        let held := (s.store.extras.getD slot none).isSome
        (s.setExtra slot none).emit
          ((if held then [.storeNotice (.extraDropped slot)] else []) ++ [.storeExtra slot x, .placeReply (doneReply 3 [byteOf slot])])

/-- R13. -/
def State.extraDrop (s : State) (p : List Byte) : State :=
  let slot := byteAt p 2
  if slot > 7 then s.reply (rangeReply 4 (.slot, 0))
  else if (s.store.extras.getD slot none).isNone then s.reply { kind := 4, code := .gone, data := [] }
  else (s.setExtra slot none).emit [.storeNotice (.extraDropped slot), .placeReply (doneReply 4 [byteOf slot])]

/-- R14. -/
def State.entryGet (s : State) (p : List Byte) : State :=
  match bankOfCode (byteAt p 2) with
  | none => s.reply (rangeReply 5 (.bank, 0))
  | some bk =>
    if byteAt p 3 > 127 then s.reply (rangeReply 5 (.number, 0))
    else match (s.store.bank bk).entry (byteAt p 3) with
      | some e => s.reply (doneReply 5 (entryBytes bk e))
      | none => s.reply { kind := 5, code := .gone, data := [] }

/-! ## LOG-GET and STATUS-GET (R185, R188) -/

/-- R185. -/
def State.logGet (s : State) (p : List Byte) : State :=
  match s.log.get (BitVec.ofNat 16 (wordAt p 2)) with
  | some r => s.reply (doneReply 6 (logrecBytes r))
  | none => s.reply { kind := 6, code := .gone, data := [] }

/-- R188, R48: bytes 2 to 11 of the STATUS-GET reply. -/
def State.statusBytes (s : State) : List Byte :=
  let source := s.seq.cur.occ.map (·.source)
  [byteOf s.pres.join.code, byteOf s.clock.state.code, byteOf s.seq.cur.state.code, byteOf (sourceKind source),
    sourceNumber s.freeCount source, terminalByte ((ownHeld s.map).map (·.1))]
    ++ word16 s.psu.announced
    ++ [byteOf (s.store.bankA.state.code * 16 + s.store.bankB.state.code), s.alert.byte]

/-- R188. -/
def State.statusGet (s : State) : State := s.reply (doneReply 7 s.statusBytes)

/-! ## The request queue (R186, R189) -/

/-- The kind of a request: bits 2 to 0 of its first byte. -/
def requestKind (p : List Byte) : Nat := byteAt p 1 % 8

/-- R189: in DISABLED a request other than STATUS-GET that reaches the head is removed without a reply. -/
def discardHeads : List (List Byte) → List (List Byte)
  | [] => []
  | p :: rest => if requestKind p == 7 then p :: rest else discardHeads rest

/-- R189: the heads are discarded while the join state is DISABLED; the request being served stays. -/
def State.discardDisabled (s : State) : State :=
  if s.pres.join == .disabled && ! s.req.serving then
    { s with req := { s.req with queue := discardHeads s.req.queue } }
  else s

/-- R186: a REQUEST handed on joins the queue, or is discarded when the queue holds 8. -/
def State.takeRequest (s : State) (f : RxFrame) : State :=
  if s.req.queue.length < requestCapacity then
    State.discardDisabled { s with req := { s.req with queue := s.req.queue ++ [f.payload] } }
  else s

/-- R186: the head leaves the queue with the sent or dropped notice of its REPLY. -/
def State.endRequest (s : State) : State :=
  State.discardDisabled { s with req := { queue := s.req.queue.drop 1, serving := false } }

/-- R186, R187: the head request, when it is of a kind and not yet being served; in DISABLED only STATUS-GET is. -/
def State.headOf (s : State) (kind : Nat) : Option (List Byte) :=
  match s.req.queue with
  | p :: _ =>
    if ! s.req.serving && requestKind p == kind && (s.pres.join != .disabled || kind == 7) then some p else none
  | [] => none

/-- R186, R187: the head request is served. -/
def State.serve (s : State) (kind : Nat) (service : State → List Byte → State) : State :=
  match s.headOf kind with
  | some p => service { s with req := { s.req with serving := true } } p
  | none => s

/-- R15: the write in progress ends; the REPLY that waits on it is placed (R187). -/
def State.endWrite (s : State) (kept : Bool) : State :=
  match s.serial.writes with
  | [] => s
  | w :: rest =>
    let s1 : State := { s with serial := { s.serial.apply w.what kept with writes := rest } }
    match w.reply with
    | some r => s1.reply r
    | none => s1

end Sys2Proof.Machine
end

