-- ==== Sys2Proof/Machine/Sequencer.lean ====
section
/-! DEFINITION. The entry sequencer (chapter 10): the two contexts, re-evaluation, preparation, the way to the air,
continuation and hand-over, cuts, breaks and local control. `cur` is the current context C, `nxt` the next context. -/

namespace Sys2Proof.Machine

/-! ## Contexts (R168) -/

/-- Places in the order of R168's furthest state; 0 for the states outside it. -/
def SeqState.place : SeqState → Nat
  | .claiming => 1 | .awaitTerminal => 2 | .switching => 3 | .tuning => 4 | .admitting => 5 | .ramping => 6
  | .onAir => 7 | .idle => 0 | .recycling => 0 | .ending => 0 | .localHold => 0

/-- R168: the state changes; the furthest state follows. A refused request is no longer handed again (R175), and no close
of the context waits in the matrix any more (R174). -/
def Ctx.goto (c : Ctx) (st : SeqState) : Ctx :=
  { c with
    state := st, retry := none, closeWaits := false,
    furthest := if ((c.furthest.map SeqState.place).getD 0) < st.place then some st else c.furthest }

def Ctx.key (c : Ctx) : Option OccKey := c.occ.map (·.key)

def Ctx.terminal (c : Ctx) : Option Nat := c.taken.map (·.terminal)

def State.setCur (s : State) (c : Ctx) : State := { s with seq := { s.seq with cur := c } }
def State.setNxt (s : State) (c : Ctx) : State := { s with seq := { s.seq with nxt := c } }

/-- The own HELD terminal. -/
def State.heldTerminal (s : State) : Option Nat := (ownHeld s.map).map (·.1)

/-- R168, R37: the stop instant as a local second and the start instant less 10 s as a local time in ms. -/
def State.convert (s : State) (c : Ctx) : Ctx :=
  match c.occ with
  | none => c
  | some o =>
    match s.localSecondOf o.stop, s.localSecondOf o.start with
    | some stop, some start => { c with stopSec := stop, rampTime := (start - rampLeadSeconds) * 1000 }
    | _, _ => c

/-- R168: early: the present instant is before the occurrence's start instant. -/
def Ctx.early (c : Ctx) (present : Option Nat) : Bool :=
  match c.occ, present with
  | some o, some t => decide ((t : Int) < o.start)
  | _, _ => false

/-- R171, R172: an occurrence that ends without a record: one that has not been on the air, and has not begun to run or is
early again after a step of the clock (DEDUCED, notes/assumptions/45.md). -/
def Ctx.unrecorded (c : Ctx) (present : Option Nat) : Bool := c.onAir.isNone && (! c.running || c.early present)

/-- An occurrence is taken afresh, in CLAIMING; `running` when it is current (R171). -/
def State.freshCtx (s : State) (o : Occurrence) (running : Bool) : Ctx :=
  s.convert ({ Ctx.reset with occ := some o, running := running }.goto .claiming)

/-- C is emptied: its release and spent marks stay with the context. -/
def Ctx.emptied (c : Ctx) (st : SeqState) : Ctx := { Ctx.reset with state := st, release := c.release, spent := c.spent }

/-- R171: an occurrence that was prepared moves into C with its fields; a release in progress in C stays with C, and no
spent mark is left (notes/assumptions/27.md). -/
def Ctx.movedInto (n c : Ctx) : Ctx := { n with running := true, release := c.release, spent := none }

/-! ## Records (R172) -/

/-- Whole seconds off the air, up to now. -/
def Ctx.offAir (c : Ctx) (now : Nat) : Nat :=
  min offAirMax (c.offSecs + match c.offSince with | some t => (now - t) / 1000 | none => 0)

/-- R172: ENTRY-OFF or ENTRY-MISSED, by the on-air mark. -/
def State.writeEnd (s : State) (c : Ctx) (code : EndCode) : State :=
  match c.occ with
  | none => s
  | some o =>
    if c.onAir.isSome then
      s.writeLog (.entryOff o.source o.number code (c.terminal.or c.lastTerm) c.admitted c.trips (c.offAir s.now))
    else s.writeLog (.entryMissed o.source o.number code (c.furthest.getD .claiming))

/-- R172: ENTRY-ON. -/
def State.writeOn (s : State) (c : Ctx) (level lateness : Nat) : State :=
  match c.occ with
  | none => s
  | some o => s.writeLog (.entryOn o.source o.number c.terminal c.admitted level lateness)

/-! ## The claim engine's priority (R173) -/

/-- R173: the engine is taken from the next context: its search is cancelled and deferred. -/
def State.yieldNext (s : State) : State :=
  match s.seq.nxt.key with
  | none => s
  | some k =>
    if s.claim.serving == some k then
      let s1 := s.cancelClaim k
      s1.setNxt { s1.seq.nxt.goto .claiming with taken := none, deferred := true }
    else s

/-- R173: Search for C's occurrence, with its given-up list. -/
def State.searchCur (s : State) : State :=
  match s.seq.cur.occ with
  | none => s
  | some o => s.yieldNext.search o s.seq.cur.givenUp

/-- R101, R173: Resume for C while the engine serves its occurrence, else Search. -/
def State.resumeCur (s : State) : State :=
  if s.claim.serving == s.seq.cur.key then s.resume else s.searchCur

/-- C goes back to the choice of a terminal. After a break the admitted step is kept, and a terminal that is not given up
gets a Ramp-up at that step with no new Admit (DESIGN CHOICE, notes/assumptions/93.md). -/
def State.reclaim (s : State) : State :=
  State.resumeCur (s.setCur { s.seq.cur.goto .claiming with taken := none, closeAgain := false, cap := 100 })

/-- R173: the engine is free of C. -/
def State.engineFree (s : State) : Bool :=
  let c := s.seq.cur
  match c.occ, c.terminal with
  | none, _ => true
  | some _, some t =>
    c.state == .localHold
      || (c.state != .claiming && s.heldTerminal == some t && s.mat.posOf t == some .closed
        && s.mat.driveOf t == .idle)
  | some _, none => c.state == .localHold

/-- R173: a deferred search of the next context is handed once the engine is free of C. -/
def State.tryNextSearch (s : State) : State :=
  match s.seq.nxt.occ with
  | none => s
  | some y =>
    if s.seq.nxt.state == .claiming && s.seq.nxt.deferred && s.engineFree then
      State.search (s.setNxt { s.seq.nxt with deferred := false }) y []
    else s

/-- R173: the next context is emptied, with Cancel for its occurrence. A HELD terminal that a hand-over has kept for it
stays HELD (DESIGN CHOICE, notes/assumptions/81.md). -/
def State.emptyNext (s : State) : State :=
  match s.seq.nxt.key with
  | none => s
  | some k => (s.cancelClaim k).setNxt Ctx.reset

/-! ## Releases (R177) -/

/-- R177 step 2: the context that has taken a terminal by extension or by claim. -/
def State.holderOf (s : State) (t : Nat) : Option Ctx :=
  if s.seq.cur.terminal == some t then some s.seq.cur
  else if s.seq.nxt.terminal == some t then some s.seq.nxt
  else none

/-- R177 step 2: the terminal is handed over; an own BOOKED booking on it gives way to the extended HELD one. -/
def State.handTerminal (s : State) (t : Nat) (c : Ctx) : State :=
  match ownHeld s.map, ownBooked s.map with
  | some (h, b), some (k, _) =>
    if h == t && k == t then (s.extendOwn t .held b.cls (some c.stopSec)).removeOwn t .booked else s
  | _, _ => s

/-- A release of C's terminal starts. -/
def State.startRelease (s : State) (t : Nat) (stage : ReleaseStage) (waitLink : Bool) : State :=
  s.setCur { s.seq.cur with release := some { terminal := t, stage := stage, waitLink := waitLink } }

/-- R171, R177: a Search for C's occurrence that is held behind a withdrawal has given no outcome yet. -/
def State.searchHeld (s : State) : Bool :=
  s.seq.cur.state == .claiming && s.claim.phase == .withdrawing && s.claim.serving == s.seq.cur.key

/-- R177 step 3: what a release in its first stage waits for: the link operation NONE, with no Search of the same event
still to take the terminal (DEDUCED, notes/assumptions/69.md). -/
def State.mayOpen (s : State) (last : Bool) : Bool := s.link.op == .none && last && s.handed.isEmpty && ! s.searchHeld

/-- R171, R177: a release in its first stage ends when its terminal has been taken meanwhile, at once when C holds it
(notes/assumptions/23.md). Otherwise the terminal is opened once the link operation is NONE. `last` says that no other
hand-out waits. -/
def State.advanceRelease (s : State) (last : Bool) : State :=
  match s.seq.cur.release with
  | some { terminal := t, stage := .settle, waitLink := false } =>
    match s.holderOf t with
    | some c =>
      if s.mayOpen last || s.seq.cur.terminal == some t then
        (s.setCur { s.seq.cur with release := none }).handTerminal t c
      else s
    | none => if s.mayOpen last then (s.startRelease t .opening false).openTerminal t else s
  | _ => s

/-- The class of C's occurrence, or the least urgent one without one. -/
def Ctx.cls (c : Ctx) : Nat := (c.occ.map (·.prog.cls)).getD 3

/-- R169, R174, R177: the own HELD booking of a terminal is removed and the terminal freed. The FREE is placed even when the
booking has gone before, then with the class of C's occurrence (DEDUCED, notes/assumptions/70.md). -/
def State.dropHeld (s : State) (t : Nat) : State :=
  match ownHeld s.map with
  | some (h, b) =>
    if h == t then (s.removeOwn t .held).placeFree t b.cls else s.placeFree t s.seq.cur.cls
  | none => s.placeFree t s.seq.cur.cls

/-- R177 step 3, R170: the release is complete; with C IDLE a re-evaluation follows. -/
def State.endRelease (s : State) (t : Nat) : State :=
  let s1 := (s.setCur { s.seq.cur with release := none }).dropHeld t
  if s.seq.cur.state == .idle then s1.emit [.reevaluate false false] else s1

/-! ## Ends and cuts (R177, R178) -/

/-- R178: the operation in flight is stopped according to C's state. -/
def State.stopWork (s : State) : State :=
  let c := s.seq.cur
  let cancel : State := match c.key with
    | some k => s.cancelClaim k
    | none => s
  match c.state with
  | .claiming => cancel
  | .awaitTerminal => cancel
  | .switching => s
  | .tuning => s.rampDown
  | .admitting => s.cancelAdmission.rampDown
  | .ramping => s.rampDown
  | .onAir => s.rampDown
  | .recycling => s.rampDown
  | .ending => s
  | .idle => s
  | .localHold => s

/-- R177 step 1: whether the end of the occurrence is a ramp-down. -/
def State.onCarrier (s : State) : Bool := s.link.op == .rampUp || s.link.op == .steady || s.link.op == .recycle

/-- R177, R178: C's occurrence is stopped: its operation, its admission and its terminal. C is emptied into ENDING
while a ramp-down runs (notes/assumptions/21.md), else into IDLE. `n` is the next context at the end. -/
def State.clearCur (s : State) : State :=
  let c := s.seq.cur
  let st : SeqState := if s.onCarrier || c.state == .ending then .ending else .idle
  let s1 := s.stopWork.releaseAdmission
  let s2 := s1.setCur (c.emptied st)
  match c.terminal with
  | none => s2
  | some t =>
    if s.heldTerminal == some t then
      match s2.holderOf t with
      | some n => s2.handTerminal t n
      | none => s2.startRelease t .settle false
    else s2

/-- R171: X begins: from the next context when it holds X, else with a Search. -/
def State.beginCurrent (s : State) (x : Occurrence) : State :=
  let n := s.seq.nxt
  if n.key == some x.key then
    let s1 := (s.setCur (n.movedInto s.seq.cur)).setNxt Ctx.reset
    if n.state == .claiming && n.deferred then
      (s1.setCur { s1.seq.cur with deferred := false }).searchCur
    else s1
  else
    (s.setCur { s.freshCtx x true with release := s.seq.cur.release }).searchCur

/-- R171: X begins, when there is one. -/
def State.beginIfAny (s : State) (x : Option Occurrence) : State :=
  match x with
  | some o => s.beginCurrent o
  | none => s

/-- R171: X begins, when there is one and it is not C's spent occurrence: the rows of an empty C and of an early one. -/
def State.beginUnspent (s : State) (x : Option Occurrence) : State :=
  if x.any fun o => s.seq.cur.spent == some o.key then s else s.beginIfAny x

/-! ## Continuation (R176) -/

/-- R176: what O and X must have in common, and the states in which O may continue. -/
def Ctx.mayContinue (c : Ctx) (x : Occurrence) : Bool :=
  (c.state == .ramping || c.state == .onAir || c.state == .recycling)
    && (match c.occ with
      | none => false
      | some o =>
        o.prog.freq == x.prog.freq && o.prog.mode == x.prog.mode && o.prog.programme == x.prog.programme
          && o.prog.carrier == x.prog.carrier)

/-- R176: the next context holds X by extension on C's terminal. -/
def State.continues (s : State) (x : Occurrence) : Bool :=
  s.seq.cur.mayContinue x && s.seq.nxt.key == some x.key
    && (match s.seq.nxt.taken with
      | some n => n.how == .extended && s.seq.cur.terminal == some n.terminal && s.heldTerminal == some n.terminal
      | none => false)

/-- R161, R175: Admit for C's occurrence with its step cap. -/
def State.admitCur (s : State) : State :=
  match s.seq.cur.occ, s.seq.cur.terminal with
  | some o, some t =>
    s.requestStep { occ := o.key, terminal := t, carrier := o.prog.carrier, mode := o.prog.mode, cls := o.prog.cls } s.seq.cur.cap
  | _, _ => s

/-- R176: the record that closes O at a continuation: COMPLETED, by its on-air mark (notes/assumptions/24.md). In
RECYCLING the time since which X is off the air is the present one (DESIGN CHOICE, notes/assumptions/80.md). -/
def State.continueInto (s : State) : State :=
  let c := s.seq.cur
  let n := s.seq.nxt
  let s1 := s.writeEnd c .completed
  let moved : Ctx :=
    { (n.movedInto c).goto c.state with
      admitted := c.admitted, trips := c.trips, onAir := some 0, offSecs := 0,
      offSince := c.offSince.map fun _ => s.now, former := none, heldStep := false, stands := c.stands,
      retry := c.retry, lastTerm := c.terminal }
  let s2 := (s1.setCur moved).setNxt Ctx.reset
  let s3 := s2.writeOn moved s2.link.level 0
  match c.admitted with
  | none => s3
  | some a =>
    if a < moved.cap then
      State.admitCur (s3.setCur { moved.goto .admitting with former := some c.state })
    else if moved.cap < a then
      ((s3.setCur { moved with admitted := some moved.cap }).lowerTo moved.cap).stepDown moved.cap
    else s3

/-- The end of the running occurrence that waits on the outcome of a Search (R176). -/
def State.setEnding (s : State) (e : Option Ending) : State := { s with seq := { s.seq with ending := e } }

/-- R171, R176, R177: the running occurrence ends: it continues into X, or it is closed and X begins, be it a spent one
(DEDUCED, notes/assumptions/27.md). -/
def State.finishCurrent (s : State) (code : EndCode) (x : Option Occurrence) : State :=
  let s1 := s.setEnding none
  match x with
  | some o =>
    if s1.continues o then s1.continueInto
    else (s1.writeEnd s1.seq.cur code).clearCur.beginIfAny x
  | none => (s1.writeEnd s1.seq.cur code).clearCur

/-- R176: X is searched for before O ends, when only the outcome of that Search can tell whether O continues. -/
def State.searchFirst (s : State) (x : Occurrence) : Bool :=
  s.seq.cur.mayContinue x && ! (s.seq.nxt.key == some x.key && s.seq.nxt.taken.isSome)

/-- R176: the engine has a claim for X in hand, whose outcome is that of the Search for X. -/
def State.searchUnderWay (s : State) (x : Occurrence) : Bool :=
  s.claim.serving == some x.key
    && (s.claim.phase == .placed || s.claim.phase == .window || s.claim.phase == .withdrawing)

/-- R176: Search(X) is handed, with X in the next context, and O's end waits on its outcome (DEDUCED,
notes/assumptions/22.md). A Search that stops in WAIT-JOIN hands none until JOINED, and O stays on the air until then
(DESIGN CHOICE, notes/assumptions/79.md). -/
def State.awaitSearch (s : State) (code : EndCode) (k : OccKey) (x : Occurrence) : State :=
  let s1 := if s.seq.nxt.key == some x.key then s else s.emptyNext.setNxt (s.freshCtx x false)
  let s2 := (s1.setNxt { s1.seq.nxt with deferred := false }).setEnding (some { code := code, occ := k, next := x })
  if s2.searchUnderWay x then s2 else s2.search x []

/-- R171: a running occurrence other than X ends. An end that waits on the Search for X already goes on waiting. -/
def State.endCurrent (s : State) (code : EndCode) (x : Option Occurrence) : State :=
  match x, s.seq.cur.key with
  | some o, some k =>
    if s.searchFirst o then
      if s.seq.ending.any (fun e => e.occ == k && e.next.key == o.key) then s else s.awaitSearch code k o
    else s.finishCurrent code x
  | _, _ => s.finishCurrent code x

/-- R176: the end that waited is made. What the next context then prepares is settled after it (R173). Where O has ended by
LINK-LOST or LOCAL meanwhile, the end that waited falls away, and X begins at the next re-evaluation (DESIGN CHOICE,
notes/assumptions/101.md). -/
def State.makeEnd (s : State) (e : Ending) : State :=
  (if s.seq.cur.key == some e.occ then s.finishCurrent e.code (some e.next) else s.setEnding none).emit [.prepareNext]

/-- R176: the outcome of a Search has been taken: an end that waited on it is made. -/
def State.endOn (s : State) (k : OccKey) : State :=
  match s.seq.ending with
  | some e => if e.next.key == k then s.makeEnd e else s
  | none => s

/-- R176: an end waits no longer once C cannot continue into X any more. -/
def State.advanceEnding (s : State) : State :=
  match s.seq.ending with
  | some e => if s.seq.cur.key == some e.occ && s.seq.cur.mayContinue e.next then s else s.makeEnd e
  | none => s

/-! ## Re-evaluation (R170, R171, R173) -/

/-- R171: the end code of a running occurrence at a re-evaluation. -/
def State.endCode (s : State) (o : Occurrence) (boundary : Bool) : EndCode :=
  match s.instant with
  | some t => if boundary && decide (o.stop ≤ (t : Int)) then .completed else .cut
  | none => .cut

/-- R171: the current context against X and Y. An occurrence that has not begun to run stands in the rows of an early one
whatever its start (notes/assumptions/29.md). -/
def State.compareCurrent (s : State) (boundary : Bool) : State :=
  let c := s.seq.cur
  let x := s.currentEntry
  let xk := x.map (·.key)
  match c.occ with
  | none =>
    match x with
    | none => s.setCur { c with spent := none }
    | some _ => s.beginUnspent x
  | some o =>
    if xk == some o.key then (s.setCur { c with running := true }).setEnding none
    else if ! c.running || c.early s.instant then
      if (x.isNone || xk == c.spent) && (s.nextEntry.map (·.key)) == some o.key then s
      else ((if c.unrecorded s.instant then s else s.writeEnd c .cut).setEnding none).clearCur.beginUnspent x
    else s.endCurrent (s.endCode o boundary) x

/-- R170: after a STEP setting the own bookings take the new stop seconds. -/
def State.extendAll (s : State) : State :=
  let c := s.seq.cur
  let n := s.seq.nxt
  let booked := (ownBooked s.map).map (·.1)
  let s1 := match ownHeld s.map with
    | some (t, b) =>
      if n.terminal == some t && booked != some t then s.extendOwn t .held b.cls (some n.stopSec)
      else if c.terminal == some t then s.extendOwn t .held b.cls (some c.stopSec)
      else s
    | none => s
  match ownBooked s1.map with
  | some (t, b) =>
    if n.terminal == some t then s1.extendOwn t .booked b.cls (some n.stopSec)
    else if c.terminal == some t then s1.extendOwn t .booked b.cls (some c.stopSec)
    else s1
  | none => s1

/-- R170: the stop second and ramp time of both contexts are converted afresh. -/
def State.reconvert (s : State) : State :=
  let s1 : State := { s with seq := { s.seq with cur := s.convert s.seq.cur, nxt := s.convert s.seq.nxt } }
  s1.extendAll

/-- R170, R171: a re-evaluation of an armed sequencer; the next context is looked at once C has been settled. -/
def State.evaluate (s : State) (boundary step : Bool) : State :=
  let s1 := if step then s.reconvert else s
  (if s1.seq.cur.state == .localHold then s1 else s1.compareCurrent boundary).emit [.prepareNext]

/-- R169: armed once JOINED has been reached and the clock is set; a re-evaluation follows at once. -/
def State.arm (s : State) : State :=
  let found := match ownHeld s.map with
    | some (_, b) => b.found
    | none => false
  State.evaluate { s with seq := { s.seq with armed := true, foundOffer := found } } false false

/-- R169, R170: a re-evaluation; unarmed, the sequencer takes it when it arms it and else without effect. -/
def State.reevaluate (s : State) (boundary step : Bool) : State :=
  if s.seq.armed then s.evaluate boundary step
  else if s.seq.joinedOnce && s.clockSet then s.arm
  else s

/-- R173: the next context against Y. While an end waits on the Search for X, the next context holds X (R176). -/
def State.prepareNext (s : State) : State :=
  if s.seq.ending.isSome then s else
  let y := s.nextEntry
  let yk := y.map (·.key)
  let s1 := if yk.isNone || s.seq.cur.key == yk || s.seq.nxt.key != yk then s.emptyNext else s
  let s2 := match y with
    | none => s1
    | some o =>
      if s1.seq.cur.key == yk || s1.seq.nxt.key == yk then s1
      else if s1.seq.cur.state == .idle then
        (s1.setCur { s1.freshCtx o false with release := s1.seq.cur.release, spent := s1.seq.cur.spent }).searchCur
      else s1.setNxt { s1.freshCtx o false with deferred := true }
  if s2.seq.foundOffer && s2.seq.cur.occ.isNone then s2.emit [.foundTest] else s2

/-- R169: the found-closed holding is released unless a context has taken its terminal. -/
def State.takeFoundTest (s : State) : State :=
  let s1 : State := { s with seq := { s.seq with foundOffer := false } }
  match s.seq.foundOffer, s.heldTerminal with
  | true, some t =>
    if (s1.holderOf t).isSome || s1.seq.cur.release.isSome then s1 else s1.startRelease t .settle false
  | _, _ => s1

/-- R169: the outcome of a Search handed to C at the re-evaluation that armed the sequencer has arrived. -/
def State.offerEnds (s : State) : State := if s.seq.foundOffer then s.emit [.foundTest] else s

/-! ## Outcomes of the claim engine (R173, R174, R179) -/

/-- The step cap of a terminal: 50 while it is suspect (R168). -/
def capOf (suspect : Bool) : Nat := if suspect then 50 else 100

/-- R173: BOOKED. -/
def State.seqBooked (s : State) (k : OccKey) (t : Nat) (how : HowTaken) (suspect : Bool) : State :=
  let taken : Taken := { terminal := t, how := how, suspect := suspect }
  let take (c : Ctx) : Ctx :=
    { c.goto .awaitTerminal with taken := some taken, cap := capOf suspect, lastTerm := some t, deferred := false }
  if s.seq.cur.key == some k then
    if s.seq.cur.state == .claiming then (s.setCur (take s.seq.cur)).offerEnds else s
  else if s.seq.nxt.key == some k then s.setNxt (take s.seq.nxt)
  else s

/-- R179: C's occurrence ends without a terminal, with a code, and C becomes IDLE with a spent mark; an early one gets no
record. -/
def State.endSearch (s : State) (code : EndCode) (spent : Option OccKey) : State :=
  let c := s.seq.cur
  State.offerEnds
    ((if c.unrecorded s.instant then s else s.writeEnd c code).releaseAdmission.setCur { c.emptied .idle with spent := spent })

/-- R173, R179: EXHAUSTED ends C's occurrence LOST and spent, and empties the next context. -/
def State.seqExhausted (s : State) (k : OccKey) : State :=
  if s.seq.cur.key == some k then s.endSearch .lost (some k)
  else if s.seq.nxt.key == some k then s.setNxt Ctx.reset
  else s

/-- R171, R179: the code of an end by EXPIRED: COMPLETED once the stop second has come, else CUT, as after a STEP back
(DESIGN CHOICE, notes/assumptions/94.md). -/
def State.expiredCode (s : State) : EndCode :=
  if s.seq.cur.stopSec ≤ (s.localSecond : Int) then .completed else .cut

/-- R173, R179: EXPIRED ends C's occurrence at once, spent by nothing (DESIGN CHOICE, notes/assumptions/94.md), and empties
the next context. -/
def State.seqExpired (s : State) (k : OccKey) : State :=
  if s.seq.cur.key == some k then s.endSearch s.expiredCode s.seq.cur.spent
  else if s.seq.nxt.key == some k then s.setNxt Ctx.reset
  else s

/-- R173: WAITING and REFUSED keep the context in CLAIMING. -/
def State.seqWaiting (s : State) (k : OccKey) : State := if s.seq.cur.key == some k then s.offerEnds else s

/-- R173, R174: LOST-BOOKING. -/
def State.seqLost (s : State) (t : Nat) (k : OccKey) : State :=
  if s.seq.cur.key == some k then
    if s.seq.cur.terminal == some t && s.seq.cur.state == .awaitTerminal then s.reclaim else s
  else if s.seq.nxt.key == some k then
    let s1 := s.setNxt { s.seq.nxt.goto .claiming with taken := none, cap := 100, deferred := s.claim.serving != some k }
    if s.claim.serving == some k then s1.resume else s1
  else s

/-! ## Switching (R174) -/

/-- R174: after WAITING nothing is handed while the close of the terminal is pending or its drive has not come to an end, the
reversal that follows ABANDONED among it, nor before the notice of that end has been taken (`last`: no hand-out waits). -/
def State.closeOut (s : State) (t : Nat) (last : Bool) : Bool :=
  s.seq.cur.closeWaits
    && ((s.mat.pendingClose.map (·.terminal)) == some t || s.mat.driveOf t != .idle || ! (last && s.handed.isEmpty))

/-- R174: whether C waits in AWAIT-TERMINAL: for a release, for another held terminal, or, after WAITING, for the end of its
own close. A release of the own terminal is not waited for, whatever its stage (notes/assumptions/23.md), nor is a close that
was handed for another occurrence: Close is then handed, and BUSY. -/
def State.awaitHeld (s : State) (t : Nat) (last : Bool) : Bool :=
  (match s.seq.cur.release with
    | some r => r.terminal != t
    | none => false)
  || (match s.heldTerminal with
    | some h => h != t
    | none => false)
  || s.closeOut t last

/-- R174: Close for C's terminal; C is SWITCHING. -/
def State.closeCur (s : State) (t : Nat) : State :=
  State.close (s.setCur { s.seq.cur.goto .switching with closeAgain := false, brk := none }) t (some s.seq.cur.stopSec)

/-- R174: Promote, unless the terminal is held already, and Close. A refused Promote is taken as LOST-BOOKING. -/
def State.advanceAwait (s : State) (last : Bool) : State :=
  match s.seq.cur.occ, s.seq.cur.terminal with
  | some _, some t =>
    if s.seq.cur.state != .awaitTerminal || s.awaitHeld t last then s
    else if s.heldTerminal == some t then s.closeCur t
    else match s.promote t with
      | (s1, true) => s1.closeCur t
      | (_, false) => s.reclaim
  | _, _ => s

/-- R175: Tune for C's occurrence on its terminal. -/
def State.tuneCur (s : State) : State :=
  match s.seq.cur.occ, s.seq.cur.terminal with
  | some o, some t =>
    State.tune (s.setCur (s.seq.cur.goto .tuning)) o.key t o.prog.freq o.prog.mode o.prog.programme
  | _, _ => s

/-- R174: C waits for a close of the terminal. -/
def State.switchingOn (s : State) (t : Nat) : Bool :=
  s.seq.cur.occ.isSome && s.seq.cur.terminal == some t
    && (s.seq.cur.state == .switching || s.seq.cur.state == .awaitTerminal)

/-- R174: a Close that was refused BUSY is handed again at the next notice of the matrix interface. -/
def State.closeAgain (s : State) : State :=
  match s.seq.cur.terminal with
  | some t => if s.seq.cur.closeAgain && s.seq.cur.state == .switching then s.closeCur t else s
  | none => s

/-- R174: CLOSED. -/
def State.seqClosed (s : State) (t : Nat) : State :=
  if s.switchingOn t then s.tuneCur else s.closeAgain

/-- R174: NOT-HELD, and OPENED marked reversal: the booking is given back and the search goes on. -/
def State.closeFailed (s : State) (t : Nat) : State :=
  if s.switchingOn t then (s.dropHeld t).reclaim else s.closeAgain

/-- Whether C's release is in a stage on the terminal. -/
def State.releaseAt (s : State) (t : Nat) (stage : ReleaseStage) : Bool :=
  match s.seq.cur.release with
  | some r => r.terminal == t && r.stage == stage
  | none => false

/-- R177, R174: OPENED. -/
def State.seqOpened (s : State) (t : Nat) (reversal : Bool) : State :=
  if s.releaseAt t .opening then (s.endRelease t).closeAgain
  else if reversal then s.closeFailed t
  else s.closeAgain

/-- R174: WAITING: C returns to AWAIT-TERMINAL, with the close pending in the matrix. -/
def State.seqMxWaiting (s : State) (t : Nat) : State :=
  if s.switchingOn t then s.setCur { s.seq.cur.goto .awaitTerminal with closeWaits := true } else s.closeAgain

/-- R174: BUSY: the Close is handed again at the next notice. -/
def State.seqBusy (s : State) (t : Nat) : State :=
  if s.switchingOn t then s.setCur { s.seq.cur with closeAgain := true } else s

/-- R179: the terminal is given up. -/
def State.giveUp (s : State) (t : Nat) (cause : FaultCause) (stage : ReleaseStage) : State :=
  let c := s.seq.cur
  match c.occ with
  | none => s
  | some o =>
    let s1 := (s.writeLog (.terminalFault o.source o.number t cause)).releaseAdmission
    let c1 : Ctx :=
      { c with
        givenUp := c.givenUp ++ [t], offSince := if c.onAir.isSome then c.offSince.or (some s.now) else none,
        lastTerm := some t, stands := false, heldStep := false, former := none, brk := none }
    let s2 := (s1.setCur c1).startRelease t stage false
    let s3 := if s2.claim.serving == some o.key then s2.exhaust t else s2
    s3.reclaim

/-- R131, R174, R177, R169: JAMMED: of a release's Open, of the close, or of the RELEASE drive of the release mark. -/
def State.seqJammed (s : State) (t : Nat) : State :=
  if s.releaseAt t .opening then (s.startRelease t .clearing false).closeAgain
  else if s.switchingOn t then s.giveUp t .jammed .clearing
  else if s.mat.releaseMark == some t && s.seq.cur.release.isNone then
    (s.startRelease t .clearing false).closeAgain
  else s.closeAgain

/-- R177: CLEARED. -/
def State.seqCleared (s : State) (t : Nat) (p : Position) : State :=
  if s.releaseAt t .clearing then
    match p with
    | .opened => s.endRelease t
    | .closed => (s.startRelease t .opening false).openTerminal t
    | .between => s
  else s

/-- R174: MOVED. -/
def State.seqMoved (s : State) (t : Nat) : State :=
  if s.seq.cur.occ.isSome && s.seq.cur.terminal == some t && s.seq.cur.state == .tuning && s.link.op == .none then
    s.closeCur t
  else s

/-! ## The way to the air (R175) -/

/-- R175: the occurrence goes off the air. -/
def Ctx.goOff (c : Ctx) (now : Nat) : Ctx :=
  if c.onAir.isSome then { c with offSince := c.offSince.or (some now) } else c

/-- R175, R180: the step of a Ramp-up after a break: the admitted step, no higher than what the power share unit still
holds (notes/assumptions/44.md). -/
def State.heldStepOf (s : State) (a : Nat) : Nat := min a (s.psu.admitted.getD a)

/-- R175, R180: on TUNED: Ramp-up at a step that stands, Admit once the ramp time has passed, or waiting for it. -/
def State.onTuned (s : State) : State :=
  let c := { s.seq.cur with brk := none, retry := none }
  match c.heldStep, c.admitted, c.occ with
  | true, some a, some o =>
    State.rampUp (s.setCur ({ c with heldStep := false }.goto .ramping)) o.prog.carrier (s.heldStepOf a)
  | _, _, _ =>
    if c.rampTime ≤ (s.now : Int) then State.admitCur (s.setCur { c.goto .admitting with former := none })
    else s.setCur c

/-- R175: TUNED. -/
def State.seqTuned (s : State) (t : Option Nat) : State :=
  if s.seq.cur.state == .tuning && s.seq.cur.occ.isSome && s.seq.cur.terminal == t then s.onTuned else s

/-- R175: the ramp time, with the transmitter tuned. -/
def State.rampTimeComes (s : State) : State :=
  if s.seq.cur.state == .tuning && s.link.op == .tuned && s.seq.cur.terminal == s.link.opTerminal
      && ! s.seq.cur.heldStep && decide (s.seq.cur.rampTime ≤ (s.now : Int)) then s.onTuned
  else s

/-- R175, R176: ADMITTED. At a continuation the admitted step itself returns C to its former state, with nothing handed
(DESIGN CHOICE, notes/assumptions/92.md). -/
def State.seqAdmitted (s : State) (step : Nat) : State :=
  let c := s.seq.cur
  match c.state, c.occ with
  | .admitting, some o =>
    let c1 : Ctx := { c with admitted := some step, stands := true, former := none }
    match c.former, c.admitted with
    | some f, some a =>
      if a < step then State.rampUp (s.setCur (c1.goto .ramping)) o.prog.carrier step
      else if step < a then State.stepDown (s.setCur (c1.goto (if f == .recycling then .recycling else .ramping))) step
      else s.setCur (c1.goto f)
    | _, _ => State.rampUp (s.setCur (c1.goto .ramping)) o.prog.carrier step
  | _, _ => s

/-- R176: WAITING at a continuation is answered with Cancel. -/
def State.seqPwWaiting (s : State) : State :=
  match s.seq.cur.state, s.seq.cur.former with
  | .admitting, some f => (s.setCur { s.seq.cur.goto f with former := none }).cancelAdmission
  | _, _ => s

/-- R175: lateness: the present UTC second less 60 times the start instant, at least 0. -/
def State.lateness (s : State) (o : Occurrence) : Nat := ((s.utc.getD 0 : Int) - 60 * o.start).toNat

/-- R175: RAMPED. -/
def State.seqRamped (s : State) (level : Nat) : State :=
  let c := s.seq.cur
  match c.occ with
  | none => s
  | some o =>
    let onAir := c.state == .ramping || c.state == .recycling || c.state == .onAir
    let admitting := c.state == .admitting && c.former.isSome
    if ! (onAir || admitting) then s
    else
      let c1 : Ctx := { c with offSecs := c.offAir s.now, offSince := none, retry := none }
      let c2 : Ctx := if admitting then { c1 with former := some .onAir } else c1.goto .onAir
      if c.onAir.isSome then s.setCur c2
      else (s.setCur { c2 with onAir := some (s.lateness o) }).writeOn c level (s.lateness o)

/-- R175: the step cap follows CAPPED and the suspect notices. -/
def Ctx.capAt (c : Ctx) (t : Option Nat) (suspect : Bool) : Ctx :=
  if c.taken.isSome && c.terminal == t then
    { c with cap := capOf suspect, taken := c.taken.map fun k => { k with suspect := suspect } }
  else c

def State.seqSuspect (s : State) (t : Nat) (on : Bool) : State :=
  { s with seq := { s.seq with cur := s.seq.cur.capAt (some t) on, nxt := s.seq.nxt.capAt (some t) on } }

/-- R175: CAPPED. -/
def State.seqCapped (s : State) : State := s.setCur (s.seq.cur.capAt s.seq.cur.terminal true)

/-- R175: a refused Tune or Ramp-up is handed again 1 000 ms later. -/
def State.seqTxRefused (s : State) (kind : RetryKind) : State :=
  if (kind == .tune && s.seq.cur.state == .tuning) || (kind == .rampUp && s.seq.cur.state == .ramping) then
    s.setCur { s.seq.cur with retry := some { kind := kind, due := s.now + sequencerRetryMs } }
  else s

/-- R175: the request is handed again. -/
def State.retryNow (s : State) : State :=
  let c := s.seq.cur
  match c.retry, c.occ, c.admitted with
  | some { kind := .tune, due := _ }, _, _ =>
    if c.state == .tuning then State.tuneCur (s.setCur { c with retry := none }) else s
  | some { kind := .rampUp, due := _ }, some o, some a =>
    if c.state == .ramping then State.rampUp (s.setCur { c with retry := none }) o.prog.carrier (s.heldStepOf a) else s
  | _, _, _ => s

/-- R175: an outcome of the link ends the handing again of a request. -/
def State.noRetry (s : State) : State := s.setCur { s.seq.cur with retry := none }

/-! ## Faults and breaks (R179, R180) -/

/-- R179: TRIP. The time since which the occurrence has been off the air becomes the present one, in a recycle ramp too. -/
def State.seqTrip (s : State) (number : Nat) (action : TripAction) (step : Nat) : State :=
  let c := { s.seq.cur with trips := number }
  match c.occ with
  | none => s
  | some _ =>
    match action with
    | .exhausted => s.setCur c
    | _ =>
      let s1 := if c.state == .admitting then s.cancelAdmission else s
      let c1 := { c with former := none, offSince := if c.onAir.isSome then some s.now else c.offSince }.goto .recycling
      s1.setCur (if action == .stepLower then { c1 with admitted := some step } else c1)

/-- R179: TRIP-EXHAUSTED and TUNE-FAILED give the terminal up. -/
def State.seqGiveUp (s : State) (t : Option Nat) (cause : FaultCause) : State :=
  match t with
  | some u => if s.seq.cur.terminal == some u then s.giveUp u cause .settle else s
  | none => s

/-- R180: the states of C in which a break acts. -/
def Ctx.breakable (c : Ctx) : Bool :=
  c.occ.isSome
    && (c.state == .tuning || c.state == .admitting || c.state == .ramping || c.state == .onAir || c.state == .recycling)

/-- R180: C returns to TUNING with its admitted step kept, and waits for the end of the break. -/
def Ctx.broken (c : Ctx) (k : Break) (now : Nat) : Ctx :=
  { (c.goOff now).goto .tuning with brk := some k, heldStep := c.stands, former := none }

/-- R180: LINK-LOST. -/
def State.seqLinkLost (s : State) : State :=
  let c := s.seq.cur
  if c.breakable then
    if c.onAir.isSome then
      let s1 := (s.writeEnd c .lost).releaseAdmission
      let s2 := s1.setCur { c.emptied .idle with spent := c.key }
      match c.terminal with
      | some t => s2.startRelease t .settle true
      | none => s2
    else s.setCur (c.broken (if c.brk == some .permitMove then .permitMove else .link) s.now)
  else s

/-- R180, R170: LINK-BACK: a held release goes on, and an occurrence in TUNING hands Tune again; a break by an own move
still waits for SETTLED. -/
def State.seqLinkBack (s : State) : State :=
  let c : Ctx :=
    { s.seq.cur with
      release := s.seq.cur.release.map fun r => { r with waitLink := false },
      brk := if s.seq.cur.brk == some .link then none else s.seq.cur.brk }
  let s1 := s.setCur c
  (if c.state == .tuning then s1.tuneCur else s1).emit [.reevaluate false false]

/-- R180: PERMIT-LOST and TX-FAULT. -/
def State.seqBreak (s : State) (k : Break) : State :=
  if s.seq.cur.breakable then s.setCur (s.seq.cur.broken k s.now) else s

/-- R180: the way back after a break: Tune with the crosspoint still CLOSED, else Close. -/
def State.returnToTune (s : State) : State :=
  match s.seq.cur.terminal with
  | some t =>
    let s1 := s.setCur { s.seq.cur with brk := none }
    if s.mat.posOf t == some .closed then s1.tuneCur else s1.closeCur t
  | none => s

/-- R180: TX-CLEAR: Tune is handed again, unless a tune runs already or SETTLED is waited for. -/
def State.seqTxClear (s : State) : State :=
  match s.seq.cur.brk with
  | some .txFault => if s.seq.cur.breakable then s.returnToTune else s
  | none => if s.seq.cur.state == .tuning && s.link.op != .tuning && s.link.op != .tuned then s.tuneCur else s
  | _ => s

/-- R180: DETUNED: Tune is handed again. -/
def State.seqDetuned (s : State) : State :=
  if s.seq.cur.breakable then
    State.tuneCur (s.setCur { s.seq.cur.goto .tuning with heldStep := s.seq.cur.stands, former := none })
  else s

/-- 10.11: a Tune that was refused is handed again at SETTLED itself, unless a break stands (DEDUCED,
notes/assumptions/23.md). -/
def Ctx.tunesAtSettled (c : Ctx) : Bool :=
  c.state == .tuning && c.brk.isNone && c.retry.any fun r => r.kind == .tune

/-- R180, R177: SETTLED: a break by PERMIT-LOST ends, and an emptied C that was ENDING becomes IDLE. -/
def State.seqSettled (s : State) : State :=
  let c := s.seq.cur
  if c.state == .ending && c.occ.isNone then s.setCur (c.goto .idle)
  else if c.breakable then
    match c.brk with
    | some .permitMove =>
      if s.link.faultCode != 0 then s.setCur { c with brk := some .txFault }
      else match c.terminal with
        | some t => s.closeCur t
        | none => s
    | some .permitOther => if s.link.faultCode != 0 then s.setCur { c with brk := some .txFault } else s.returnToTune
    | _ => s
  else s

/-- R175, R177, R180: SETTLED ends the handing again of a request; a refused Tune is handed at once. -/
def State.takeSettled (s : State) : State :=
  if s.seq.cur.tunesAtSettled then s.noRetry.tuneCur else s.noRetry.seqSettled

/-! ## Local control and the join state (R181, R169, R182) -/

/-- R181: LOCAL. An early occurrence is dropped without record (notes/assumptions/26.md). -/
def State.seqLocal (s : State) : State :=
  let c : Ctx := s.seq.cur
  if ! s.seq.armed then s
  else
    let s1 := match c.key with
      | some k => if c.state == SeqState.claiming || c.state == SeqState.awaitTerminal then s.cancelClaim k else s
      | none => s
    let s2 := if c.unrecorded s.instant then s1 else s1.writeEnd c .local_
    s2.setCur { c.emptied .localHold with spent := if c.occ.isSome && ! c.unrecorded s.instant then c.key else c.spent }

/-- R181, R170: REMOTE. -/
def State.seqRemote (s : State) : State :=
  if s.seq.cur.state == .localHold then
    (s.setCur (s.seq.cur.goto .idle)).emit [.reevaluate false false, .releaseKept]
  else s.emit [.reevaluate false false]

/-- R181: the terminal kept through LOCAL-HOLD is released unless a context holds it. -/
def State.takeReleaseKept (s : State) : State :=
  match s.heldTerminal with
  | some t =>
    if (s.holderOf t).isSome || s.seq.cur.release.isSome then s else s.startRelease t .settle false
  | none => s

/-- R168, R169, R182: the join-state notice. -/
def State.seqJoin (s : State) (new : JoinState) : State :=
  match new with
  | .disabled => { s with seq := { s.seq with cur := Ctx.reset, nxt := Ctx.reset, ending := none } }
  | .joined => State.emit { s with seq := { s.seq with joinedOnce := true } } [.reevaluate false false]
  | _ => s

/-- R169: RELEASED is taken at once. -/
def State.seqReleased (s : State) (t : Nat) : State := s.dropHeld t

/-- What the sequencer does once a hand-out has been taken: an end that waits no longer is made, a release whose carrier
has settled goes on, C's switching begins when nothing holds it back, and a deferred search is handed. `last` says that
no other hand-out waits. -/
def State.advance (s : State) (last : Bool) : State :=
  ((s.advanceEnding.advanceRelease last).advanceAwait last).tryNextSearch

end Sys2Proof.Machine
end

