-- ==== Sys2Proof/Machine/Clock.lean ====
section
/-! DEFINITION. The station clock (chapter 2): the checks and the taking of TIME frames, minute boundaries, holdover and
the end of the calendar's range. -/

namespace Sys2Proof.Machine

/-- The seven fields of a TIME payload (R48). -/
structure TimeFields where
  year   : Nat
  month  : Nat
  day    : Nat
  hour   : Nat
  minute : Nat
  second : Nat
  deriving DecidableEq, Repr

def timeFields (p : List Byte) : TimeFields :=
  { year := wordAt p 1, month := byteAt p 3, day := byteAt p 4, hour := byteAt p 5, minute := byteAt p 6,
    second := byteAt p 7 }

/-- R28: a TIME frame's fields are valid; a second of 60 is. -/
def TimeFields.valid (t : TimeFields) : Bool :=
  validDate t.year t.month t.day && decide (t.hour ≤ 23) && decide (t.minute ≤ 59) && decide (t.second ≤ 60)

/-- R28: the UTC second the frame names, a second of 60 held as 59. -/
def TimeFields.utc (t : TimeFields) : Nat := utcSecondOf t.year t.month t.day t.hour t.minute (min t.second 59)

/-- R29 step 1: the classes of a setting; STEP carries P. -/
inductive Setting where
  | first
  | step (old : Nat)
  | small
  deriving DecidableEq, Repr

/-- R29 step 1. -/
def Clock.classify (c : Clock) (f t0 : Nat) : Setting :=
  match c.utcAt t0 with
  | none => .first
  | some p => if f > p + stepSeconds || p > f + stepSeconds then .step p else .small

/-- R29 steps 2 to 4. -/
def Clock.setTo (c : Clock) (f t0 : Nat) : Clock :=
  { c with state := .locked, refUtc := some f, refLocal := some t0, lastTime := some t0 }

/-- R31: a minute boundary for a minute later than the last announced one: the store makes its changes before the
sequencer re-evaluates. -/
def State.raiseBoundary (s : State) (m : Nat) : State :=
  State.storeMinute
    (State.emit { s with clock := { s.clock with lastMinute := some m }, stampMinute := some m } [.reevaluate true false]) m

/-- R31: the boundary for the present instant, when it is later than the last announced minute and lies in the
calendar's range (R33). -/
def State.boundaryIfDue (s : State) : State :=
  match s.instant, s.clock.lastMinute with
  | some m, some last => if last < m && m ≤ maxInstant then s.raiseBoundary m else s
  | some m, none => if m ≤ maxInstant then s.raiseBoundary m else s
  | none, _ => s

/-- R24, R30: the removal of an extra at a clock setting is told to the sequencer, at a FIRST one as at a STEP (DEDUCED,
notes/assumptions/82.md). -/
def State.noticeRemoval (s : State) (before : List (Option Extra)) : State :=
  if s.store.extras != before then s.emit [.storeNotice .extrasRemoved] else s

/-- R30: a FIRST or STEP setting: the TIMESTEP record, stamped with the new time (R40), then the notices to the store
and to the sequencer. -/
def State.stepSetting (s : State) (f : Nat) (step : Bool) (old : Nat) (diff : Int) : State :=
  let s1 := s.writeLogAt f false (.timeStep step old diff)
  State.noticeRemoval
    (State.storeMinute
      (State.emit { s1 with clock := { s1.clock with lastMinute := some (f / 60) } } [.reevaluate false step]) (f / 60))
    s.store.extras

/-- R29 to R31: a valid TIME frame that names the UTC second `f` and started at local time `t0`. A SMALL setting makes the
test of R19 only where it raises a boundary (DESIGN CHOICE, notes/assumptions/57.md). -/
def State.setClock (s : State) (f t0 : Nat) : State :=
  let s1 : State := { s with clock := s.clock.setTo f t0 }
  match s.clock.classify f t0 with
  | .first => s1.stepSetting f false (t0 / 1000) 0
  | .step p => s1.stepSetting f true p ((f : Int) - p)
  | .small => s1.boundaryIfDue

/-- R28, R29: a TIME frame handed to the clock. -/
def State.takeTime (s : State) (f : RxFrame) : State :=
  let t := timeFields f.payload
  if t.valid then s.setClock t.utc f.start else s

/-- R32: whether the holdover time has come. -/
def State.holdoverDue (s : State) : Bool :=
  s.clock.state == .locked && s.reached (s.clock.lastTime.map (· + holdoverMs))

/-- R32. -/
def State.enterHoldover (s : State) : State := { s with clock := { s.clock with state := .holdover } }

/-- R33: whether the present UTC second has passed 2099-12-31 23:59:59. -/
def State.rangeEnded (s : State) : Bool :=
  match s.utc with
  | some u => decide (maxUtc < u)
  | none => false

/-- R33: the clock becomes UNSET, and the sequencer is handed a clock-setting notice. -/
def State.endRange (s : State) : State := State.emit { s with clock := Clock.reset } [.reevaluate false false]

end Sys2Proof.Machine
end

