-- ==== Sys2Proof/Machine/Handout.lean ====
section
/-! DEFINITION. What each block does with a hand-out from another, and the order in which hand-outs are taken: a
hand-out is taken whole, with those it gives rise to, before the next one (notes/assumptions/3.md). -/

namespace Sys2Proof.Machine

/-! ## Join-state notices (R66 step 2) -/

/-- R135: on entry to LEARNING the tidy test takes effect. -/
def State.matrixJoin (s : State) (new : JoinState) : State := if new == .learning then s.tidy else s

/-- R139: DISABLED keeps no loss deadline and sends no record: the output queue is emptied, a record being sent among the
rest (DEDUCED, notes/assumptions/11.md). -/
def State.linkJoin (s : State) (new : JoinState) : State :=
  if new == .disabled then { s with link := { s.link with lossDeadline := none, out := [] } } else s

/-- R162, R166: a unit in WAIT chooses again at each change of join state; in DISABLED it stops where it stands. -/
def State.powerJoin (s : State) (new : JoinState) : State := if new == .disabled then s else s.chooseIfWaiting

/-- R66 step 2, with R189 for the request queue. -/
def State.takeJoin (s : State) (new : JoinState) : State :=
  ((((s.claimJoin new).powerJoin new).seqJoin new).matrixJoin new |>.linkJoin new).discardDisabled

/-! ## Received frames (R61) -/

/-- R61: a frame handed to the blocks that take its kind. -/
def State.takeFrame (s : State) (kind : FrameKind) (f : RxFrame) : State :=
  match kind with
  | .deny => (s.mapDeny f).claimDeny f
  | .free => s.mapFreeFrame f
  | .claim => (s.mapClaim f).claimClaim f
  | .intent => s.powerIntent f
  | .notice => (s.mapNotice f).powerNotice f
  | .fault => (s.mapFaultFrame f).claimFault (byteAt f.payload 1)
  | .time => s.takeTime f
  | .request => s.takeRequest f

/-- R80: a suspect notice, to the power share unit, the link and the sequencer. -/
def State.takeSuspect (s : State) (t : Nat) (on : Bool) : State := ((s.powerSuspect t on).linkSuspect t on).seqSuspect t on

/-- R180: the break that a PERMIT-LOST begins. -/
def breakOf (cause : PermitCause) : Break := if cause == .ownMoved then .permitMove else .permitOther

/-! ## Every hand-out -/

/-- One hand-out taken by the block that it is for. -/
def State.take (s : State) : Handed → State
  | .joinNotice _ new => s.takeJoin new
  | .joinTail old new cause => s.joinTail old new cause
  | .isolation => s.takeIsolation
  | .frame kind f => s.takeFrame kind f
  | .claimSent start n _ => s.takeClaimSent start n
  | .claimDropped => s.takeClaimDropped
  | .claimWithdrawn => s.takeClaimWithdrawn
  | .preempted t cls => s.takePreempted t cls
  | .intentSent start => s.takeIntentSent start
  | .intentDropped => s.takeIntentLost
  | .intentCancelled => s.takeIntentLost
  | .replyGone => s.endRequest
  | .heldChanged => s.permitHeld
  | .suspect t on => s.takeSuspect t on
  | .entered t => s.matrixEntered t
  | .levelChanged => s.powerLevel
  | .powerLocal => s.takePowerLocal
  | .powerRemote => s.takePowerRemote
  | .powerStepLower k => s.takeStepLower k
  | .noticePlaced => s.chooseIfWaiting
  | .booked k t _ how suspect => (s.seqBooked k t how suspect).endOn k
  | .waiting k => (s.seqWaiting k).endOn k
  | .exhausted k => (s.seqExhausted k).endOn k
  | .expired k => (s.seqExpired k).endOn k
  | .searchRefused k => (s.seqWaiting k).endOn k
  | .lostBooking t k _ => s.seqLost t k
  | .mxClosed t => s.seqClosed t
  | .mxOpened t reversal => s.seqOpened t reversal
  | .mxReleased t => s.seqReleased t
  | .mxWaiting t _ => s.seqMxWaiting t
  | .mxAbandoned _ _ => s.closeAgain
  | .mxJammed t _ => s.seqJammed t
  | .mxCleared t p => s.seqCleared t p
  | .mxMoved t _ _ => (s.permitLost .ownMoved).seqMoved t
  | .mxBusy t => s.seqBusy t
  | .mxNotHeld t => s.closeFailed t
  | .txTuned t => s.noRetry.seqTuned t
  | .txTuneFailed t _ => if s.seq.cur.state == .tuning then s.noRetry.seqGiveUp t .tuneFailed else s.noRetry
  | .txTuneAborted _ => s.noRetry
  | .txDetuned _ => s.noRetry.seqDetuned
  | .txRamped level _ _ => s.noRetry.seqRamped level
  | .txCapped _ => s.noRetry.seqCapped
  | .txSettled => s.takeSettled
  | .txTrip n action step => s.noRetry.seqTrip n action step
  | .txTripExhausted t => s.noRetry.seqGiveUp t .trips
  | .txPermitLost cause => s.noRetry.seqBreak (breakOf cause)
  | .txLinkLost _ => s.noRetry.seqLinkLost
  | .txLinkBack => s.noRetry.seqLinkBack
  | .txLocal _ => s.noRetry.seqLocal
  | .txRemote => s.noRetry.seqRemote
  | .txFault _ => s.noRetry.seqBreak .txFault
  | .txClear => s.noRetry.seqTxClear
  | .txRefused kind _ => s.seqTxRefused kind
  | .pwAdmitted step _ _ => s.seqAdmitted step
  | .pwWaiting _ => s.seqPwWaiting
  | .pwRefused _ => s
  | .reevaluate boundary step => s.reevaluate boundary step
  | .storeNotice _ => s.reevaluate false false
  | .storeExtra slot x => s.storeExtra slot x
  | .placeReply r => s.reply r
  | .prepareNext => s.prepareNext
  | .foundTest => s.takeFoundTest
  | .releaseKept => s.takeReleaseKept

/-- Hand-outs are taken until none is left, each followed by what the sequencer then does. `fuel` bounds how many are
taken in one command. -/
def State.drainFrom : Nat → State → State
  | 0, s => s
  | fuel + 1, s =>
    match s.handed with
    | [] => s
    | m :: rest =>
      let s1 := (State.take { s with handed := [] } m).advance rest.isEmpty
      State.drainFrom fuel { s1 with handed := s1.handed ++ rest }

/-- The greatest number of hand-outs taken in one command (notes/assumptions/3.md). -/
def handoutFuel : Nat := 4096

/-- Hand-outs are taken until none is left. -/
def State.drain (s : State) : State := State.drainFrom handoutFuel s

/-- A command at local time `t`: time moves on, the command's rule acts, and the hand-outs are taken. -/
def State.run (s : State) (t : Nat) (body : State → State) : State := (body (s.atTime t)).drain

end Sys2Proof.Machine
end

