-- ==== Sys2Proof/Machine/BusReceive.lean ====
section
/-! DEFINITION. The commands of received frames: the receive checks (R58), the duplicate-number rule (R59), heard traffic
(R60) and the dispatch by kind (R61). -/

namespace Sys2Proof.Machine

/-- The frame kinds that a station receives (R42). -/
inductive RxKind where
  | deny | free | claim | intent | notice | fault | time | request | reply | logrec
  deriving DecidableEq, Repr

/-- R48: the fixed payload length of a kind. -/
def RxKind.length : RxKind → Nat
  | .deny => 5 | .free => 1 | .claim => 6 | .intent => 5 | .notice => 14 | .fault => 3 | .time => 7 | .request => 16
  | .reply => 16 | .logrec => 15

/-- R61: the kinds that are handed to blocks. -/
def RxKind.handed : RxKind → Option FrameKind
  | .deny => some .deny | .free => some .free | .claim => some .claim | .intent => some .intent
  | .notice => some .notice | .fault => some .fault | .time => some .time | .request => some .request
  | .reply => none | .logrec => none

/-- TIME and REQUEST are taken from any sender and in any join state (R58, R59, R61). -/
def RxKind.anySender (k : RxKind) : Bool := k == .time || k == .request

/-- R58 check 3. -/
def senderFails (k : RxKind) (f : RxFrame) : Bool := ! k.anySender && (f.sender.toNat == 0 || f.sender.toNat == 31)

/-- R58 check 4. -/
def classFails (k : RxKind) (f : RxFrame) : Bool :=
  match k with
  | .claim => byteAt f.payload 2 != f.cls.toNat
  | .intent => byteAt f.payload 5 != f.cls.toNat
  | _ => false

/-- R58 check 5. -/
def codesFail (k : RxKind) (f : RxFrame) : Bool :=
  let b := byteAt f.payload
  match k with
  | .deny => decide (3 < b 3) || b 1 == 0 || decide (30 < b 1)
  | .fault => decide (1 < b 2) || b 3 == 0
  | .notice => ! (b 1 == 2 || b 1 == 3 || b 1 == 4)
  | .reply => decide (5 < b 1 % 16)
  | _ => false

/-- R58 checks 3 to 5. -/
def passesChecks (k : RxKind) (f : RxFrame) : Bool := ! senderFails k f && ! classFails k f && ! codesFail k f

/-- R59: a frame of another participant that uses the own number. -/
def State.ownNumber (s : State) (k : RxKind) (f : RxFrame) : Bool := ! k.anySender && f.sender.toNat == s.cfg.station

/-- R61: whether a frame that passed its checks is handed on. In DISABLED only TIME and REQUEST are; a REQUEST is when
it names the own number. Before the hand-over the clock alone takes frames, since every other block waits for it
(R192; notes/assumptions/9.md). -/
def State.handsOn (s : State) (k : RxKind) (f : RxFrame) : Bool :=
  (s.image.isSome || k == .time) && (k.anySender || s.pres.join != .disabled)
    && (k != .request || (s.image == some .accepted && byteAt f.payload 1 / 8 == s.cfg.station))

/-- R60: the last-heard-any time and the heard notice. -/
def State.hear (s : State) (start : Nat) : State :=
  State.takeHeard { s with bus := { s.bus with lastHeard := start } } start

/-- R61: the frame is handed on by kind. -/
def State.dispatch (s : State) (k : RxKind) (f : RxFrame) : State :=
  match k.handed with
  | some h => if s.handsOn k f then s.emit [.frame h f] else s
  | none => s

/-- R58 to R61: a received frame with a good CRC of a kind 0 to 9. A NOTICE with the own number gives the duplicate
finding before it is heard traffic (DEDUCED, notes/assumptions/46.md). -/
def State.receive (s : State) (k : RxKind) (f : RxFrame) : State :=
  if f.payload.length != k.length then s
  else if ! passesChecks k f then s.hear f.start
  else if s.ownNumber k f then (if k == .notice then s.takeDuplicate else s).hear f.start
  else (s.hear f.start).dispatch k f

/-- FRAME_CRC_BAD (R44): the frame is discarded. -/
def execFrameCrcBad (t : Nat) (s : State) : Host.Outcome State Fault Refusal := .next (s.run t fun s => s)

/-- DENY_RECEIVED (R85, R110, R116). -/
def execDenyReceived (t : Nat) (f : RxFrame) (s : State) : Host.Outcome State Fault Refusal :=
  .next (s.run t fun s => s.receive .deny f)

/-- FREE_RECEIVED (R84). -/
def execFreeReceived (t : Nat) (f : RxFrame) (s : State) : Host.Outcome State Fault Refusal :=
  .next (s.run t fun s => s.receive .free f)

/-- CLAIM_RECEIVED (R83, R94, R111). -/
def execClaimReceived (t : Nat) (f : RxFrame) (s : State) : Host.Outcome State Fault Refusal :=
  .next (s.run t fun s => s.receive .claim f)

/-- INTENT_RECEIVED (R158, R159). -/
def execIntentReceived (t : Nat) (f : RxFrame) (s : State) : Host.Outcome State Fault Refusal :=
  .next (s.run t fun s => s.receive .intent f)

/-- NOTICE_RECEIVED (R70, R82, R158). -/
def execNoticeReceived (t : Nat) (f : RxFrame) (s : State) : Host.Outcome State Fault Refusal :=
  .next (s.run t fun s => s.receive .notice f)

/-- FAULT_RECEIVED (R79, R114). -/
def execFaultReceived (t : Nat) (f : RxFrame) (s : State) : Host.Outcome State Fault Refusal :=
  .next (s.run t fun s => s.receive .fault f)

/-- TIME_RECEIVED (R28, R29). -/
def execTimeReceived (t : Nat) (f : RxFrame) (s : State) : Host.Outcome State Fault Refusal :=
  .next (s.run t fun s => s.receive .time f)

/-- REQUEST_RECEIVED (R186). -/
def execRequestReceived (t : Nat) (f : RxFrame) (s : State) : Host.Outcome State Fault Refusal :=
  .next (s.run t fun s => s.receive .request f)

/-- OTHER_FRAME_RECEIVED (R61): a REPLY or LOGREC of another station is heard traffic only. -/
def execOtherFrameReceived (t : Nat) (logrec : Bool) (f : RxFrame) (s : State) : Host.Outcome State Fault Refusal :=
  .next (s.run t fun s => s.receive (if logrec then .logrec else .reply) f)

/-- UNKNOWN_KIND_FRAME_RECEIVED (R58 check 1): a kind of 10 to 15 is dropped and is not heard traffic. -/
def execUnknownKindFrameReceived (t : Nat) (_kind : Fin 6) (_f : RxFrame) (s : State) :
    Host.Outcome State Fault Refusal :=
  .next (s.run t fun s => s)

end Sys2Proof.Machine
end

