-- ==== Sys2Proof/Machine/BusTransmit.lean ====
section
/-! DEFINITION. The commands of the station's own frames: the offer at an idle bus (R43, R49) and the ends of an attempt
(R43, R45). -/

namespace Sys2Proof.Machine

/-- R43, R47, R49: an attempt of the offered frame begins; the free bytes of its payload are numbered afresh. -/
def State.offer (s : State) : State :=
  { s with bus := s.bus.begin_ s.pres.join s.cfg.station s.now s.freeCount, freeCount := s.freeCount + 1 }

/-- The end of an attempt, with the notices it gives. -/
def State.endAttempt (s : State) (r : Bus × List Handed) : State := State.emit { s with bus := r.1 } r.2

/-- BUS_IDLE_OFFER (R49). -/
def execBusIdleOffer (t : Nat) (s : State) : Host.Outcome State Fault Refusal := .next (s.run t State.offer)

/-- ARBITRATION_LOST (R43). -/
def execArbitrationLost (t : Nat) (s : State) : Host.Outcome State Fault Refusal :=
  .next (s.run t fun s => s.endAttempt s.bus.loseArbitration)

/-- ATTEMPT_SUCCEEDED (R45). -/
def execAttemptSucceeded (t : Nat) (s : State) : Host.Outcome State Fault Refusal :=
  .next (s.run t fun s => s.endAttempt s.bus.succeed)

/-- ATTEMPT_FAILED (R45). -/
def execAttemptFailed (t : Nat) (s : State) : Host.Outcome State Fault Refusal :=
  .next (s.run t fun s => s.endAttempt s.bus.fail)

end Sys2Proof.Machine
end

