-- ==== Sys2Proof/Machine/ClaimEvents.lean ====
section
/-! DEFINITION. The timed commands of the claim engine (R107, R113, R115). -/

namespace Sys2Proof.Machine

/-- R113. -/
def State.claimWindowDue (s : State) : Bool := s.claim.phase == .window && s.reached s.claim.windowEnd

/-- R107. -/
def State.claimRetryDue (s : State) : Bool := s.claim.phase == .retryWait && s.reached s.claim.retry

/-- CLAIM_WINDOW_END (R113). -/
def execClaimWindowEnd (t : Nat) (s : State) : Host.Outcome State Fault Refusal :=
  .next (s.run t fun s => if s.claimWindowDue then s.endClaimWindow else s)

/-- CLAIM_RETRY (R107). -/
def execClaimRetry (t : Nat) (s : State) : Host.Outcome State Fault Refusal :=
  .next (s.run t fun s => if s.claimRetryDue then s.retryWalk else s)

/-- CLAIM_WATCH (R115), at a local second. -/
def execClaimWatch (t : Nat) (s : State) : Host.Outcome State Fault Refusal := .next (s.run t State.watchSecond)

end Sys2Proof.Machine
end

