-- ==== Sys2Proof/Machine/ClockEvents.lean ====
section
/-! DEFINITION. The timed commands of the station clock. A timed command before its time has no effect
(notes/assumptions/1.md). -/

namespace Sys2Proof.Machine

/-- R31: whether a minute boundary is due by running. -/
def State.minuteDue (s : State) : Bool :=
  match s.instant, s.clock.lastMinute with
  | some m, some last => decide (last < m) && decide (m ≤ maxInstant)
  | some m, none => decide (m ≤ maxInstant)
  | none, _ => false

/-- MINUTE_BOUNDARY (R31). -/
def execMinuteBoundary (t : Nat) (s : State) : Host.Outcome State Fault Refusal := .next (s.run t State.boundaryIfDue)

/-- HOLDOVER_EXPIRY (R32). -/
def execHoldoverExpiry (t : Nat) (s : State) : Host.Outcome State Fault Refusal :=
  .next (s.run t fun s => if s.holdoverDue then s.enterHoldover else s)

/-- CLOCK_RANGE_END (R33). -/
def execClockRangeEnd (t : Nat) (s : State) : Host.Outcome State Fault Refusal :=
  .next (s.run t fun s => if s.rangeEnded then s.endRange else s)

end Sys2Proof.Machine
end

