-- ==== Sys2Proof/Machine/LinkEvents.lean ====
section
/-! DEFINITION. The commands of the transmitter link: REPORT (R140), its deadlines and rungs, and the TRIP line (R149 to
R151). -/

namespace Sys2Proof.Machine

/-- R141. -/
def State.lossDue (s : State) : Bool := s.reached s.link.lossDeadline

/-- R145. -/
def State.tuneDue (s : State) : Bool := s.link.op == .tuning && s.reached s.link.tuneDeadline

/-- The first planned act of a ramp in an operation has come due (R147, R148). -/
def State.rungDue (s : State) (op : Operation) : Bool :=
  s.link.op == op && s.reached (s.link.plan.head?.map (·.due))

/-- R149: the trip window has passed since the last trip, with a count or a flag left to clear. -/
def State.tripWindowDue (s : State) : Bool :=
  s.link.ladder.any fun l => (l.count != 0 || s.link.tripped) && s.reached (l.last.map (· + tripWindowMs))

/-- R150: the recycle ramp may start. -/
def State.recycleDue (s : State) : Bool :=
  s.link.op == .recycle && s.link.ramp.isSome && s.reached s.link.recycleAt && ! s.tripLine

/-- R140: a REPORT is taken when it is valid; an invalid record has no effect. -/
def State.reportIn (s : State) (bytes : List Byte) : State :=
  if s.linkTakes && validReport bytes then s.takeReport (reportOf bytes s.now) else s

/-- R149: an assertion edge of TRIP; before the hand-over only the line is read (notes/assumptions/9.md). -/
def State.tripIn (s : State) : State :=
  if s.tripLine then s
  else
    let s1 : State := { s with tripLine := true }
    if s1.image.isSome then s1.takeTrip else s1

/-- R150: TRIP is deasserted: a recycle that waited on it starts. -/
def State.tripOut (s : State) : State := State.recycle { s with tripLine := false }

/-- REPORT_RECEIVED (R140). -/
def execReportReceived (t : Nat) (bytes : List Byte) (s : State) : Host.Outcome State Fault Refusal :=
  .next (s.run t fun s => s.reportIn bytes)

/-- TX_RECORD_DISCARDED (R140): a record that is not a valid REPORT is discarded. -/
def execTxRecordDiscarded (t : Nat) (_bytes : List Byte) (s : State) : Host.Outcome State Fault Refusal :=
  .next (s.run t fun s => s)

/-- LINK_LOSS_DEADLINE (R141). -/
def execLinkLossDeadline (t : Nat) (s : State) : Host.Outcome State Fault Refusal :=
  .next (s.run t fun s => if s.lossDue then s.loseLink else s)

/-- TUNE_DEADLINE (R145). -/
def execTuneDeadline (t : Nat) (s : State) : Host.Outcome State Fault Refusal :=
  .next (s.run t fun s => if s.tuneDue then s.failTune true else s)

/-- RAMP_RUNG_DUE (R147). -/
def execRampRungDue (t : Nat) (s : State) : Host.Outcome State Fault Refusal :=
  .next (s.run t fun s => if s.rungDue .rampUp then s.nextRung else s)

/-- RAMP_DOWN_RUNG_DUE (R148). -/
def execRampDownRungDue (t : Nat) (s : State) : Host.Outcome State Fault Refusal :=
  .next (s.run t fun s => if s.rungDue .rampDown then s.nextDownRung else s)

/-- TRIP_ASSERTED (R149, R151). -/
def execTripAsserted (t : Nat) (s : State) : Host.Outcome State Fault Refusal := .next (s.run t State.tripIn)

/-- TRIP_DEASSERTED (R150). -/
def execTripDeasserted (t : Nat) (s : State) : Host.Outcome State Fault Refusal := .next (s.run t State.tripOut)

/-- TRIP_WINDOW_EXPIRY (R149). -/
def execTripWindowExpiry (t : Nat) (s : State) : Host.Outcome State Fault Refusal :=
  .next (s.run t fun s => if s.tripWindowDue then s.endTripWindow else s)

/-- RECYCLE_TIME (R150). -/
def execRecycleTime (t : Nat) (s : State) : Host.Outcome State Fault Refusal := .next (s.run t State.recycle)

end Sys2Proof.Machine
end

