-- ==== Sys2Proof/Machine/MapEvents.lean ====
section
/-! DEFINITION. The timed commands of the booking map. In DISABLED the map stands as it was (R76). -/

namespace Sys2Proof.Machine

/-- R76: whether the map acts: in every join state but DISABLED. -/
def State.mapLives (s : State) : Bool := s.pres.join != .disabled

/-- R87: aging, at the present local second. -/
def State.ageMap (s : State) : State :=
  if s.mapLives then s.withMap (s.map.map fun r => r.age s.localSecond) else s

/-- R88: HEARD BOOKED bookings whose until has come leave. -/
def State.expireMap (s : State) : State :=
  if s.mapLives then s.withMap (s.map.map fun r => r.drop fun b => b.ended s.localSecond) else s

/-- R80: suspect marks whose time has come end. -/
def State.expireSuspects (s : State) : State := if s.mapLives then s.endMarks else s

/-- Whether a booking is due to be aged (R87). -/
def State.agingDue (s : State) : Bool :=
  s.mapLives && s.map.any fun r => r.slots.any fun b => b.silent s.localSecond

/-- Whether a booking has ended (R88). -/
def State.expiryDue (s : State) : Bool := s.mapLives && s.map.any fun r => r.slots.any fun b => b.ended s.localSecond

/-- Whether a suspect mark has ended (R80). -/
def State.suspectDue (s : State) : Bool :=
  s.mapLives && s.map.any fun r => match r.suspect with
    | some u => decide (u ≤ s.localSecond)
    | none => false

/-- BOOKING_AGING (R87). -/
def execBookingAging (t : Nat) (s : State) : Host.Outcome State Fault Refusal := .next (s.run t State.ageMap)

/-- BOOKED_EXPIRY (R88). -/
def execBookedExpiry (t : Nat) (s : State) : Host.Outcome State Fault Refusal := .next (s.run t State.expireMap)

/-- SUSPECT_EXPIRY (R80). -/
def execSuspectExpiry (t : Nat) (s : State) : Host.Outcome State Fault Refusal := .next (s.run t State.expireSuspects)

end Sys2Proof.Machine
end

