-- ==== Sys2Proof/Machine/MatrixEvents.lean ====
section
/-! DEFINITION. The commands of the switch matrix interface: scans (R122), drive limits (R131, R132) and the RF-PRESENT
line (R124, R148). -/

namespace Sys2Proof.Machine

/-- R122: whether a scan falls at this local time: a whole multiple of 100 ms after the hand-over, once each (the scan at
the hand-over itself is that of R134; notes/assumptions/67.md). -/
def Matrix.scanDue (m : Matrix) (now : Nat) : Bool :=
  match m.scanFrom with
  | none => false
  | some h => decide (h < now) && (now - h) % scanPeriodMs == 0 && m.lastScan != some now

/-- R122, R134: scans are taken at their times from an accepted hand-over on, and not in DISABLED. -/
def State.scansTaken (s : State) : Bool :=
  s.image == some .accepted && s.pres.join != .disabled && s.mat.scanDue s.now

/-- The active drive, once its travel time has reached the limit (R131). -/
def State.overdueDrive (s : State) : Option Drive :=
  s.mat.active.filter fun d => d.running.isSome && decide (travelLimitMs ≤ d.travelAt s.now)

/-- R131: a drive other than a RECOVERY drive has failed. -/
def State.timeOutDrive (s : State) : State :=
  match s.overdueDrive with
  | some d => if d.purpose == .recovery then s else s.jam d
  | none => s

/-- R132: a RECOVERY drive has failed. -/
def State.timeOutRecovery (s : State) : State :=
  match s.overdueDrive with
  | some d => if d.purpose == .recovery then s.endRecovery d else s
  | none => s

def State.driveDue (s : State) : Bool :=
  match s.overdueDrive with
  | some d => d.purpose != .recovery
  | none => false

def State.recoveryDue (s : State) : Bool :=
  match s.overdueDrive with
  | some d => d.purpose == .recovery
  | none => false

/-- R124: RF-PRESENT becomes active: a running drive is suspended. -/
def State.rfActive (s : State) : State :=
  { s with
    rfPresent := true,
    mat := { s.mat with active := s.mat.active.map fun d => if d.running.isSome then d.suspend s.now else d } }

/-- R148, R124: RF-PRESENT becomes inactive: SETTLING ends and a suspended drive resumes. -/
def State.rfInactive (s : State) : State := (State.trySettle { s with rfPresent := false }).resumeDrive

/-- MATRIX_SCAN (R122, R123). -/
def execMatrixScan (t : Nat) (scan : Contacts) (s : State) : Host.Outcome State Fault Refusal :=
  .next (s.run t fun s => if s.scansTaken then s.takeScan scan else s)

/-- DRIVE_TIMEOUT (R131). -/
def execDriveTimeout (t : Nat) (s : State) : Host.Outcome State Fault Refusal := .next (s.run t State.timeOutDrive)

/-- RECOVERY_DRIVE_TIMEOUT (R132). -/
def execRecoveryDriveTimeout (t : Nat) (s : State) : Host.Outcome State Fault Refusal :=
  .next (s.run t State.timeOutRecovery)

/-- RF_PRESENT_ACTIVE (R124). -/
def execRfPresentActive (t : Nat) (s : State) : Host.Outcome State Fault Refusal := .next (s.run t State.rfActive)

/-- RF_PRESENT_INACTIVE (R124, R148). -/
def execRfPresentInactive (t : Nat) (s : State) : Host.Outcome State Fault Refusal := .next (s.run t State.rfInactive)

end Sys2Proof.Machine
end

