-- ==== Sys2Proof/Machine/PowerEvents.lean ====
section
/-! DEFINITION. The timed commands of the power share unit (R159, R164). -/

namespace Sys2Proof.Machine

/-- R164. -/
def State.intentWindowDue (s : State) : Bool := s.psu.phase == .window && s.reached s.psu.windowEnd

/-- R164. -/
def State.backoffDue (s : State) : Bool := s.psu.phase == .backoff && s.reached s.psu.backoffEnd

/-- R159: an intent's life has run out. -/
def State.intentsDue (s : State) : Bool := s.psu.table.any fun r => r.hasExpired s.now

/-- R164: at the backoff end the step is chosen again, and the backoff end becomes none (DESIGN CHOICE,
notes/assumptions/78.md). -/
def State.endBackoff (s : State) : State :=
  State.chooseStep { s with psu := { s.psu with phase := .choose, backoffEnd := none } }

/-- R159, R162: the intents whose life has run out leave. -/
def State.expireIntents (s : State) : State :=
  State.chooseIfWaiting { s with psu := { s.psu with table := s.psu.table.map (DemandRec.expire · s.now) } }

/-- INTENT_WINDOW_END (R164). -/
def execIntentWindowEnd (t : Nat) (s : State) : Host.Outcome State Fault Refusal :=
  .next (s.run t fun s => if s.intentWindowDue then s.endIntentWindow else s)

/-- BACKOFF_END (R164). -/
def execBackoffEnd (t : Nat) (s : State) : Host.Outcome State Fault Refusal :=
  .next (s.run t fun s => if s.backoffDue then s.endBackoff else s)

/-- INTENT_EXPIRY (R159). -/
def execIntentExpiry (t : Nat) (s : State) : Host.Outcome State Fault Refusal :=
  .next (s.run t fun s => if s.intentsDue then s.expireIntents else s)

end Sys2Proof.Machine
end

