-- ==== Sys2Proof/Machine/PresenceEvents.lean ====
section
/-! DEFINITION. The timed commands of the presence unit. A timed command before its time has no effect
(notes/assumptions/1.md). -/

namespace Sys2Proof.Machine

/-- R64. -/
def State.listeningDue (s : State) : Bool := s.pres.join == .listening && s.reached s.pres.listening

/-- R65. -/
def State.learningDue (s : State) : Bool := s.pres.join == .learning && s.reached s.pres.learning

/-- R72. -/
def State.silenceDue (s : State) : Bool :=
  (s.pres.join == .learning || s.pres.join == .joined) && s.reached s.pres.silence

/-- R68: the period of NOTICE has passed since the last placement. -/
def State.periodDue (s : State) : Bool :=
  s.pres.join.sendsNotice && s.reached (s.pres.noticeTimer.map (· + noticePeriodMs))

/-- R68: a pending NOTICE may be placed. -/
def State.noticePendingDue (s : State) : Bool :=
  s.pres.join.sendsNotice && s.pres.noticePending && s.reached (s.pres.noticeTimer.map (· + noticeGapMs))

/-- LISTENING_TIMER_EXPIRY (R64). -/
def execListeningTimerExpiry (t : Nat) (s : State) : Host.Outcome State Fault Refusal :=
  .next (s.run t fun s => if s.listeningDue then s.changeJoin .learning .timer else s)

/-- LEARNING_TIMER_EXPIRY (R65). -/
def execLearningTimerExpiry (t : Nat) (s : State) : Host.Outcome State Fault Refusal :=
  .next (s.run t fun s => if s.learningDue then s.changeJoin .joined .timer else s)

/-- SILENCE_DEADLINE (R72). -/
def execSilenceDeadline (t : Nat) (s : State) : Host.Outcome State Fault Refusal :=
  .next (s.run t fun s => if s.silenceDue then s.changeJoin .isolated .silence else s)

/-- NOTICE_PERIOD (R68): the placement is reported to the power share unit (R162). -/
def execNoticePeriod (t : Nat) (s : State) : Host.Outcome State Fault Refusal :=
  .next (s.run t fun s => if s.periodDue then s.placeNotice.emit [.noticePlaced] else s)

/-- NOTICE_PENDING_DUE (R68). -/
def execNoticePendingDue (t : Nat) (s : State) : Host.Outcome State Fault Refusal :=
  .next (s.run t fun s => if s.noticePendingDue then s.placeNotice else s)

end Sys2Proof.Machine
end

