-- ==== Sys2Proof/Machine/Requests.lean ====
section
/-! DEFINITION. The request commands: the head of the request queue is served by its kind (R186, R187), and the end of a
serial-memory write (R15). A command of one kind with another kind at the head has no effect. -/

namespace Sys2Proof.Machine

/-- BANK_OPEN (R9). -/
def execBankOpen (t : Nat) (s : State) : Host.Outcome State Fault Refusal :=
  .next (s.run t fun s => s.serve 0 State.bankOpen)

/-- ENTRY_PUT (R10). -/
def execEntryPut (t : Nat) (s : State) : Host.Outcome State Fault Refusal :=
  .next (s.run t fun s => s.serve 1 State.entryPut)

/-- BANK_CLOSE (R11). -/
def execBankClose (t : Nat) (s : State) : Host.Outcome State Fault Refusal :=
  .next (s.run t fun s => s.serve 2 State.bankClose)

/-- EXTRA_PUT (R12). -/
def execExtraPut (t : Nat) (s : State) : Host.Outcome State Fault Refusal :=
  .next (s.run t fun s => s.serve 3 State.extraPut)

/-- EXTRA_DROP (R13). -/
def execExtraDrop (t : Nat) (s : State) : Host.Outcome State Fault Refusal :=
  .next (s.run t fun s => s.serve 4 State.extraDrop)

/-- ENTRY_GET (R14). -/
def execEntryGet (t : Nat) (s : State) : Host.Outcome State Fault Refusal :=
  .next (s.run t fun s => s.serve 5 State.entryGet)

/-- LOG_GET (R185). -/
def execLogGet (t : Nat) (s : State) : Host.Outcome State Fault Refusal :=
  .next (s.run t fun s => s.serve 6 State.logGet)

/-- STATUS_GET (R188). -/
def execStatusGet (t : Nat) (s : State) : Host.Outcome State Fault Refusal :=
  .next (s.run t fun s => s.serve 7 fun s _ => s.statusGet)

/-- SERIAL_MEMORY_WRITE_END (R15). -/
def execSerialMemoryWriteEnd (t : Nat) (kept : Bool) (s : State) : Host.Outcome State Fault Refusal :=
  .next (s.run t fun s => s.endWrite kept)

end Sys2Proof.Machine
end

