-- ==== Sys2Proof/Machine/SequencerEvents.lean ====
section
/-! DEFINITION. The timed commands of the entry sequencer (R175). -/

namespace Sys2Proof.Machine

/-- R175: the ramp time has come with the transmitter tuned. -/
def State.rampTimeDue (s : State) : Bool :=
  s.seq.cur.state == .tuning && s.link.op == .tuned && s.seq.cur.terminal == s.link.opTerminal
    && ! s.seq.cur.heldStep && decide (s.seq.cur.rampTime ≤ (s.now : Int))

/-- R175: a refused request is to be handed again. -/
def State.retryDue (s : State) : Bool := s.reached (s.seq.cur.retry.map (·.due))

/-- RAMP_TIME (R175). -/
def execRampTime (t : Nat) (s : State) : Host.Outcome State Fault Refusal := .next (s.run t State.rampTimeComes)

/-- SEQUENCER_RETRY (R175). -/
def execSequencerRetry (t : Nat) (s : State) : Host.Outcome State Fault Refusal :=
  .next (s.run t fun s => if s.retryDue then s.retryNow else s)

end Sys2Proof.Machine
end

