-- ==== Sys2Proof/Machine/Startup.lean ====
section
/-! DEFINITION. Reset and start-up: RESET and HAND_OVER, the configuration image (R191) and the hand-over (R192). -/

namespace Sys2Proof.Machine

/-! ## The configuration image (R191) -/

/-- A two-byte field of the image. -/
def fieldBytes (v : BitVec 16) : List Byte := word16 v.toNat

/-- The bytes of a reach record (DESIGN CHOICE, notes/assumptions/5.md). -/
def reachBytes (r : RawReach) : List Byte :=
  [r.terminal, r.kind] ++ fieldBytes r.low ++ fieldBytes r.high ++ fieldBytes r.rating ++ [r.dedicated]

/-- The bytes of the image except its sum, in the order of the table of section 11.5 (DESIGN CHOICE,
notes/assumptions/5.md). -/
def imageBytes (r : RawImage) : List Byte :=
  [r.station] ++ fieldBytes r.rating ++ fieldBytes r.fmin ++ fieldBytes r.fmax ++ [r.standby, r.efficiency]
    ++ fieldBytes r.limit ++ fieldBytes r.reserve ++ fieldBytes r.lead ++ [r.tune, r.reachCount]
    ++ r.reach.flatMap reachBytes

/-- A value settled by R191, and how many values were clamped for it. -/
structure Clamped where
  value : Nat
  count : Nat
  deriving DecidableEq, Repr

/-- A value brought to the nearest end of a range, counted when it was outside. -/
def clampTo (lo hi v : Nat) : Clamped :=
  { value := max lo (min hi v), count := if max lo (min hi v) == v then 0 else 1 }

/-- A time of which 0 stands for a given value and is not counted. -/
def clampTime (ifZero lo hi v : Nat) : Clamped := if v == 0 then { value := ifZero, count := 0 } else clampTo lo hi v

/-- The higher of a pair of frequencies: in range, and not below the lower. -/
def clampHigh (low v : Nat) : Clamped :=
  let c := max low (clampTo 2300 26100 v).value
  { value := c, count := if c == v then 0 else 1 }

/-- A reach record used, settled. -/
structure SettledReach where
  row   : TermRow
  count : Nat
  deriving DecidableEq, Repr

/-- R191: one reach record used. -/
def settleReach (r : RawReach) : SettledReach :=
  let terminal := clampTo 0 39 r.terminal.toNat
  let kind := clampTo 0 1 r.kind.toNat
  let low := clampTo 2300 26100 r.low.toNat
  let high := clampHigh low.value r.high.toNat
  let rating := clampTo 1 999 r.rating.toNat
  let dedicated := clampTo 0 30 r.dedicated.toNat
  { row :=
      { number := terminal.value, load := kind.value == 1, low := low.value, high := high.value, rating := rating.value,
        dedicated := dedicated.value, suspect := none, occRun := 0, freeRun := 0,
        slots := if dedicated.value == 0 then [] else [dedicatedBooking dedicated.value] },
    count := terminal.count + kind.count + low.count + high.count + rating.count + dedicated.count }

/-- R191: a record whose terminal an earlier one names is dropped and counted. -/
def dropRepeats : List TermRow → List TermRow → List TermRow × Nat
  | kept, [] => (kept, 0)
  | kept, r :: rest =>
    if kept.any (·.number == r.number) then
      let more := dropRepeats kept rest
      (more.1, more.2 + 1)
    else dropRepeats (kept ++ [r]) rest

/-- What an accepted image hands over. -/
structure SettledImage where
  cfg   : Settings
  reach : List TermRow
  count : Nat
  deriving DecidableEq, Repr

/-- R191 step 3. -/
def settleImage (r : RawImage) : SettledImage :=
  let rating := clampTo 1 999 r.rating.toNat
  let fmin := clampTo 2300 26100 r.fmin.toNat
  let fmax := clampHigh fmin.value r.fmax.toNat
  let standby := clampTo 0 200 r.standby.toNat
  let efficiency := clampTo 40 95 r.efficiency.toNat
  let limit := clampTo 100 20000 r.limit.toNat
  let reserve := clampTo 0 limit.value r.reserve.toNat
  let lead := clampTime 120 30 600 r.lead.toNat
  let tune := clampTime 90 20 180 r.tune.toNat
  let reachCount := clampTo 1 40 r.reachCount.toNat
  let used := (r.reach.take reachCount.value).map settleReach
  let kept := dropRepeats [] (used.map (·.row))
  { cfg :=
      { station := r.station.toNat, rating := rating.value, fmin := fmin.value, fmax := fmax.value,
        standby := standby.value, efficiency := efficiency.value, limit := limit.value, reserve := reserve.value,
        lead := lead.value, tune := tune.value },
    reach := kept.1,
    count := rating.count + fmin.count + fmax.count + standby.count + efficiency.count + limit.count + reserve.count
      + lead.count + tune.count + reachCount.count + (used.map (·.count)).sum + kept.2 }

/-- R191: the image-check result; a memory that does not answer fails the sum. -/
def imageResult (image : Option RawImage) : ImageResult :=
  match image with
  | none => .sum
  | some r =>
    if crc16 (imageBytes r) != r.sum then .sum
    else if r.station.toNat == 0 || decide (30 < r.station.toNat) then .station
    else .accepted

/-! ## The hand-over (R192) -/

/-- R192, a rejected image: START, then DISABLED with cause CONFIG (R62). -/
def State.rejectImage (s : State) (result : ImageResult) : State :=
  State.changeJoin ((State.writeStart { s with image := some result } (.start result 0 0 0))) .disabled .config

/-- R139, R156, R62: the transmitter link, the power share unit and the presence unit take an accepted hand-over. Until
then the link and the unit stand at their reset values. -/
def State.takeHandOver (s : State) : State :=
  { s with
    link := { Link.reset with lossDeadline := some (s.now + reportLossMs) },
    psu := { Power.reset with announced := s.cfg.standby, ceiling := s.cfg.standby },
    pres := { s.pres with listening := some (s.now + listeningMs) } }

/-- R192, an accepted image. -/
def State.acceptImage (s : State) (i : SettledImage) (scan : Contacts) : State :=
  let s1 := State.writeStart { s with image := some .accepted, cfg := i.cfg, map := i.reach }
    (.start .accepted i.cfg.station i.reach.length i.count)
  let s2 := s1.readBanks.settleFound (i.reach.map (·.number)) scan
  s2.takeHandOver.writeLog (.join .listening .listening .start)

/-- R192: the hand-over, made once after a reset. -/
def State.handOver (s : State) (image : Option RawImage) (scan : Contacts) : State :=
  if s.image.isSome then s
  else match imageResult image, image with
    | .accepted, some r => s.acceptImage (settleImage r) scan
    | result, _ => s.rejectImage result

/-- R17, R25 and the columns "After reset": everything but the serial memory, the input lines
(notes/assumptions/7.md) and the model's own queue and counter takes its reset value. -/
def State.takeReset (s : State) : State :=
  { State.reset with
    serial := s.serial.cutShort, rfPresent := s.rfPresent, tripLine := s.tripLine, freeCount := s.freeCount,
    pending := s.pending }

/-! ## The commands -/

/-- RESET (R17). -/
def execReset (s : State) : Host.Outcome State Fault Refusal := .next s.takeReset

/-- HAND_OVER (R192). -/
def execHandOver (t : Nat) (image : Option RawImage) (scan : Contacts) (s : State) : Host.Outcome State Fault Refusal :=
  .next (s.run t fun s => s.handOver image scan)

end Sys2Proof.Machine
end

