-- ==== Sys2Proof/Machine/Dispatch.lean ====
section
/-! DEFINITION. The command dispatch: one arm for each constructor of `Instr`. -/

namespace Sys2Proof.Machine

/-- The effect of a command on everything but the queue of waiting commands. -/
def exec (i : Instr) (s : State) : Host.Outcome State Fault Refusal :=
  match i with
  | .reset => Sys2Proof.Machine.execReset s
  | .handOver t image scan => Sys2Proof.Machine.execHandOver t image scan s
  | .bankOpen t => Sys2Proof.Machine.execBankOpen t s
  | .entryPut t => Sys2Proof.Machine.execEntryPut t s
  | .bankClose t => Sys2Proof.Machine.execBankClose t s
  | .extraPut t => Sys2Proof.Machine.execExtraPut t s
  | .extraDrop t => Sys2Proof.Machine.execExtraDrop t s
  | .entryGet t => Sys2Proof.Machine.execEntryGet t s
  | .logGet t => Sys2Proof.Machine.execLogGet t s
  | .statusGet t => Sys2Proof.Machine.execStatusGet t s
  | .serialMemoryWriteEnd t kept => Sys2Proof.Machine.execSerialMemoryWriteEnd t kept s
  | .busIdleOffer t => Sys2Proof.Machine.execBusIdleOffer t s
  | .arbitrationLost t => Sys2Proof.Machine.execArbitrationLost t s
  | .attemptSucceeded t => Sys2Proof.Machine.execAttemptSucceeded t s
  | .attemptFailed t => Sys2Proof.Machine.execAttemptFailed t s
  | .frameCrcBad t => Sys2Proof.Machine.execFrameCrcBad t s
  | .denyReceived t f => Sys2Proof.Machine.execDenyReceived t f s
  | .freeReceived t f => Sys2Proof.Machine.execFreeReceived t f s
  | .claimReceived t f => Sys2Proof.Machine.execClaimReceived t f s
  | .intentReceived t f => Sys2Proof.Machine.execIntentReceived t f s
  | .noticeReceived t f => Sys2Proof.Machine.execNoticeReceived t f s
  | .faultReceived t f => Sys2Proof.Machine.execFaultReceived t f s
  | .timeReceived t f => Sys2Proof.Machine.execTimeReceived t f s
  | .requestReceived t f => Sys2Proof.Machine.execRequestReceived t f s
  | .otherFrameReceived t logrec f => Sys2Proof.Machine.execOtherFrameReceived t logrec f s
  | .minuteBoundary t => Sys2Proof.Machine.execMinuteBoundary t s
  | .holdoverExpiry t => Sys2Proof.Machine.execHoldoverExpiry t s
  | .clockRangeEnd t => Sys2Proof.Machine.execClockRangeEnd t s
  | .listeningTimerExpiry t => Sys2Proof.Machine.execListeningTimerExpiry t s
  | .learningTimerExpiry t => Sys2Proof.Machine.execLearningTimerExpiry t s
  | .silenceDeadline t => Sys2Proof.Machine.execSilenceDeadline t s
  | .noticePeriod t => Sys2Proof.Machine.execNoticePeriod t s
  | .noticePendingDue t => Sys2Proof.Machine.execNoticePendingDue t s
  | .bookingAging t => Sys2Proof.Machine.execBookingAging t s
  | .bookedExpiry t => Sys2Proof.Machine.execBookedExpiry t s
  | .suspectExpiry t => Sys2Proof.Machine.execSuspectExpiry t s
  | .matrixScan t scan => Sys2Proof.Machine.execMatrixScan t scan s
  | .driveTimeout t => Sys2Proof.Machine.execDriveTimeout t s
  | .recoveryDriveTimeout t => Sys2Proof.Machine.execRecoveryDriveTimeout t s
  | .rfPresentActive t => Sys2Proof.Machine.execRfPresentActive t s
  | .rfPresentInactive t => Sys2Proof.Machine.execRfPresentInactive t s
  | .reportReceived t bytes => Sys2Proof.Machine.execReportReceived t bytes s
  | .txRecordDiscarded t bytes => Sys2Proof.Machine.execTxRecordDiscarded t bytes s
  | .linkLossDeadline t => Sys2Proof.Machine.execLinkLossDeadline t s
  | .tuneDeadline t => Sys2Proof.Machine.execTuneDeadline t s
  | .rampRungDue t => Sys2Proof.Machine.execRampRungDue t s
  | .rampDownRungDue t => Sys2Proof.Machine.execRampDownRungDue t s
  | .tripAsserted t => Sys2Proof.Machine.execTripAsserted t s
  | .tripDeasserted t => Sys2Proof.Machine.execTripDeasserted t s
  | .tripWindowExpiry t => Sys2Proof.Machine.execTripWindowExpiry t s
  | .recycleTime t => Sys2Proof.Machine.execRecycleTime t s
  | .intentWindowEnd t => Sys2Proof.Machine.execIntentWindowEnd t s
  | .backoffEnd t => Sys2Proof.Machine.execBackoffEnd t s
  | .intentExpiry t => Sys2Proof.Machine.execIntentExpiry t s
  | .claimWindowEnd t => Sys2Proof.Machine.execClaimWindowEnd t s
  | .claimRetry t => Sys2Proof.Machine.execClaimRetry t s
  | .claimWatch t => Sys2Proof.Machine.execClaimWatch t s
  | .rampTime t => Sys2Proof.Machine.execRampTime t s
  | .sequencerRetry t => Sys2Proof.Machine.execSequencerRetry t s
  | .unknownKindFrameReceived t kind f => Sys2Proof.Machine.execUnknownKindFrameReceived t kind f s

end Sys2Proof.Machine
end

