-- ==== Sys2Proof/Machine/Step.lean ====
section
/-! DEFINITION. One step: the command at the front of the queue, or, with none waiting, one millisecond of local time. -/

namespace Sys2Proof.Machine

/-- A command taken when its condition holds. -/
def when_ (due : Bool) (c : Instr) : List Instr := if due then [c] else []

/-- R186: the command that serves the head request, when it is not yet being served. -/
def State.dueRequest (s : State) : List Instr :=
  when_ (s.headOf 0).isSome (.bankOpen s.now) ++ when_ (s.headOf 1).isSome (.entryPut s.now)
    ++ when_ (s.headOf 2).isSome (.bankClose s.now) ++ when_ (s.headOf 3).isSome (.extraPut s.now)
    ++ when_ (s.headOf 4).isSome (.extraDrop s.now) ++ when_ (s.headOf 5).isSome (.entryGet s.now)
    ++ when_ (s.headOf 6).isSome (.logGet s.now) ++ when_ (s.headOf 7).isSome (.statusGet s.now)

/-- The timed commands that are due, in the order of the table (notes/assumptions/2.md). -/
def State.dueTimed (s : State) : List Instr :=
  when_ s.minuteDue (.minuteBoundary s.now) ++ when_ s.holdoverDue (.holdoverExpiry s.now)
    ++ when_ s.rangeEnded (.clockRangeEnd s.now) ++ when_ s.listeningDue (.listeningTimerExpiry s.now)
    ++ when_ s.learningDue (.learningTimerExpiry s.now) ++ when_ s.silenceDue (.silenceDeadline s.now)
    ++ when_ s.periodDue (.noticePeriod s.now) ++ when_ s.noticePendingDue (.noticePendingDue s.now)
    ++ when_ s.agingDue (.bookingAging s.now) ++ when_ s.expiryDue (.bookedExpiry s.now)
    ++ when_ s.suspectDue (.suspectExpiry s.now) ++ when_ s.driveDue (.driveTimeout s.now)
    ++ when_ s.recoveryDue (.recoveryDriveTimeout s.now) ++ when_ s.lossDue (.linkLossDeadline s.now)
    ++ when_ s.tuneDue (.tuneDeadline s.now) ++ when_ (s.rungDue .rampUp) (.rampRungDue s.now)
    ++ when_ (s.rungDue .rampDown) (.rampDownRungDue s.now) ++ when_ s.tripWindowDue (.tripWindowExpiry s.now)
    ++ when_ s.recycleDue (.recycleTime s.now) ++ when_ s.intentWindowDue (.intentWindowEnd s.now)
    ++ when_ s.backoffDue (.backoffEnd s.now) ++ when_ s.intentsDue (.intentExpiry s.now)
    ++ when_ s.claimWindowDue (.claimWindowEnd s.now) ++ when_ s.claimRetryDue (.claimRetry s.now)
    ++ when_ (s.now % 1000 == 0) (.claimWatch s.now) ++ when_ s.rampTimeDue (.rampTime s.now)
    ++ when_ s.retryDue (.sequencerRetry s.now)

/-- DESIGN CHOICE (notes/assumptions/2.md): with no command waiting one millisecond passes (R25), and what is then due is
put into the queue. -/
def State.tick (s : State) : State :=
  let s1 := s.atTime (s.now + 1)
  { s1 with pending := s1.dueRequest ++ s1.dueTimed }

/-- The step of the part. -/
def step (s : State) : Host.Outcome State Fault Refusal :=
  match s.pending with
  | [] => .next s.tick
  | c :: rest => exec c { s with pending := rest }

/-- The state with the command that a word spells put at the front of the queue; no word spells one. -/
def State.withFetchWord (s : State) (nbits w : Nat) : State :=
  match decodeTableWord nbits w with
  | some c => { s with pending := c :: s.pending }
  | none => s

end Sys2Proof.Machine
end

