-- ==== Sys2Proof/Safety.lean ====
section
/-! DEFINITION. What counts as a safe run: the laws of the part that hold in every state a run can reach, and the shape
of a state in which the sequencer has nothing waiting. -/

namespace Sys2Proof.Machine

/-! ## The law of the air log (R184) -/

/-- R184: the ring holds at most 64 records, and the record `i` from the oldest carries the number that makes
consecutive records differ by one modulo 65536, the newest being one below the next number. -/
def AirLog.Numbered (l : AirLog) : Prop :=
  l.ring.length ≤ ringCapacity
    ∧ ∀ i, (h : i < l.ring.length) → (l.ring[i]).seq = l.nextSeq - BitVec.ofNat 16 (l.ring.length - i)

/-! ## Capacities (R52, R53, R54, R76, R186) -/

/-- R52 to R54: what the outbound queues and backlogs hold at most. -/
structure Bus.Within (b : Bus) : Prop where
  deny  : b.denyQ.length ≤ denyCapacity
  logs  : b.logQ.length ≤ logCapacity
  free  : b.freeBack.length ≤ freeBacklog
  fault : b.faultBack.length ≤ faultBacklog

/-- R76: each terminal's map holds at most four bookings. -/
def SlotsWithin (m : List TermRow) : Prop := ∀ r ∈ m, r.slots.length ≤ slotCapacity

/-- R76: the bookings of each terminal stand in the order of their froms. -/
def SlotsOrdered (m : List TermRow) : Prop := ∀ r ∈ m, r.slots.Pairwise fun x y => x.since ≤ y.since

/-- R191: each terminal has one row. -/
def RowsDistinct (m : List TermRow) : Prop := (m.map (·.number)).Nodup

/-- The capacities of the outbound queues, the booking map and the request queue, and the order of the map. -/
structure Capacities (s : State) : Prop where
  bus   : s.bus.Within
  slots : SlotsWithin s.map
  order : SlotsOrdered s.map
  rows  : RowsDistinct s.map
  queue : s.req.queue.length ≤ requestCapacity

/-! ## Own bookings (R77) -/

/-- R77: at most one own HELD and at most one own BOOKED booking stands in the map. -/
def OwnOnce (m : List TermRow) : Prop :=
  let slots := m.flatMap (·.slots)
  slots.countP (fun b => b.source == .own && b.state == .held) ≤ 1
    ∧ slots.countP (fun b => b.source == .own && b.state == .booked) ≤ 1

/-! ## The announced demand (R157) -/

/-- R157: the announced demand in its three conditions. -/
structure Announced (s : State) : Prop where
  local_   : s.psu.localMark = true → s.psu.announced = totalDemand s.cfg s.cfg.rating 100 .am
  admitted : s.psu.localMark = false → ∀ k, s.psu.admitted = some k →
    ∃ b, s.psu.basis = some b ∧ s.psu.announced = totalDemand s.cfg b.carrier k b.mode
  none_    : s.psu.localMark = false → s.psu.admitted = none → s.psu.announced = s.cfg.standby

/-! ## At most one LIVE bank (R7) -/

def OneLive (s : Store) : Prop := ¬ (s.bankA.state = .live ∧ s.bankB.state = .live)

/-! ## The interlock of PERMIT and the drives (R124, R127, R142) -/

/-- R142: what PERMIT asserted stands on, but for the own HELD booking: the link is UP, neither under local control nor
faulted, in an operation that carries PERMIT; no drive is active; and the operation terminal alone is read CLOSED with
every other own crosspoint OPEN. -/
structure PermitStands (l : Link) (m : Matrix) : Prop where
  up       : l.state = .up
  remote   : l.localFlag = false
  sound    : l.faultCode = 0
  works    : l.op ≠ .none ∧ l.op ≠ .settling
  atRest   : m.active = none
  terminal : ∃ t, l.opTerminal = some t ∧ m.onlyClosed t = true

/-- R127: every own crosspoint other than the terminal reads OPEN. -/
def OthersOpen (m : Matrix) (t : Nat) : Prop := ∀ x ∈ m.rows, x.terminal ≠ t → x.pos = some .opened

/-- R124: a drive runs only with PERMIT off and RF-PRESENT inactive; R142: PERMIT asserted stands on its conditions. -/
structure Lines (s : State) : Prop where
  driven : ∀ d, s.mat.active = some d → d.running.isSome = true → s.link.permit = false ∧ s.rfPresent = false
  permit : s.link.permit = true → PermitStands s.link s.mat

/-- R127: a crosspoint is driven toward CLOSED only while every other own crosspoint reads OPEN. -/
def ClosesAlone (m : Matrix) : Prop :=
  ∀ d, m.active = some d → d.running.isSome = true → d.direction = .close → OthersOpen m d.terminal

/-- R139, R142, R145 to R148: PERMIT is asserted exactly in the operations that carry it, the commanded level is above 0
in a ramp or a steady carrier alone, and neither it nor a LEVEL still to be sent exceeds the transmitter rating (R146). -/
structure CarrierLaw (l : Link) (rating : Nat) : Prop where
  permit : l.permit = true ↔ l.op ≠ .none ∧ l.op ≠ .settling
  level  : l.level ≠ 0 → l.op = .rampUp ∨ l.op = .steady ∨ l.op = .rampDown
  rated  : l.level ≤ rating
  sent   : ∀ x ∈ l.out, ∀ kw, x.record = .level kw → kw ≤ rating

/-- R142: with PERMIT asserted the own HELD booking names the operation terminal, or the link is still to be handed its
change, at which PERMIT falls (R143). -/
def PermitNamed (s : State) : Prop :=
  s.link.permit = true → (ownHeld s.map).map (·.1) = s.link.opTerminal ∨ Handed.heldChanged ∈ s.handed

/-- The laws of R124, R127 and R142 together. -/
structure Interlock (s : State) : Prop where
  lines   : Lines s
  closing : ClosesAlone s.mat

/-! ## States in which nothing waits -/

/-- No hand-out is under way, and the sequencer holds no end that waits, no release, no closing to begin and no deferred
search: what follows a command then comes from that command alone. -/
structure State.Calm (s : State) : Prop where
  handed  : s.handed = []
  ending  : s.seq.ending = none
  release : s.seq.cur.release = none
  await   : s.seq.cur.state ≠ .awaitTerminal
  search  : s.seq.nxt.deferred = false

/-- R170, R171: what is current agrees with the current context: the occurrence that C runs, or the one that C has spent
without one; or C prepares the next occurrence early, and nothing is current or what C has spent. -/
def State.CurrentStands (s : State) : Prop :=
  let x := s.currentEntry.map (·.key)
  let c := s.seq.cur
  match c.occ with
  | none => x = c.spent
  | some o =>
    (x = some o.key ∧ c.running = true)
      ∨ (x ≠ some o.key ∧ (x = none ∨ x = c.spent) ∧ c.running = false ∧ s.nextEntry.map (·.key) = some o.key)

/-- R170, R173: what is next agrees with the next context, which is empty when nothing is next or C has it. -/
def State.NextStands (s : State) : Prop :=
  let y := s.nextEntry.map (·.key)
  if y = none ∨ y = s.seq.cur.key then s.seq.nxt.occ = none else s.seq.nxt.key = y

/-- R169, R170: a re-evaluation finds nothing to do: the station has not been armed and cannot be yet, or both contexts
agree with what is current and next. -/
structure State.Content (s : State) : Prop where
  calm    : s.Calm
  unarmed : s.seq.armed = false → s.seq.joinedOnce = false ∨ s.clock.state = .unset
  found   : s.seq.armed = true → s.seq.foundOffer = false
  current : s.seq.armed = true → s.seq.cur.state ≠ .localHold → s.CurrentStands
  next    : s.seq.armed = true → s.NextStands

/-- R177: C has been emptied and is ENDING while its ramp-down runs, its terminal, neither read OPEN nor JAMMED, to be
released once the link has settled, or with nothing to release; the next context waits for nothing and holds another
terminal. -/
structure State.Ending (s : State) : Prop where
  handed  : s.handed = []
  ending  : s.seq.ending = none
  state   : s.seq.cur.state = .ending
  occ     : s.seq.cur.occ = none
  taken   : s.seq.cur.taken = none
  release : ∀ r, s.seq.cur.release = some r → r.stage = .settle ∧ r.waitLink = false ∧ s.seq.nxt.terminal ≠ some r.terminal
    ∧ ∀ x, s.mat.row r.terminal = some x → x.pos ≠ some .opened ∧ x.drive ≠ .jammed
  search  : s.seq.nxt.deferred = false

/-- R148, R177: how a carrier that has just been cut settles. With RF present the link stays in SETTLING and C in ENDING;
with none the operation is NONE, C is IDLE, and a terminal to be released that is read CLOSED with nothing else in hand is
opened. -/
structure State.Settles (s u : State) : Prop where
  waits   : s.rfPresent = true → u.link.op = .settling ∧ u.seq = s.seq ∧ u.mat = s.mat
  settles : s.rfPresent = false → u.link.op = .none ∧ u.link.opTerminal = none ∧ u.seq.nxt = s.seq.nxt
    ∧ u.seq.cur.state = .idle ∧ u.seq.cur.occ = none
  opens   : s.rfPresent = false → ∀ r x, s.seq.cur.release = some r → s.mat.row r.terminal = some x →
    x.pos = some .closed → x.drive = .idle → s.mat.active = none → s.mat.pendingClose = none → s.mat.openWork = [] →
    u.seq.cur.release = some { r with stage := .opening }
      ∧ u.mat = { s.mat with openWork := [{ terminal := r.terminal, purpose := .requested }] }

/-- The sequencer as reset leaves it, and no search and no admission in progress: a station that has not been armed. -/
structure State.Unarmed (s : State) : Prop where
  handed : s.handed = []
  seq    : s.seq = Sequencer.reset
  claim  : s.claim = Claim.reset
  power  : s.psu.phase = .none
  lower  : s.psu.pendingLower = none
  carry  : s.psu.releasePending = false

/-! ## The current context on the air, and its end (R171, R177) -/

/-- C runs an occurrence on the air: the carrier is STEADY and its terminal is the own HELD one, the records of the link
are sent, and neither the sequencer nor the power share unit has anything waiting. -/
structure State.OnAir (s : State) (o : Occurrence) (k : Taken) : Prop where
  calm     : s.Calm
  armed    : s.seq.armed = true
  found    : s.seq.foundOffer = false
  occ      : s.seq.cur.occ = some o
  taken    : s.seq.cur.taken = some k
  running  : s.seq.cur.running = true
  state    : s.seq.cur.state = .onAir
  mark     : s.seq.cur.onAir.isSome = true
  steadily : s.seq.cur.offSince = none
  unspent  : s.seq.cur.spent = none
  held     : (ownHeld s.map).map (·.1) = some k.terminal
  join     : s.pres.join ≠ .disabled
  link     : s.link.state ≠ .lost
  remote   : s.link.localFlag = false
  op       : s.link.op = .steady
  level    : s.link.level ≠ 0
  phase    : s.psu.phase = .none
  lower    : s.psu.pendingLower = none
  carry    : s.psu.releasePending = false

/-- R171, R172, R177, R148, R165: the occurrence on the air has ended with a code: ENTRY-OFF is written, LEVEL `kw` is
issued with the rungs down after it, the Release waits for level 0, and C is emptied into ENDING with its terminal to be
released. -/
structure State.RampsDown (s u : State) (o : Occurrence) (k : Taken) (code : EndCode) (kw : Nat) : Prop where
  record  : ∃ r, u.log.ring.getLast? = some r
    ∧ r.body = .entryOff o.source o.number code (some k.terminal) s.seq.cur.admitted s.seq.cur.trips
        (min 86400 s.seq.cur.offSecs)
  context : u.seq = { s.seq with cur := { Ctx.reset with
    state := .ending, release := some { terminal := k.terminal, stage := .settle, waitLink := false } } }
  op      : u.link.op = .rampDown
  level   : u.link.level = kw
  permit  : u.link.permit = s.link.permit
  issued  : u.link.out.map (·.record) = s.link.out.map (·.record) ++ [.level kw]
  plan    : u.link.plan =
    [{ due := u.now + 500, act := .level (max 1 (s.link.level / 2)) },
      { due := u.now + 1000, act := .level (max 1 (s.link.level / 4)) },
      { due := u.now + 1500, act := .level 0 }, { due := u.now + 2000, act := .rfOff }]
  power   : kw ≠ 0 → u.psu = { s.psu with releasePending := true }

/-! ## A crosspoint switched, and a tune on it (R142, R144) -/

/-- R142: what a terminal needs for a tune, but for the link: it alone is read CLOSED, no drive is active, and the own
HELD booking names it. -/
structure State.Switched (s : State) (x : Nat) : Prop where
  closed : s.mat.onlyClosed x = true
  atRest : s.mat.active = none
  held   : (ownHeld s.map).map (·.1) = some x

/-- R144, R175: a tune for an occurrence on a terminal has been started: PERMIT is asserted, TUNE and PROGRAMME follow the
records issued before, the tune limit runs, and the occurrence is TUNING. -/
structure State.Tunes (u : State) (o : Occurrence) (x : Nat) (issued : List TxRecord) : Prop where
  permit   : u.link.permit = true
  op       : u.link.op = .tuning
  terminal : u.link.opTerminal = some x
  seen     : u.link.seenClear = false
  deadline : u.link.tuneDeadline = some (u.now + u.cfg.tune * 1000)
  records  : u.link.out.map (·.record) = issued ++ [.tune o.prog.freq o.prog.mode, .programme o.prog.programme]
  occ      : u.seq.cur.occ = some o
  state    : u.seq.cur.state = .tuning

/-! ## Frames on the bus -/

/-- The frame in the attempt belongs to a holder whose owner takes no notice, and is not removed. -/
structure Bus.PlainAttempt (b : Bus) (a : Attempt) : Prop where
  attempt : b.attempt = some a
  stays   : a.removed = false
  holder  : a.holder = .deny ∨ a.holder = .free ∨ a.holder = .notice ∨ a.holder = .fault ∨ a.holder = .logrec

/-- A frame of another station that passes the receive checks (R58, R59), at a station that hands it on (R61). -/
structure Handled (s : State) (k : RxKind) (f : RxFrame) : Prop where
  length : f.payload.length = k.length
  checks : passesChecks k f = true
  other  : f.sender.toNat ≠ s.cfg.station
  image  : s.image = some .accepted
  join   : s.pres.join ≠ .disabled

/-! ## A booking learned from a frame (R78) -/

/-- R78: what becomes of bookings `old` of a terminal, in the order of their froms, when a HEARD booking `b` is entered
among them: with a slot left it joins them; with none left it takes the place of the HEARD BOOKED booking with the latest
from, if it starts before that one; otherwise it is not entered. -/
structure TakesRoom (old : List Booking) (b : Booking) (new : List Booking) : Prop where
  room  : old.length < 4 → ∀ x, x ∈ new ↔ x = b ∨ x ∈ old
  evict : 4 ≤ old.length → ∀ e ∈ old, e.state = .booked → e.source = .heard →
    (∀ x ∈ old, x.state = .booked → x.source = .heard → x = e ∨ x.since < e.since) →
    (b.since < e.since → ∀ x, x ∈ new ↔ x = b ∨ x ∈ old.erase e) ∧ (e.since ≤ b.since → new = old)
  full  : 4 ≤ old.length → (∀ x ∈ old, ¬ (x.state = .booked ∧ x.source = .heard)) → new = old

end Sys2Proof.Machine
end

