-- ==== Sys2Proof/WellFormed.lean ====
section
/-! DEFINITION. What a command term must satisfy to stand for something that can happen at the part's connections. -/

namespace Sys2Proof

/-- R41: a payload has 0 to 16 bytes, and a frame's end comes after its start. -/
def RxFrame.wf (at_ : Nat) (f : RxFrame) : Bool :=
  decide (f.payload.length ≤ 16) && decide (f.start ≤ at_)

/-- Section 11.5: the image has room for 40 reach records. -/
def RawImage.wf (r : RawImage) : Bool := r.reach.length == 40

/-- Section 1.6 and R191: an image that was read has 40 reach records; a memory that does not answer reads none. -/
def imageWf : Option RawImage → Bool
  | none => true
  | some r => r.wf

/-- R140: a REPORT has kind 8 and length 6, flag bits 7 to 4 zero, and a byte sum of 0 modulo 256. -/
def reportWf (bytes : List Byte) : Bool :=
  bytes.length == 6 && bytes.getD 0 0 == 8 && decide ((bytes.getD 1 0).toNat < 16) && (bytes.map BitVec.toNat).sum % 256 == 0

/-- Every command but those listed is well formed whatever its time. -/
def Instr.wellFormed : Instr → Bool
  | .handOver _ image _ => imageWf image
  | .denyReceived t f => f.wf t
  | .freeReceived t f => f.wf t
  | .claimReceived t f => f.wf t
  | .intentReceived t f => f.wf t
  | .noticeReceived t f => f.wf t
  | .faultReceived t f => f.wf t
  | .timeReceived t f => f.wf t
  | .requestReceived t f => f.wf t
  | .otherFrameReceived t _ f => f.wf t
  | .unknownKindFrameReceived t _ f => f.wf t
  | .reportReceived _ b => reportWf b
  | .txRecordDiscarded _ b => ! reportWf b
  | .reset => true
  | .bankOpen _ => true
  | .entryPut _ => true
  | .bankClose _ => true
  | .extraPut _ => true
  | .extraDrop _ => true
  | .entryGet _ => true
  | .logGet _ => true
  | .statusGet _ => true
  | .serialMemoryWriteEnd _ _ => true
  | .busIdleOffer _ => true
  | .arbitrationLost _ => true
  | .attemptSucceeded _ => true
  | .attemptFailed _ => true
  | .frameCrcBad _ => true
  | .minuteBoundary _ => true
  | .holdoverExpiry _ => true
  | .clockRangeEnd _ => true
  | .listeningTimerExpiry _ => true
  | .learningTimerExpiry _ => true
  | .silenceDeadline _ => true
  | .noticePeriod _ => true
  | .noticePendingDue _ => true
  | .bookingAging _ => true
  | .bookedExpiry _ => true
  | .suspectExpiry _ => true
  | .matrixScan _ _ => true
  | .driveTimeout _ => true
  | .recoveryDriveTimeout _ => true
  | .rfPresentActive _ => true
  | .rfPresentInactive _ => true
  | .linkLossDeadline _ => true
  | .tuneDeadline _ => true
  | .rampRungDue _ => true
  | .rampDownRungDue _ => true
  | .tripAsserted _ => true
  | .tripDeasserted _ => true
  | .tripWindowExpiry _ => true
  | .recycleTime _ => true
  | .intentWindowEnd _ => true
  | .backoffEnd _ => true
  | .intentExpiry _ => true
  | .claimWindowEnd _ => true
  | .claimRetry _ => true
  | .claimWatch _ => true
  | .rampTime _ => true
  | .sequencerRetry _ => true

/-- The local time at which a command is taken; RESET has none (R25). -/
def Instr.time : Instr → Option Nat
  | .reset => none
  | .handOver t _ _ => some t
  | .bankOpen t => some t
  | .entryPut t => some t
  | .bankClose t => some t
  | .extraPut t => some t
  | .extraDrop t => some t
  | .entryGet t => some t
  | .logGet t => some t
  | .statusGet t => some t
  | .serialMemoryWriteEnd t _ => some t
  | .busIdleOffer t => some t
  | .arbitrationLost t => some t
  | .attemptSucceeded t => some t
  | .attemptFailed t => some t
  | .frameCrcBad t => some t
  | .denyReceived t _ => some t
  | .freeReceived t _ => some t
  | .claimReceived t _ => some t
  | .intentReceived t _ => some t
  | .noticeReceived t _ => some t
  | .faultReceived t _ => some t
  | .timeReceived t _ => some t
  | .requestReceived t _ => some t
  | .otherFrameReceived t _ _ => some t
  | .minuteBoundary t => some t
  | .holdoverExpiry t => some t
  | .clockRangeEnd t => some t
  | .listeningTimerExpiry t => some t
  | .learningTimerExpiry t => some t
  | .silenceDeadline t => some t
  | .noticePeriod t => some t
  | .noticePendingDue t => some t
  | .bookingAging t => some t
  | .bookedExpiry t => some t
  | .suspectExpiry t => some t
  | .matrixScan t _ => some t
  | .driveTimeout t => some t
  | .recoveryDriveTimeout t => some t
  | .rfPresentActive t => some t
  | .rfPresentInactive t => some t
  | .reportReceived t _ => some t
  | .txRecordDiscarded t _ => some t
  | .linkLossDeadline t => some t
  | .tuneDeadline t => some t
  | .rampRungDue t => some t
  | .rampDownRungDue t => some t
  | .tripAsserted t => some t
  | .tripDeasserted t => some t
  | .tripWindowExpiry t => some t
  | .recycleTime t => some t
  | .intentWindowEnd t => some t
  | .backoffEnd t => some t
  | .intentExpiry t => some t
  | .claimWindowEnd t => some t
  | .claimRetry t => some t
  | .claimWatch t => some t
  | .rampTime t => some t
  | .sequencerRetry t => some t
  | .unknownKindFrameReceived t _ _ => some t

/-- The received frame that a command carries. -/
def Instr.frame : Instr → Option RxFrame
  | .reset => none
  | .handOver _ _ _ => none
  | .bankOpen _ => none
  | .entryPut _ => none
  | .bankClose _ => none
  | .extraPut _ => none
  | .extraDrop _ => none
  | .entryGet _ => none
  | .logGet _ => none
  | .statusGet _ => none
  | .serialMemoryWriteEnd _ _ => none
  | .busIdleOffer _ => none
  | .arbitrationLost _ => none
  | .attemptSucceeded _ => none
  | .attemptFailed _ => none
  | .frameCrcBad _ => none
  | .denyReceived _ f => some f
  | .freeReceived _ f => some f
  | .claimReceived _ f => some f
  | .intentReceived _ f => some f
  | .noticeReceived _ f => some f
  | .faultReceived _ f => some f
  | .timeReceived _ f => some f
  | .requestReceived _ f => some f
  | .otherFrameReceived _ _ f => some f
  | .minuteBoundary _ => none
  | .holdoverExpiry _ => none
  | .clockRangeEnd _ => none
  | .listeningTimerExpiry _ => none
  | .learningTimerExpiry _ => none
  | .silenceDeadline _ => none
  | .noticePeriod _ => none
  | .noticePendingDue _ => none
  | .bookingAging _ => none
  | .bookedExpiry _ => none
  | .suspectExpiry _ => none
  | .matrixScan _ _ => none
  | .driveTimeout _ => none
  | .recoveryDriveTimeout _ => none
  | .rfPresentActive _ => none
  | .rfPresentInactive _ => none
  | .reportReceived _ _ => none
  | .txRecordDiscarded _ _ => none
  | .linkLossDeadline _ => none
  | .tuneDeadline _ => none
  | .rampRungDue _ => none
  | .rampDownRungDue _ => none
  | .tripAsserted _ => none
  | .tripDeasserted _ => none
  | .tripWindowExpiry _ => none
  | .recycleTime _ => none
  | .intentWindowEnd _ => none
  | .backoffEnd _ => none
  | .intentExpiry _ => none
  | .claimWindowEnd _ => none
  | .claimRetry _ => none
  | .claimWatch _ => none
  | .rampTime _ => none
  | .sequencerRetry _ => none
  | .unknownKindFrameReceived _ _ f => some f

end Sys2Proof
end

