-- ==== Sys2Proof/Certificates/Slice0/Obligations.lean ====
section
/-! DEFINITION. The statements for the provers, each a Prop that says what its name states. `s.atTime t` is the state at
the command's time (R25): local time moved on, transmitter records whose last byte has been sent gone from the output
queue. -/

open Sys2Proof Sys2Proof.Machine

/-! ## The step and the queue -/

/-- The command at the front of the queue is run on the state with the queue's rest. -/
def Obligations.StepRunsTheFrontCommand : Prop :=
  ∀ (s : State) (c : Instr) (rest : List Instr),
    step { s with pending := c :: rest } = exec c { s with pending := rest }

/-- R25: local time rises by one each millisecond. The model's choice (notes/assumptions/2.md): it does so in a step
that finds the queue empty, and such a step puts into the queue exactly what is then due. -/
def Obligations.IdleStepIsOneMillisecond : Prop :=
  ∀ s : State, s.pending = [] →
    step s = .next { s.atTime (s.now + 1) with
      pending := (s.atTime (s.now + 1)).dueRequest ++ (s.atTime (s.now + 1)).dueTimed }

/-- No command is refused and none stops the part: each answers a next state, in every state. R25: local time runs on
whatever happens; only RESET starts it again. The model's choice (notes/assumptions/1.md): a command brings it to the
command's own time, never back. No command touches the queue of waiting commands. -/
def Obligations.EveryCommandAnswersAndTimeNeverGoesBack : Prop :=
  ∀ (c : Instr) (s : State), ∃ t, exec c s = .next t ∧ t.pending = s.pending ∧ t.now = match c.time with
    | some u => max s.now u
    | none => 0

/-- Configuration is settled once, at start: only RESET and HAND_OVER change it or the image-check result. -/
def Obligations.ConfigurationIsSettledAtTheHandOver : Prop :=
  ∀ (c : Instr) (s t : State), exec c s = .next t → c ≠ .reset → (∀ u i k, c ≠ .handOver u i k) →
    t.cfg = s.cfg ∧ t.image = s.image

/-! ## Reset and start-up -/

/-- R17, R25 and the columns "After reset": what RESET leaves. The serial memory stays but for a write that was cut
short (notes/assumptions/8.md); the input lines are the partners' (notes/assumptions/7.md). -/
def Obligations.ResetLeavesTheResetValues : Prop :=
  ∀ s : State, ∃ t, exec .reset s = .next t ∧ t.now = 0 ∧ t.image = none ∧ t.store = Store.reset
    ∧ t.store.extras = List.replicate 8 none ∧ t.store.bankA.state = .empty ∧ t.store.bankB.state = .empty
    ∧ t.clock = Clock.reset ∧ t.clock.state = .unset ∧ t.log.ring = [] ∧ t.log.nextSeq = 0 ∧ t.req = Requests.reset
    ∧ t.alert.asserted = false ∧ t.bus = Bus.reset ∧ t.pres = Presence.reset ∧ t.pres.join = .listening ∧ t.map = []
    ∧ t.claim = Claim.reset ∧ t.mat = Matrix.reset ∧ t.link = Link.reset ∧ t.link.permit = false ∧ t.link.level = 0
    ∧ t.psu = Power.reset ∧ t.seq = Sequencer.reset ∧ t.handed = []
    ∧ t.serial = s.serial.cutShort ∧ t.rfPresent = s.rfPresent ∧ t.tripLine = s.tripLine ∧ t.pending = s.pending

/-- R192, R62, a rejected image: START with the image-check result is the first record, with the number that the first had,
those of a clock set before it (notes/assumptions/68.md) follow it, and JOIN is the newest; the join state becomes DISABLED
and the banks are not read. -/
def Obligations.RejectedImageDisablesTheStation : Prop :=
  ∀ (s : State) (t : Nat) (image : Option RawImage) (scan : Contacts),
    s.Unarmed → s.image = none → s.pres.join = .listening → s.log.ring.length ≤ 62 → imageResult image ≠ .accepted →
    ∃ u a b, exec (.handOver t image scan) s = .next u
      ∧ u.image = some (imageResult image) ∧ u.pres.join = .disabled ∧ u.alert.disabled = true
      ∧ a.body = .start (imageResult image) 0 0 0 ∧ b.body = .join .disabled .listening .config
      ∧ a.seq = s.log.nextSeq - BitVec.ofNat 16 s.log.ring.length
      ∧ u.log.ring = a :: (s.log.ring.map fun r => { r with seq := r.seq + 1 }) ++ [b]
      ∧ u.store = s.store ∧ u.map = s.map ∧ u.cfg = s.cfg ∧ u.mat = s.mat ∧ u.serial = s.serial

/-- R192, R191, R139, R156, R62, R16, R93, R134, an accepted image (its bytes: notes/assumptions/5.md). The configuration
is in force with each value brought to the nearest end of its range; of the reach records used, the first of each terminal
gives its row, with the DEDICATED booking it names. START counts what was clamped and dropped and is the first record, then
come those of a clock set before it (notes/assumptions/68.md), the BANKLOST records and JOIN.

Each bank is read back: with every slot named there, the sums right and every entry in range it stands as its header says,
and else it is EMPTY, a BANKLOST record gives the cause, and the EMPTY header is issued for writing. Of two LIVE banks B is
SPENT, with its header; that a LIVE header on a lost bank makes nothing SPENT is the model's choice
(notes/assumptions/56.md).

Every own crosspoint is read from the scan. The lowest terminal read CLOSED is the own HELD one, class 3, open-ended and
found, and with more than one it bears the release mark and its opening waits.

The listening timer and the report deadline run and the announced demand is the standby demand (the link and the power share
unit take their reset values at the hand-over: notes/assumptions/50.md). -/
def Obligations.AcceptedImageIsTakenIntoForce : Prop :=
  ∀ (s : State) (t : Nat) (r : RawImage) (scan : Contacts),
    s.Unarmed → s.image = none → imageResult (some r) = .accepted →
    let clamp (lo hi v : Nat) : Nat := max lo (min hi v)
    let time (ifZero lo hi v : Nat) : Nat := if v = 0 then ifZero else clamp lo hi v
    let changed (old new : Nat) : Nat := if old = new then 0 else 1
    let used := r.reach.take (clamp 1 40 r.reachCount.toNat)
    let row (q : RawReach) : TermRow :=
      let low := clamp 2300 26100 q.low.toNat
      let owner := clamp 0 30 q.dedicated.toNat
      { number := clamp 0 39 q.terminal.toNat, load := decide (1 ≤ q.kind.toNat), low := low,
        high := max low (clamp 2300 26100 q.high.toNat), rating := clamp 1 999 q.rating.toNat, dedicated := owner,
        suspect := none, occRun := 0, freeRun := 0,
        slots := if owner = 0 then [] else
          [{ owner := owner, state := .dedicated, cls := 0, since := 0, till := none, source := .config, heard := none,
             found := false }] }
    let rowChanges (q : RawReach) : Nat :=
      changed q.terminal.toNat (row q).number + changed q.kind.toNat (min 1 q.kind.toNat)
        + changed q.low.toNat (row q).low + changed q.high.toNat (row q).high + changed q.rating.toNat (row q).rating
        + changed q.dedicated.toNat (row q).dedicated
    let fmin := clamp 2300 26100 r.fmin.toNat
    let limit := clamp 100 20000 r.limit.toNat
    ∃ u, exec (.handOver t (some r) scan) s = .next u
      ∧ u.image = some .accepted ∧ u.pres.join = s.pres.join
      ∧ u.cfg =
        { station := r.station.toNat, rating := clamp 1 999 r.rating.toNat, fmin := fmin,
          fmax := max fmin (clamp 2300 26100 r.fmax.toNat), standby := clamp 0 200 r.standby.toNat,
          efficiency := clamp 40 95 r.efficiency.toNat, limit := limit, reserve := clamp 0 limit r.reserve.toNat,
          lead := time 120 30 600 r.lead.toNat, tune := time 90 20 180 r.tune.toNat }
      ∧ u.map.map (·.number) = (used.map fun q => (row q).number).eraseDups
      ∧ u.pres.listening = some (u.now + 3000)
      ∧ u.link = { Link.reset with lossDeadline := some (u.now + 3000) }
      ∧ u.psu = { Power.reset with announced := u.cfg.standby, ceiling := u.cfg.standby }
      ∧ u.mat.rows.map (fun x => (x.terminal, x.pos, x.sense, x.drive))
        = (u.map.map fun q => (q.number, some (readPosition scan q.number), some (readSense scan q.number), .idle))
      ∧ (let closed := (u.map.map (·.number)).filter fun n => readPosition scan n == .closed
        (∀ q ∈ u.map, ∃ p, used.find? (fun p => (row p).number == q.number) = some p ∧ q = { row p with
            slots := (row p).slots ++ if q.number ∈ closed ∧ ∀ n ∈ closed, q.number ≤ n then
              [{ owner := u.cfg.station, state := .held, cls := 3, since := (u.now / 1000 : Nat), till := none,
                 source := .own, heard := none, found := true }] else [] })
        ∧ (closed.length ≤ 1 → u.mat.releaseMark = none ∧ u.mat.openWork = [])
        ∧ (∀ x ∈ closed, (∀ n ∈ closed, x ≤ n) → 1 < closed.length →
            u.mat.releaseMark = some x ∧ u.mat.openWork = [{ terminal := x, purpose := .release }]))
      ∧ (let header (bk : Bank) : StoredHeader := (s.serial.bank bk).header
        let loss (bk : Bank) : Option (Nat × Option Nat) :=
          match (s.serial.bank bk).entries with
          | none => some (1, none)
          | some es =>
            if (header bk).intact = false
                ∨ bankSum bk (header bk).state (header bk).label (header bk).instant es ≠ (header bk).sum then some (1, none)
            else if (header bk).state = .empty then none
            else if (header bk).state = .loading then some (0, none)
            else (es.find? fun e => (entryFail u.cfg u.map e.number e.days.toNat e.prog.toRaw).isSome).map fun e =>
              (2, some e.number)
        let found (bk : Bank) : BankData :=
          if (loss bk).isSome = true ∨ (header bk).state = .empty then
            { state := .empty, label := 0, instant := none, entries := [] }
          else { state := (header bk).state, label := (header bk).label, instant := (header bk).instant,
                 entries := (s.serial.bank bk).entries.getD [] }
        let both : Bool := decide ((found .a).state = .live) && decide ((found .b).state = .live)
        u.store = { s.store with
            bankA := found .a, bankB := { found .b with state := if both then .spent else (found .b).state } }
          ∧ u.serial = { s.serial with writes := s.serial.writes
              ++ ([Bank.a, Bank.b].filter fun bk => (loss bk).isSome || (both && bk == .b)).map fun bk =>
                  { what := .header bk ((u.store.bank bk).header bk), reply := none } }
          ∧ (s.log.ring.length ≤ 60 → u.log.ring.map (·.body) =
              .start .accepted u.cfg.station u.map.length
                  (changed r.rating.toNat u.cfg.rating + changed r.fmin.toNat u.cfg.fmin + changed r.fmax.toNat u.cfg.fmax
                    + changed r.standby.toNat u.cfg.standby + changed r.efficiency.toNat u.cfg.efficiency
                    + changed r.limit.toNat u.cfg.limit + changed r.reserve.toNat u.cfg.reserve
                    + (if r.lead.toNat = 0 then 0 else changed r.lead.toNat u.cfg.lead)
                    + (if r.tune.toNat = 0 then 0 else changed r.tune.toNat u.cfg.tune)
                    + changed r.reachCount.toNat (clamp 1 40 r.reachCount.toNat) + (used.map rowChanges).sum
                    + (used.length - u.map.length))
                :: s.log.ring.map (·.body)
                ++ ([Bank.a, Bank.b].filterMap fun bk => (loss bk).map fun l => .bankLost bk l.1 l.2)
                ++ [.join .listening .listening .start]))

/-! ## Schedule requests -/

/-- R9: an EMPTY, SPENT or READY bank becomes LOADING with nothing in it, its LOADING header with the sum over it is
issued for writing and DONE waits on it; a LIVE or LOADING bank is refused STATE, and a bank field above 1 RANGE. The
head request is not yet being served (R186, R187, R189). The opening of a READY bank is told to the sequencer, whose
re-evaluation finds nothing to do without that bank. -/
def Obligations.BankOpenTakesABankNotInUse : Prop :=
  ∀ (s : State) (t : Nat) (p : List Byte) (rest : List (List Byte)),
    s.handed = [] → s.pres.join ≠ .disabled → s.req = { queue := p :: rest, serving := false } → requestKind p = 0 →
    (∀ bk, bankOfCode (byteAt p 2) = some bk →
      let opened := s.store.setBank bk { state := .loading, label := 0, instant := none, entries := [] }
      (((s.store.bank bk).state = .empty ∨ (s.store.bank bk).state = .spent
          ∨ ((s.store.bank bk).state = .ready ∧ State.Content { s.atTime t with store := opened })) →
        let h : StoredHeader := (opened.bank bk).header bk
        h.state = .loading ∧ h.label = 0 ∧ h.instant = none ∧ h.entrySet = [] ∧ h.count = 0
          ∧ h.sum = bankSum bk .loading 0 none []
          ∧ exec (.bankOpen t) s = .next { s.atTime t with
            req := { s.req with serving := true },
            store := opened,
            serial := { s.serial with writes := s.serial.writes ++
              [{ what := .header bk h, reply := some { kind := 0, code := .done, data := [1] } }] } })
      ∧ (((s.store.bank bk).state = .live ∨ (s.store.bank bk).state = .loading) →
        exec (.bankOpen t) s = .next { s.atTime t with
          req := { s.req with serving := true },
          bus := { s.bus with
            reply := some { kind := 0, code := .state, data := [byteOf (s.store.bank bk).state.code] } } }))
    ∧ (1 < byteAt p 2 → exec (.bankOpen t) s = .next { s.atTime t with
        req := { s.req with serving := true },
        bus := { s.bus with reply := some { kind := 0, code := .range, data := [1, 0] } } })

/-- R10: with every check passed the record takes the slot of its number in the LOADING bank, its write is issued and
DONE waits on it; a bank field above 1 is refused RANGE, a bank that is not LOADING STATE, a record out of range RANGE
with the field, and a record that meets another entry OVERLAP with its number, and then nothing is stored. -/
def Obligations.EntryPutStoresACheckedRecord : Prop :=
  ∀ (s : State) (t : Nat) (p : List Byte) (rest : List (List Byte)) (mode : Mode),
    s.handed = [] → s.pres.join ≠ .disabled → s.req = { queue := p :: rest, serving := false } → requestKind p = 1 →
    (∀ bk, bankOfCode (byteAt p 2) = some bk →
      let d := s.store.bank bk
      let e : Entry :=
        { number := byteAt p 3, days := BitVec.ofNat 7 (byteAt p 4), prog := (rawProgAt p).toProg mode }
      (d.state = .loading → entryFail s.cfg s.map (byteAt p 3) (byteAt p 4) (rawProgAt p) = none →
        modeOfCode (rawProgAt p).mode = some mode → firstOverlap e d.entries = none →
        exec (.entryPut t) s = .next { s.atTime t with
          req := { s.req with serving := true },
          store := s.store.setBank bk { d with entries := putEntry e d.entries },
          serial := { s.serial with writes := s.serial.writes ++
            [{ what := .slot bk e, reply := some { kind := 1, code := .done, data := [1] } }] } })
      ∧ (∀ n, d.state = .loading → entryFail s.cfg s.map (byteAt p 3) (byteAt p 4) (rawProgAt p) = none →
        modeOfCode (rawProgAt p).mode = some mode → firstOverlap e d.entries = some n →
        exec (.entryPut t) s = .next { s.atTime t with
          req := { s.req with serving := true },
          bus := { s.bus with reply := some { kind := 1, code := .overlap, data := [byteOf n] } } })
      ∧ (∀ field place, d.state = .loading →
        entryFail s.cfg s.map (byteAt p 3) (byteAt p 4) (rawProgAt p) = some (field, place) →
        exec (.entryPut t) s = .next { s.atTime t with
          req := { s.req with serving := true },
          bus := { s.bus with
            reply := some { kind := 1, code := .range, data := [byteOf field.code, byteOf place] } } })
      ∧ (d.state ≠ .loading →
        exec (.entryPut t) s = .next { s.atTime t with
          req := { s.req with serving := true },
          bus := { s.bus with reply := some { kind := 1, code := .state, data := [byteOf d.state.code] } } }))
    ∧ (1 < byteAt p 2 → exec (.entryPut t) s = .next { s.atTime t with
        req := { s.req with serving := true },
        bus := { s.bus with reply := some { kind := 1, code := .range, data := [1, 0] } } })

/-- R11: with every check passed the bank becomes READY with the label and the instant, its header, with the sum over it
and the entries, is issued for writing and DONE waits on it (the sequencer, told of it, finds nothing to do with the
READY bank); a bank field above 1 is refused RANGE, a bank that is not LOADING STATE, a count, date, minute or instant
out of range RANGE with the field, and a count that differs COUNT, and then the bank stays as it is. That a bad date
fails as the instant is the model's choice (notes/assumptions/71.md). -/
def Obligations.BankCloseMakesTheBankReady : Prop :=
  ∀ (s : State) (t : Nat) (p : List Byte) (rest : List (List Byte)),
    s.handed = [] → s.pres.join ≠ .disabled → s.req = { queue := p :: rest, serving := false } → requestKind p = 2 →
    (∀ bk, bankOfCode (byteAt p 2) = some bk →
      let d := s.store.bank bk
      let closed := s.store.setBank bk { d with
        state := .ready, label := byteAt p 4,
        instant := some (instantOf (2000 + byteAt p 5) (byteAt p 6) (byteAt p 7) (wordAt p 8)) }
      (d.state = .loading → closeFail s.store bk p = none → byteAt p 3 = d.entries.length →
        State.Content { s.atTime t with store := closed } →
        let h : StoredHeader := (closed.bank bk).header bk
        let x := instantOf (2000 + byteAt p 5) (byteAt p 6) (byteAt p 7) (wordAt p 8)
        h.state = .ready ∧ h.label = byteAt p 4 ∧ h.instant = some x ∧ h.entrySet = d.entries.map (·.number)
          ∧ h.count = d.entries.length ∧ h.sum = bankSum bk .ready (byteAt p 4) (some x) d.entries
          ∧ exec (.bankClose t) s = .next { s.atTime t with
            req := { s.req with serving := true },
            store := closed,
            serial := { s.serial with writes := s.serial.writes ++
              [{ what := .header bk h, reply := some { kind := 2, code := .done, data := [2] } }] } })
      ∧ (d.state = .loading → closeFail s.store bk p = none → byteAt p 3 ≠ d.entries.length →
        exec (.bankClose t) s = .next { s.atTime t with
          req := { s.req with serving := true },
          bus := { s.bus with reply := some { kind := 2, code := .count, data := [byteOf d.entries.length] } } })
      ∧ (∀ field place, d.state = .loading → closeFail s.store bk p = some (field, place) →
        exec (.bankClose t) s = .next { s.atTime t with
          req := { s.req with serving := true },
          bus := { s.bus with
            reply := some { kind := 2, code := .range, data := [byteOf field.code, byteOf place] } } })
      ∧ (d.state ≠ .loading →
        exec (.bankClose t) s = .next { s.atTime t with
          req := { s.req with serving := true },
          bus := { s.bus with reply := some { kind := 2, code := .state, data := [byteOf d.state.code] } } }))
    ∧ (1 < byteAt p 2 → exec (.bankClose t) s = .next { s.atTime t with
        req := { s.req with serving := true },
        bus := { s.bus with reply := some { kind := 2, code := .range, data := [1, 0] } } })

/-- R12: with the clock set and every check passed the extra takes its slot, whatever the slot held, and DONE names the
slot (the sequencer, told of what leaves the slot and of what enters it, finds nothing to do each time); a record out of
range is refused RANGE with the field, one that meets another extra OVERLAP with its slot, and with the clock UNSET the
request is refused STATE, and then nothing is stored. -/
def Obligations.ExtraPutStoresTheExtra : Prop :=
  ∀ (s : State) (t : Nat) (p : List Byte) (rest : List (List Byte)) (mode : Mode),
    s.handed = [] → s.pres.join ≠ .disabled → s.req = { queue := p :: rest, serving := false } → requestKind p = 3 →
    (modeOfCode (rawProgAt p).mode).getD .am = mode →
    let slot := byteAt p 2 / 32
    let filled (x : Option Extra) : Store := { s.store with extras := s.store.extras.set slot x }
    (∀ i, (s.atTime t).instant = some i → extraFail s.cfg s.map i (extraOf p mode) (rawProgAt p) = none →
      firstExtraOverlap slot (extraOf p mode) s.store.extras = none →
      ((s.store.extras.getD slot none).isSome = true → State.Content { s.atTime t with store := filled none }) →
      State.Content { s.atTime t with store := filled (some (extraOf p mode)) } →
      exec (.extraPut t) s = .next { s.atTime t with
        req := { s.req with serving := true },
        store := filled (some (extraOf p mode)),
        bus := { s.bus with reply := some { kind := 3, code := .done, data := [byteOf slot] } } })
    ∧ (∀ i field place, (s.atTime t).instant = some i →
      extraFail s.cfg s.map i (extraOf p mode) (rawProgAt p) = some (field, place) →
      exec (.extraPut t) s = .next { s.atTime t with
        req := { s.req with serving := true },
        bus := { s.bus with
          reply := some { kind := 3, code := .range, data := [byteOf field.code, byteOf place] } } })
    ∧ (∀ i n, (s.atTime t).instant = some i → extraFail s.cfg s.map i (extraOf p mode) (rawProgAt p) = none →
      firstExtraOverlap slot (extraOf p mode) s.store.extras = some n →
      exec (.extraPut t) s = .next { s.atTime t with
        req := { s.req with serving := true },
        bus := { s.bus with reply := some { kind := 3, code := .overlap, data := [byteOf n] } } })
    ∧ (s.clock.state = .unset →
      exec (.extraPut t) s = .next { s.atTime t with
        req := { s.req with serving := true },
        bus := { s.bus with reply := some { kind := 3, code := .state, data := [0] } } })

/-- R13: a held slot is emptied and DONE is answered (the sequencer, told of it, finds nothing to do without the extra);
a slot above 7 is refused RANGE, an empty one GONE. R171, R177, R178: with the extra on the air, and nothing current or next
without it, DONE is answered and the occurrence is cut: ENTRY-OFF CUT, and the carrier ramps down (C stays in ENDING
meanwhile: notes/assumptions/21.md). -/
def Obligations.ExtraDropEmptiesTheSlot : Prop :=
  ∀ (s : State) (t : Nat) (p : List Byte) (rest : List (List Byte)),
    s.handed = [] → s.pres.join ≠ .disabled → s.req = { queue := p :: rest, serving := false } → requestKind p = 4 →
    let dropped : State :=
      { s.atTime t with store := { s.store with extras := s.store.extras.set (byteAt p 2) none } }
    ((byteAt p 2 ≤ 7 → (s.store.extras.getD (byteAt p 2) none).isSome = true → dropped.Content) →
      exec (.extraDrop t) s = .next { s.atTime t with
        req := { s.req with serving := true },
        store := { s.store with
          extras := if byteAt p 2 ≤ 7 then s.store.extras.set (byteAt p 2) none else s.store.extras },
        bus := { s.bus with
          reply := some
            (if 7 < byteAt p 2 then { kind := 4, code := .range, data := [12, 0] }
             else match s.store.extras.getD (byteAt p 2) none with
              | none => { kind := 4, code := .gone, data := [] }
              | some _ => { kind := 4, code := .done, data := [byteOf (byteAt p 2)] }) } })
    ∧ (∀ o k q, byteAt p 2 ≤ 7 → (s.store.extras.getD (byteAt p 2) none).isSome = true → s.OnAir o k →
      s.seq.nxt = Ctx.reset → s.link.ramp = some q → dropped.currentEntry = none → dropped.nextEntry = none →
      ∃ u, exec (.extraDrop t) s = .next u ∧ u.store = dropped.store
        ∧ u.bus.reply = some { kind := 4, code := .done, data := [byteOf (byteAt p 2)] }
        ∧ (s.atTime t).RampsDown u o k .cut (min (max 1 (s.link.level * 3 / 4)) ((s.atTime t).levelLimit q.carrier))
        ∧ u.map = s.map ∧ u.mat = s.mat)

/-- R14: ENTRY-GET reads a bank in any state and changes nothing but the REPLY slot: RANGE for a bank field above 1, then
RANGE for a number above 127, the record as held for a number of the entry set, else GONE. -/
def Obligations.EntryGetReadsTheBank : Prop :=
  ∀ (s : State) (t : Nat) (p : List Byte) (rest : List (List Byte)),
    s.handed = [] → s.pres.join ≠ .disabled → s.req = { queue := p :: rest, serving := false } → requestKind p = 5 →
    exec (.entryGet t) s = .next { s.atTime t with
      req := { s.req with serving := true },
      bus := { s.bus with
        reply := some
          (match bankOfCode (byteAt p 2) with
           | none => { kind := 5, code := .range, data := [1, 0] }
           | some bk =>
             if 127 < byteAt p 3 then { kind := 5, code := .range, data := [2, 0] }
             else match (s.store.bank bk).entries.find? (·.number == byteAt p 3) with
               | some e => { kind := 5, code := .done, data := entryBytes bk e }
               | none => { kind := 5, code := .gone, data := [] }) } }

/-- R185 on a ring whose sequence numbers run without a gap (the law of R184): the record with the number asked for is
answered while the ring holds it, else GONE. -/
def Obligations.LogGetReadsTheRing : Prop :=
  ∀ (s : State) (t : Nat) (p : List Byte) (rest : List (List Byte)),
    s.handed = [] → s.pres.join ≠ .disabled → s.log.Numbered → s.req = { queue := p :: rest, serving := false } →
    requestKind p = 6 →
    exec (.logGet t) s = .next { s.atTime t with
      req := { s.req with serving := true },
      bus := { s.bus with
        reply := some
          (match s.log.ring.find? fun r => r.seq.toNat == wordAt p 2 with
            | some r => { kind := 6, code := .done, data := logrecBytes r }
            | none => { kind := 6, code := .gone, data := [] }) } }

/-- R188: STATUS-GET is answered DONE with the values held when it is taken, in the layout of R48, in every join state;
it has no fields and cannot be refused. Byte 6 is the entry number or the extra slot of the current source; with no
current source R48 gives it no value, and it is any byte. -/
def Obligations.StatusGetAnswersTheHeldValues : Prop :=
  ∀ (s : State) (t : Nat) (p : List Byte) (rest : List (List Byte)),
    s.handed = [] → s.req = { queue := p :: rest, serving := false } → requestKind p = 7 →
    ∃ b : Byte,
      (∀ bk n, s.seq.cur.occ.map (·.source) = some (.bank bk n) → b = byteOf n)
      ∧ (∀ slot, s.seq.cur.occ.map (·.source) = some (.extra slot) → b = byteOf slot)
      ∧ exec (.statusGet t) s = .next { s.atTime t with
        req := { s.req with serving := true },
        bus := { s.bus with
          reply := some
            { kind := 7, code := .done,
              data :=
                [byteOf s.pres.join.code, byteOf s.clock.state.code, byteOf s.seq.cur.state.code,
                  byteOf (sourceKind (s.seq.cur.occ.map (·.source))), b,
                  byteOf (((ownHeld s.map).map (·.1)).getD 255), byteOf (s.psu.announced / 256),
                  byteOf s.psu.announced,
                  byteOf (s.store.bankA.state.code * 16 + s.store.bankB.state.code), s.alert.byte] } } }

/-- R15, R187: the write in progress ends, what it leaves is intact only if the memory kept it, the next one begins, and
the REPLY that waits on the ended one is placed. -/
def Obligations.WriteEndPlacesTheReply : Prop :=
  ∀ (s : State) (t : Nat) (kept : Bool) (w : PendingWrite) (rest : List PendingWrite),
    s.handed = [] → s.serial.writes = w :: rest →
    ∃ u, exec (.serialMemoryWriteEnd t kept) s = .next u ∧ u.serial.writes = rest
      ∧ u = { s.atTime t with serial := u.serial, bus := { s.bus with reply := w.reply.or s.bus.reply } }
      ∧ (∀ bk h, w.what = .header bk h →
          (u.serial.bank bk).header = { h with intact := kept } ∧ (u.serial.bank bk).slots = (s.serial.bank bk).slots
            ∧ u.serial.bank bk.other = s.serial.bank bk.other)
      ∧ (∀ bk e, w.what = .slot bk e →
          (u.serial.bank bk).header = (s.serial.bank bk).header
            ∧ (u.serial.bank bk).slots.find? (·.number == e.number)
              = some { number := e.number, entry := e, intact := kept }
            ∧ u.serial.bank bk.other = s.serial.bank bk.other)

/-! ## The own frames on the bus -/

/-- R49, R43, R47: at an idle bus the station begins an attempt of the frame with the lowest identifier among those
eligible in its join state, and of a CLAIM or an INTENT only in JOINED; its bytes are built from the slot at that
moment. The bytes that R48 leaves unread are free values, numbered afresh by each offer (the model's choice,
notes/assumptions/10.md). -/
def Obligations.LowestEligibleFrameIsOffered : Prop :=
  ∀ (s : State) (t : Nat), s.handed = [] → s.bus.attempt = none →
    ((∀ o ∈ s.bus.offers s.cfg.station, eligible s.pres.join o.2 = false) →
      exec (.busIdleOffer t) s = .next { s.atTime t with freeCount := s.freeCount + 1 })
    ∧ ((∃ o ∈ s.bus.offers s.cfg.station, eligible s.pres.join o.2 = true) →
      ∃ a : Attempt, ∃ n : Nat,
        exec (.busIdleOffer t) s = .next { s.atTime t with
          bus := { s.bus with attempt := some a }, freeCount := s.freeCount + 1 }
        ∧ (n, a.holder) ∈ s.bus.offers s.cfg.station ∧ eligible s.pres.join a.holder = true
        ∧ (∀ o ∈ s.bus.offers s.cfg.station, eligible s.pres.join o.2 = true → n ≤ o.1)
        ∧ ((a.holder = .claim ∨ a.holder = .intent) → s.pres.join = .joined)
        ∧ a.start = max s.now t ∧ a.ident = BitVec.ofNat 11 n
        ∧ a.bytes = s.bus.payload a.holder (max s.now t / 1000) s.freeCount)

/-- R43, R45, R46, R50: a frame whose owner takes no notice. A loss of arbitration is no attempt and every frame and count
stands. Success: the frame leaves its slot or queue, what waits behind it moves forward, and the attempt count and the
consecutive-drop count become 0. Failure: below the sixteenth the count rises by one; at the sixteenth the frame is
dropped, its count becomes 0 and the consecutive-drop count rises by one (here to less than 3). A newer NOTICE that waited
takes the slot at each of these ends, and the count that stands or rises is its own. -/
def Obligations.AttemptEndsMoveTheFrame : Prop :=
  ∀ (s : State) (t : Nat) (a : Attempt), s.handed = [] → s.bus.PlainAttempt a →
    let stays : Bus := if a.holder = .notice then
        { s.bus with attempt := none, notice := s.bus.noticeNext.or s.bus.notice, noticeNext := none }
      else { s.bus with attempt := none }
    exec (.arbitrationLost t) s = .next { s.atTime t with bus := stays }
    ∧ exec (.attemptSucceeded t) s = .next { s.atTime t with
      bus := match a.holder with
        | .deny => { s.bus with attempt := none, drops := 0, denyQ := s.bus.denyQ.drop 1, denyCount := 0 }
        | .free => { s.bus with
            attempt := none, drops := 0, free := s.bus.freeBack.head?, freeBack := s.bus.freeBack.drop 1,
            freeCount := 0 }
        | .notice => { s.bus with
            attempt := none, drops := 0, notice := s.bus.noticeNext, noticeNext := none, noticeCount := 0 }
        | .fault => { s.bus with
            attempt := none, drops := 0, fault := s.bus.faultBack.head?, faultBack := s.bus.faultBack.drop 1,
            faultCount := 0 }
        | .logrec => { s.bus with attempt := none, drops := 0, logQ := s.bus.logQ.drop 1, logCount := 0 }
        | _ => s.bus }
    ∧ (s.bus.count a.holder + 1 < 16 →
      exec (.attemptFailed t) s = .next { s.atTime t with
        bus := stays.setCount a.holder (s.bus.count a.holder + 1) })
    ∧ (s.bus.count a.holder + 1 = 16 → s.bus.drops < 2 →
      exec (.attemptFailed t) s = .next { s.atTime t with
        bus := (({ s.bus with attempt := none, drops := s.bus.drops + 1 } : Bus).leave a.holder).setCount a.holder 0 })

/-- R43, R45, R50, R55, R109, R163, R186: a frame whose owner takes a notice of its end. A CLAIM, INTENT or REPLY that loses
arbitration or fails below the sixteenth time stays, a newer INTENT taking the place of the one tried. A CLAIM sent has the
start of its frame as the own claim start, and the claim window opens at its notice and ends 400 ms after it; one dropped is
claimed again, its candidate being as good as before. An INTENT sent has the start of its frame as the own intent start, its
window ends 250 ms after the notice, and every intent of the table is marked; at a drop the highest step that fits is
announced again. A REPLY sent or dropped lets its request leave the queue. -/
def Obligations.OwnersTakeTheEndOfTheirFrames : Prop :=
  ∀ (s : State) (t : Nat) (a : Attempt), s.Calm → s.bus.attempt = some a → a.removed = false → a.leftJoined = false →
    (((a.holder = .claim ∧ s.bus.withdrawing = false) ∨ a.holder = .intent ∨ a.holder = .reply) →
      let stays : Bus := if a.holder = .intent then
          { s.bus with attempt := none, intent := s.bus.intentNext.or s.bus.intent, intentNext := none }
        else { s.bus with attempt := none }
      exec (.arbitrationLost t) s = .next { s.atTime t with bus := stays }
      ∧ (s.bus.count a.holder + 1 < 16 →
        exec (.attemptFailed t) s = .next { s.atTime t with
          bus := stays.setCount a.holder (s.bus.count a.holder + 1) }))
    ∧ (a.holder = .claim → s.bus.withdrawing = false → s.claim.phase = .placed →
      (s.claim.crossing = [] →
        exec (.attemptSucceeded t) s = .next { s.atTime t with
          bus := { s.bus with attempt := none, drops := 0, claim := none, claimCount := 0 },
          claim := { s.claim with
            phase := .window, ownStart := some a.start, ownStartsIn := a.startsIn,
            windowEnd := some (max s.now t + 400) } })
      ∧ (∀ o x, s.bus.claimCount + 1 = 16 → s.bus.drops < 2 → s.claim.occ = some o → 0 < s.claim.index →
        o.prog.cands[s.claim.index - 1]? = some x → s.claim.marks[s.claim.index - 1]? = some .opened →
        isSuspect s.map x (max s.now t / 1000) = false → (s.atTime t).usable o x = true →
        ownReaching s.map x s.claim.since = none → ownDedicated s.map s.cfg.station x = false →
        s.pres.join = .joined →
        exec (.attemptFailed t) s = .next { s.atTime t with
          bus := { s.bus with
            attempt := none, drops := s.bus.drops + 1, claimCount := 0,
            claim := some { terminal := x, cls := o.prog.cls, since := s.claim.since, till := s.claim.till } },
          claim := { s.claim with
            terminal := some x, ownStart := none, ownStartsIn := 0, windowEnd := none, crossing := [] } }))
    ∧ (∀ f, a.holder = .intent → s.bus.intent = some f → f.withdrawal = false → s.bus.intentNext = none →
      a.superseded = false → s.psu.phase = .placed →
      exec (.attemptSucceeded t) s = .next { s.atTime t with
        bus := { s.bus with attempt := none, drops := 0, intent := none, intentCount := 0 },
        psu := { s.psu with
          phase := .window, ownStart := some a.start, windowEnd := some (max s.now t + 250),
          table := s.psu.table.map fun r =>
            { r with intent := r.intent.map fun i => { i with earlier := decide (i.arrival < a.start) } } } }
      ∧ (∀ r k, s.bus.intentCount + 1 = 16 → s.bus.drops < 2 → s.psu.request = some r → s.psu.admitted = none →
        s.pres.join = .joined → k ∈ [100, 71, 50, 25] → k ≤ s.psu.effectiveCap →
        (∀ j ∈ [100, 71, 50, 25], j ≤ s.psu.effectiveCap →
          (othersCommitted s.psu.table + totalDemand s.cfg r.carrier j r.mode ≤ s.cfg.limit - s.cfg.reserve → j ≤ k)) →
        othersCommitted s.psu.table + totalDemand s.cfg r.carrier k r.mode ≤ s.cfg.limit - s.cfg.reserve →
        exec (.attemptFailed t) s = .next { s.atTime t with
          bus := { s.bus with
            attempt := none, drops := s.bus.drops + 1, intentCount := 0,
            intent := some
              { intended := totalDemand s.cfg r.carrier k r.mode, current := s.psu.announced, cls := r.cls,
                withdrawal := false } },
          psu := { s.psu with candidate := some k } }))
    ∧ (a.holder = .reply → s.pres.join ≠ .disabled →
      exec (.attemptSucceeded t) s = .next { s.atTime t with
        bus := { s.bus with attempt := none, drops := 0, reply := none, replyCount := 0 },
        req := { queue := s.req.queue.drop 1, serving := false } }
      ∧ (s.bus.replyCount + 1 = 16 → s.bus.drops < 2 →
        exec (.attemptFailed t) s = .next { s.atTime t with
          bus := { s.bus with attempt := none, drops := s.bus.drops + 1, reply := none, replyCount := 0 },
          req := { queue := s.req.queue.drop 1, serving := false } }))

/-- R46, R73, R66: the third drop in a row, and each one after it, isolates a station in LEARNING or JOINED: the join state
becomes ISOLATED with cause DROPS, its timers stop, ALERT and a JOIN record tell of it. No own CLAIM or INTENT waits on a
notice and no step is waited for. -/
def Obligations.ThirdDropInARowIsolates : Prop :=
  ∀ (s : State) (t : Nat) (a : Attempt), s.Calm → s.bus.PlainAttempt a → s.bus.count a.holder + 1 = 16 →
    2 ≤ s.bus.drops → (s.pres.join = .learning ∨ s.pres.join = .joined) →
    s.claim.phase ≠ .placed → s.claim.phase ≠ .withdrawing → s.psu.phase ≠ .placed → s.psu.phase ≠ .wait →
    ∃ u r, exec (.attemptFailed t) s = .next u ∧ u.pres.join = .isolated ∧ u.pres.silence = none
      ∧ u.pres.learning = none ∧ u.alert.isolated = true ∧ u.bus.drops = min (s.bus.drops + 1) 255
      ∧ u.log.ring.getLast? = some r ∧ r.body = .join .isolated s.pres.join .drops
      ∧ u.map = s.map ∧ u.store = s.store ∧ u.mat = s.mat ∧ u.link = (s.atTime t).link ∧ u.seq = s.seq
      ∧ u.psu = if s.pres.join = .joined then { s.psu with ceiling := s.psu.announced } else s.psu

/-! ## Received frames -/

/-- R44, R58 check 1, R140: a frame with a bad CRC, a frame of a kind of 10 to 15 and a transmitter record that is no
valid REPORT change nothing. -/
def Obligations.DiscardedInputChangesNothing : Prop :=
  ∀ (s : State) (t : Nat), s.handed = [] →
    exec (.frameCrcBad t) s = .next (s.atTime t)
      ∧ (∀ k f, exec (.unknownKindFrameReceived t k f) s = .next (s.atTime t))
      ∧ (∀ bytes, exec (.txRecordDiscarded t bytes) s = .next (s.atTime t))

/-- R60, R72, R61: a REPLY or LOGREC of another station is heard traffic and reaches no block: in LEARNING and JOINED it
moves the last-heard-any time and the silence deadline, in LISTENING and DISABLED the last-heard-any time alone. R75, R66: in
ISOLATED it brings LEARNING, with the learning time and the silence deadline, a JOIN record and ALERT cleared of the cause;
no step is waited for and no crosspoint stands untidy. -/
def Obligations.OtherFramesAreHeardTraffic : Prop :=
  ∀ (s : State) (t : Nat) (logrec : Bool) (f : RxFrame), s.handed = [] → s.image = some .accepted →
    f.payload.length = (if logrec then 15 else 16) →
    ((s.pres.join = .learning ∨ s.pres.join = .joined) →
      exec (.otherFrameReceived t logrec f) s = .next { s.atTime t with
        bus := { s.bus with lastHeard := f.start },
        pres := { s.pres with silence := some (f.start + 10000) } })
    ∧ ((s.pres.join = .listening ∨ s.pres.join = .disabled) →
      exec (.otherFrameReceived t logrec f) s = .next { s.atTime t with
        bus := { s.bus with lastHeard := f.start } })
    ∧ (s.Calm → s.pres.join = .isolated → s.psu.phase ≠ .wait →
      (∀ x ∈ s.mat.rows, x.pos = some .opened ∨ (ownHeld s.map).map (·.1) = some x.terminal) →
      ∃ u r, exec (.otherFrameReceived t logrec f) s = .next u ∧ u.pres.join = .learning
        ∧ u.pres.learning = some (max s.now t + 8000) ∧ u.pres.silence = some (f.start + 10000)
        ∧ u.alert = { s.alert with isolated := false } ∧ u.bus.lastHeard = f.start
        ∧ u.log.ring.getLast? = some r ∧ r.seq = s.log.nextSeq ∧ r.body = .join .learning .isolated .heard
        ∧ u.map = s.map ∧ u.store = s.store ∧ u.mat = s.mat ∧ u.link = (s.atTime t).link ∧ u.psu = s.psu
        ∧ u.seq = s.seq)

/-- R84: a FREE from a station removes every booking of that owner with source HEARD on the terminal, HELD, BOOKED and
STALE alike, and nothing else: no DEDICATED booking, no booking of another owner, none on another terminal. -/
def Obligations.FreeRemovesTheHeardBookings : Prop :=
  ∀ (s : State) (t : Nat) (f : RxFrame), (s.Unarmed ∨ (s.Calm ∧ s.pres.join ≠ .isolated)) → Handled s .free f →
    ∃ u, exec (.freeReceived t f) s = .next u
      ∧ u.map = s.map.map (fun r =>
          if r.number = byteAt f.payload 1 then
            { r with slots := r.slots.filter fun b => ! (b.owner == f.sender.toNat && b.source == .heard) }
          else r)
      ∧ u.claim = s.claim ∧ u.store = s.store ∧ u.link.permit = s.link.permit ∧ u.psu.table = s.psu.table

/-- R82, R78, R158: a NOTICE sets its sender's current demand, ends an intent it has reached, and replaces every HEARD
booking of the sender by the HELD and then the BOOKED booking that it names, each of which takes room under R78 among what
its terminal then holds; nothing else of any terminal changes. A class above 3 that it carries may be any.

R70, R59, R60: a NOTICE with the own number is a duplicate finding, taken before it is heard traffic
(notes/assumptions/46.md): in LEARNING and JOINED the first one sets the mark and its ALERT cause and writes DUPLICATE, and
in LISTENING the station is DISABLED besides. -/
def Obligations.NoticeReplacesTheSendersBookings : Prop :=
  (∀ (s : State) (t : Nat) (f : RxFrame), s.Calm → Handled s .notice f →
    (s.pres.join = .learning ∨ s.pres.join = .joined) → s.mat.active = none → s.psu.phase ≠ .wait →
    RowsDistinct s.map →
    let p := f.payload
    let a := f.start / 1000
    let left (r : TermRow) : List Booking :=
      r.slots.filter fun b => ! (b.owner == f.sender.toNat && b.source == .heard)
    ∃ u, exec (.noticeReceived t f) s = .next u
      ∧ u.psu.table = s.psu.table.modify (f.sender.toNat - 1) (fun r =>
          { current := some (wordAt p 3), intent := r.intent.filter fun i => decide (wordAt p 3 < i.intended) })
      ∧ (∀ r ∈ u.map, ∀ b ∈ r.slots, b.owner = f.sender.toNat → b.source = .heard → b.heard = some a)
      ∧ (∀ r, rowOf s.map r.number = some r → ∃ q, rowOf u.map r.number = some q
        ∧ (r.number ≠ byteAt p 5 → r.number ≠ byteAt p 9 → q = { r with slots := left r })
        ∧ ((left r).length ≤ 2 → ∀ b ∈ left r, b ∈ q.slots)
        ∧ (r.number = byteAt p 5 → (left r).length ≤ 3 → byteAt p 6 ≤ 3 →
          ({ owner := f.sender.toNat, state := .held, cls := byteAt p 6, since := (a : Nat),
             till := if wordAt p 7 = 65535 then none else some ((a : Nat) + (wordAt p 7 : Int)),
             source := .heard, heard := some a, found := false } : Booking) ∈ q.slots)
        ∧ (r.number = byteAt p 9 → (left r).length ≤ 2 → byteAt p 10 ≤ 3 →
          let since : Int := (a + min (wordAt p 11) 65534 : Nat)
          ({ owner := f.sender.toNat, state := .booked, cls := byteAt p 10, since := since,
             till := if wordAt p 13 = 65535 then none else some (since + (wordAt p 13 : Int)),
             source := .heard, heard := some a, found := false } : Booking) ∈ q.slots)
        ∧ q = { r with slots := q.slots }
        ∧ (SlotsOrdered s.map → ∃ c d mid, (byteAt p 6 ≤ 3 → c = byteAt p 6) ∧ (byteAt p 10 ≤ 3 → d = byteAt p 10)
          ∧ (let since : Int := (a + min (wordAt p 11) 65534 : Nat)
            let held : Booking :=
              { owner := f.sender.toNat, state := .held, cls := c, since := (a : Nat),
                till := if wordAt p 7 = 65535 then none else some ((a : Nat) + (wordAt p 7 : Int)),
                source := .heard, heard := some a, found := false }
            let booked : Booking :=
              { owner := f.sender.toNat, state := .booked, cls := d, since := since,
                till := if wordAt p 13 = 65535 then none else some (since + (wordAt p 13 : Int)),
                source := .heard, heard := some a, found := false }
            (if r.number = byteAt p 5 then TakesRoom (left r) held mid else mid = left r)
              ∧ (if r.number = byteAt p 9 then TakesRoom mid booked q.slots else q.slots = mid))))
      ∧ u.store = s.store ∧ u.claim = s.claim ∧ u.seq = s.seq ∧ u.link = (s.atTime t).link)
  ∧ ∀ (s : State) (t : Nat) (f : RxFrame), f.payload.length = 14 → passesChecks .notice f = true →
    f.sender.toNat = s.cfg.station → s.image = some .accepted →
    let heard : State := { s.atTime t with bus := { s.bus with lastHeard := f.start } }
    let moved : State := { heard with pres := { s.pres with silence := some (f.start + 10000) } }
    (s.handed = [] → (s.pres.join = .learning ∨ s.pres.join = .joined) →
      (s.pres.duplicate = true → exec (.noticeReceived t f) s = .next moved)
      ∧ (s.pres.duplicate = false →
        ∃ u r, exec (.noticeReceived t f) s = .next u
          ∧ u = { moved with
              pres := { moved.pres with duplicate := true }, alert := { s.alert with duplicate := true }, log := u.log,
              bus := { moved.bus with logQ := u.bus.logQ } }
          ∧ u.log.ring.getLast? = some r ∧ r.seq = s.log.nextSeq ∧ r.body = .duplicate s.cfg.station s.pres.join))
    ∧ (s.handed = [] → s.pres.join = .disabled → exec (.noticeReceived t f) s = .next heard)
    ∧ (s.Unarmed → s.pres.join = .listening →
      ∃ u a b, exec (.noticeReceived t f) s = .next u ∧ u.pres.join = .disabled ∧ u.pres.duplicate = true
        ∧ u.alert = { s.alert with duplicate := true, disabled := true, isolated := false }
        ∧ u.log.ring.drop (u.log.ring.length - 2) = [a, b] ∧ a.body = .duplicate s.cfg.station .listening
        ∧ b.body = .join .disabled .listening .duplicate ∧ u.bus.lastHeard = f.start
        ∧ u.map = s.map ∧ u.store = s.store ∧ u.mat = s.mat ∧ u.psu = s.psu)

/-- R94 tests 2 and 3, R95: a CLAIM that the own HELD booking of the terminal meets is answered DENY with reason HELD, the
class of that booking and its until. One that no own HELD booking meets and that ends after the from of a STALE booking, the
only one there, is answered DENY with reason STALE, class 0 and the until of that booking, be it behind. Neither enters
anything. The station itself claims another terminal or none. -/
def Obligations.HeldTerminalIsDenied : Prop :=
  ∀ (s : State) (t : Nat) (f : RxFrame) (r : TermRow),
    s.Calm → Handled s .claim f → (s.pres.join = .learning ∨ s.pres.join = .joined) →
    s.claim.terminal ≠ some (byteAt f.payload 1) →
    rowOf s.map (byteAt f.payload 1) = some r → ownDedicated s.map s.cfg.station (byteAt f.payload 1) = false →
    let c := (claimBooking f.payload f.sender.toNat (f.start / 1000)).2
    let denied (reason : DenyReason) (cls : Nat) (till : Option Int) : Prop :=
      ∃ u, exec (.claimReceived t f) s = .next u ∧ u.map = s.map
        ∧ u.bus.denyQ = (s.bus.placeDeny
            { claimant := f.sender.toNat, terminal := byteAt f.payload 1, reason := reason, cls := cls,
              till := till }).denyQ
        ∧ u.claim = s.claim ∧ u.store = s.store ∧ u.seq = s.seq
    (∀ h, r.slots.find? (fun b => b.source == .own && b.state == .held) = some h →
      spansOverlap h.since h.till c.since c.till = true → denied .held h.cls h.till)
    ∧ (∀ b, (∀ h ∈ r.slots, h.source = .own → h.state = .held → spansOverlap h.since h.till c.since c.till = false) →
      r.slots.filter (·.state == .stale) = [b] → (∀ u, c.till = some u → b.since < u) → denied .stale 0 b.till)

/-- R83, R78: a CLAIM for a terminal with no own booking, none STALE and none DEDICATED enters the claimant's BOOKED
booking: its own HEARD BOOKED booking there leaves, the others stay, and the new one takes room among them under R78, with
a slot left or by eviction. Other terminals stand. The station itself claims another terminal or none. -/
def Obligations.UnansweredClaimIsBooked : Prop :=
  ∀ (s : State) (t : Nat) (f : RxFrame) (r : TermRow),
    s.Calm → Handled s .claim f → (s.pres.join = .learning ∨ s.pres.join = .joined) → s.mat.active = none →
    s.claim.terminal ≠ some (byteAt f.payload 1) → RowsDistinct s.map → SlotsOrdered s.map →
    rowOf s.map (byteAt f.payload 1) = some r →
    (∀ b ∈ r.slots, b.source ≠ .own ∧ b.state ≠ .stale ∧ b.state ≠ .dedicated) →
    let since : Int := (f.start / 1000 + min (wordAt f.payload 3) 65534 : Nat)
    let c : Booking :=
      { owner := f.sender.toNat, state := .booked, cls := byteAt f.payload 2, since := since,
        till := if wordAt f.payload 5 = 65535 then none else some (since + (wordAt f.payload 5 : Int)),
        source := .heard, heard := some (f.start / 1000), found := false }
    ∃ u q, exec (.claimReceived t f) s = .next u ∧ rowOf u.map (byteAt f.payload 1) = some q
      ∧ TakesRoom
          (r.slots.filter fun b => ! (b.owner == f.sender.toNat && b.source == .heard && b.state == .booked)) c q.slots
      ∧ (∀ n, n ≠ byteAt f.payload 1 → rowOf u.map n = rowOf s.map n)
      ∧ u.bus.denyQ = s.bus.denyQ ∧ u.store = s.store ∧ u.claim = s.claim ∧ u.seq = s.seq

/-- R85, R78: a DENY with reason HELD tells of its sender's HELD booking, from the frame's local second, until the
remaining seconds it carries: that owner's HEARD HELD and STALE bookings of the terminal leave, the others stay, and the
new one takes room among them under R78. Other terminals stand. The DENY answers another station, or a claim that is over
with nothing watched. -/
def Obligations.DenyTeachesTheHolding : Prop :=
  ∀ (s : State) (t : Nat) (f : RxFrame) (r : TermRow),
    s.Calm → Handled s .deny f → (s.pres.join = .learning ∨ s.pres.join = .joined) → s.mat.active = none →
    (byteAt f.payload 1 ≠ s.cfg.station ∨ (s.claim.phase ≠ .window ∧ s.claim.watched = none)) →
    RowsDistinct s.map → SlotsOrdered s.map →
    byteAt f.payload 3 = 0 → rowOf s.map (byteAt f.payload 2) = some r →
    let b : Booking :=
      { owner := f.sender.toNat, state := .held, cls := f.cls.toNat, since := (f.start / 1000 : Nat),
        till := if wordAt f.payload 4 = 65535 then none else some ((f.start / 1000 : Nat) + (wordAt f.payload 4 : Int)),
        source := .heard, heard := some (f.start / 1000), found := false }
    ∃ u q, exec (.denyReceived t f) s = .next u ∧ rowOf u.map (byteAt f.payload 2) = some q
      ∧ TakesRoom
          (r.slots.filter fun x => ! (x.owner == f.sender.toNat
            && ((x.source == .heard && x.state == .held) || x.state == .stale))) b q.slots
      ∧ (∀ n, n ≠ byteAt f.payload 2 → rowOf u.map n = rowOf s.map n)
      ∧ u.claim = s.claim ∧ u.store = s.store ∧ u.seq = s.seq

/-- R79: a FAULT marks its terminal suspect until its local second plus its minutes; a mark that stands is made longer,
never shorter. The terminal here is none of the station's own and none that it claims. -/
def Obligations.FaultMarksTheTerminalSuspect : Prop :=
  ∀ (s : State) (t : Nat) (f : RxFrame), s.Calm → Handled s .fault f →
    (s.pres.join = .learning ∨ s.pres.join = .joined) → isOwnTerminal s.map (byteAt f.payload 1) = false →
    s.claim.terminal ≠ some (byteAt f.payload 1) →
    let till := f.start / 1000 + 60 * byteAt f.payload 3
    exec (.faultReceived t f) s = .next { s.atTime t with
      bus := { s.bus with lastHeard := f.start },
      pres := { s.pres with silence := some (f.start + 10000) },
      map := s.map.map fun r =>
        if r.number = byteAt f.payload 1 then
          { r with suspect := match r.suspect with
              | none => some till
              | some v => if max s.now t / 1000 < v then some (max v till) else some till }
        else r }

/-- R158, R159: an INTENT sets its sender's intent; a current demand of none becomes the one it carries, another stands.
While the unit has an own intent start it is LATER, else EARLIER. No step is waited for. -/
def Obligations.IntentIsRecorded : Prop :=
  ∀ (s : State) (t : Nat) (f : RxFrame), s.Calm → Handled s .intent f →
    (s.pres.join = .learning ∨ s.pres.join = .joined) → s.psu.phase ≠ .wait →
    exec (.intentReceived t f) s = .next { s.atTime t with
      bus := { s.bus with lastHeard := f.start },
      pres := { s.pres with silence := some (f.start + 10000) },
      psu := { s.psu with
        table := s.psu.table.modify (f.sender.toNat - 1) fun r =>
          { current := some (r.current.getD (wordAt f.payload 3)),
            intent := some
              { intended := wordAt f.payload 1, cls := byteAt f.payload 5, earlier := s.psu.ownStart.isNone,
                arrival := f.start } } } }

/-- R28 to R31, R170: a valid TIME frame makes the clock LOCKED at the second it names (60 held as 59), with the frame's
start as the reference. FIRST, on an UNSET clock, and STEP, by more than 10 s, write a TIMESTEP record stamped with the
new time (notes/assumptions/38.md), a STEP with the old time and the difference, and the minute counts as announced;
after a STEP an armed sequencer converts its contexts afresh, with the untils of its bookings, and finds nothing else to
do; or, with the occurrence on the air no longer current and nothing next, it cuts it (R171, R177): ENTRY-OFF CUT, and
the carrier ramps down (C stays in ENDING meanwhile: notes/assumptions/21.md). SMALL, by 10 s or less, writes nothing: it raises the boundary of a later minute than the
announced one and else nothing. That the tests of R19 and R23 are then not made, where the minute is the announced one
or an earlier one, is the model's choice (notes/assumptions/57.md). -/
def Obligations.FirstTimeFrameSetsTheClock : Prop :=
  ∀ (s : State) (t : Nat) (f : RxFrame), f.payload.length = 7 → s.image = some .accepted →
    s.pres.join ≠ .isolated → (timeFields f.payload).valid = true →
    let utc := (timeFields f.payload).utc
    let set (minute : Option Nat) : Clock :=
      { state := .locked, refUtc := some utc, refLocal := some f.start, lastTime := some f.start, lastMinute := minute }
    (s.Unarmed → s.clock.state = .unset →
      ∃ u, exec (.timeReceived t f) s = .next u ∧ u.clock = set (some (utc / 60))
        ∧ (∃ r ∈ u.log.ring, r.seq = s.log.nextSeq ∧ r.stamp = utc ∧ r.unset = false
            ∧ r.body = .timeStep false (f.start / 1000) 0)
        ∧ u.bus.lastHeard = f.start ∧ u.map = s.map ∧ u.psu = s.psu)
    ∧ (∀ ref start, s.clock.state ≠ .unset → s.clock.refUtc = some ref → s.clock.refLocal = some start →
      let old := ref + (f.start - start) / 1000
      (old + 10 < utc ∨ utc + 10 < old →
        let stepped : State :=
          { s.atTime t with clock := set (some (utc / 60)), store := ((s.atTime t).storeMinute (utc / 60)).store }
        let settled := if s.seq.armed then stepped.reconvert else stepped
        settled.Content →
        ∃ u, exec (.timeReceived t f) s = .next u ∧ u.clock = set (some (utc / 60))
          ∧ (∃ r ∈ u.log.ring, r.seq = s.log.nextSeq ∧ r.stamp = utc ∧ r.unset = false
              ∧ r.body = .timeStep true old ((utc : Int) - old))
          ∧ u.store = stepped.store ∧ u.seq = settled.seq ∧ u.map = settled.map ∧ u.bus.lastHeard = f.start
          ∧ u.psu = s.psu)
      ∧ (∀ o k p, (old + 10 < utc ∨ utc + 10 < old) → s.OnAir o k → s.seq.nxt = Ctx.reset → s.link.ramp = some p →
        let stepped : State :=
          { s.atTime t with clock := set (some (utc / 60)), store := ((s.atTime t).storeMinute (utc / 60)).store }
        stepped.reconvert.currentEntry = none → stepped.reconvert.nextEntry = none →
        ∃ u, exec (.timeReceived t f) s = .next u ∧ u.clock = set (some (utc / 60))
          ∧ (∃ r ∈ u.log.ring, r.seq = s.log.nextSeq ∧ r.stamp = utc ∧ r.unset = false
              ∧ r.body = .timeStep true old ((utc : Int) - old))
          ∧ (s.atTime t).RampsDown u o k .cut (min (max 1 (s.link.level * 3 / 4)) ((s.atTime t).levelLimit p.carrier))
          ∧ u.store = stepped.store ∧ u.map = stepped.reconvert.map ∧ u.mat = s.mat ∧ u.bus.lastHeard = f.start)
      ∧ (utc ≤ old + 10 → old ≤ utc + 10 →
        ∀ l, s.clock.lastMinute = some l →
        let now := (utc + (max s.now t - f.start) / 1000) / 60
        (now ≤ l → s.Calm →
          ∃ u, exec (.timeReceived t f) s = .next u ∧ u.clock = set (some l) ∧ u.store = s.store ∧ u.seq = s.seq
            ∧ u.log = s.log ∧ u.map = s.map ∧ u.psu = s.psu ∧ u.bus.lastHeard = f.start)
        ∧ (l < now → now ≤ 52595999 →
          let minute : State := { s.atTime t with clock := set (some now) }
          State.Content { minute with store := (minute.storeMinute now).store } →
          ∃ u, exec (.timeReceived t f) s = .next u ∧ u.clock = set (some now)
            ∧ u.store = (minute.storeMinute now).store ∧ u.seq = s.seq ∧ u.map = s.map ∧ u.psu = s.psu
            ∧ u.bus.lastHeard = f.start ∧ (∀ r ∈ u.log.ring, ∀ b o d, r.body = .timeStep b o d → r ∈ s.log.ring))))

/-- R186, R61: a REQUEST for the own number joins the queue while it holds fewer than 8, and is discarded when it holds 8;
one for another number is heard traffic only. -/
def Obligations.RequestJoinsTheQueue : Prop :=
  ∀ (s : State) (t : Nat) (f : RxFrame), s.Calm → f.payload.length = 16 → s.image = some .accepted →
    (s.pres.join = .learning ∨ s.pres.join = .joined) →
    exec (.requestReceived t f) s = .next { s.atTime t with
      bus := { s.bus with lastHeard := f.start },
      pres := { s.pres with silence := some (f.start + 10000) },
      req := { s.req with
        queue := if byteAt f.payload 1 / 8 = s.cfg.station ∧ s.req.queue.length < 8 then s.req.queue ++ [f.payload]
          else s.req.queue } }

/-! ## Station clock -/

/-- R31, R18, R23: at a minute boundary the minute is announced; a READY bank whose instant has come becomes LIVE, and
the former LIVE one, or the other READY bank whose instant has come, SPENT; their headers are issued for writing, the
SPENT one first, and a new CHANGEOVER record names the bank made LIVE, its label and the bank made SPENT or none. Extras
whose stop instant has come leave. With no bank due the banks stand, and nothing is written. With the store as it then
stands the re-evaluation that follows finds nothing to do; or else, by what is then current and next:
- R171, R172, R177: nothing is either; the occurrence on the air ends, COMPLETED once its stop instant has come and CUT
  before it, and the carrier ramps down (C stays in ENDING meanwhile: notes/assumptions/21.md);
- R176: what is current is the next context's, extended on the same terminal, on the same frequency, in the same mode and
  programme at the same carrier, and its step cap is the admitted step: it goes on air at once, with ENTRY-OFF COMPLETED and
  ENTRY-ON of lateness 0, both stamped with second 0 of the minute (notes/assumptions/54.md), and the carrier stands;
- R171, R174: what is current is the next context's, that waits for its claimed terminal: the booking, the one own BOOKED
  booking of R77, is promoted and the crosspoint driven toward CLOSED;
- R173, R100, R108: the occurrence on the air stays current and another is next: it is searched for, and its first
  candidate, usable and free of any suspect mark, is claimed. -/
def Obligations.MinuteBoundaryMakesTheChangeover : Prop :=
  ∀ (s : State) (t m : Nat), (s.atTime t).minuteDue = true → (s.atTime t).instant = some m →
    let stored : State := { s.atTime t with store := ((s.atTime t).storeMinute m).store }
    (stored.Content →
    ∃ u, exec (.minuteBoundary t) s = .next u
      ∧ u.clock = { s.clock with lastMinute := some m }
      ∧ u.store.extras = s.store.extras.map (fun x => x.filter fun e => decide (m < extraStop e))
      ∧ (s.store.dueBank m = none → u.store.bankA = s.store.bankA ∧ u.store.bankB = s.store.bankB
          ∧ u.log = s.log ∧ u.serial = s.serial)
      ∧ (∀ bk, s.store.dueBank m = some bk →
          let former := s.store.bank bk.other
          let spent : Bool := decide (former.state = .live)
            || (decide (former.state = .ready) && former.instant.any fun i => decide (i ≤ m))
          u.store.bank bk = { s.store.bank bk with state := .live }
            ∧ u.store.bank bk.other = (if spent then { former with state := .spent } else former)
            ∧ u.serial.writes = s.serial.writes
                ++ (if spent then
                    [{ what := .header bk.other ((u.store.bank bk.other).header bk.other), reply := none }] else [])
                ++ [{ what := .header bk ((u.store.bank bk).header bk), reply := none }]
            ∧ (∃ r, u.log.ring.getLast? = some r ∧ r.seq = s.log.nextSeq ∧ r.stamp = 60 * m ∧ r.unset = false
                ∧ r.body = .changeover bk (s.store.bank bk).label (if spent then some bk.other else none)))
      ∧ u.map = s.map ∧ u.psu = s.psu ∧ u.req = s.req ∧ u.seq = s.seq)
    ∧ (∀ o k, s.OnAir o k → o.start ≤ m → o.start < o.stop →
      (∀ p, stored.currentEntry = none → stored.nextEntry = none → s.seq.nxt = Ctx.reset → s.link.ramp = some p →
        ∃ u, exec (.minuteBoundary t) s = .next u ∧ u.clock = { s.clock with lastMinute := some m }
          ∧ (s.atTime t).RampsDown u o k (if o.stop ≤ m then .completed else .cut)
              (min (max 1 (s.link.level * 3 / 4)) ((s.atTime t).levelLimit p.carrier))
          ∧ u.store = stored.store ∧ u.map = s.map ∧ u.mat = s.mat)
      ∧ (∀ x w, stored.currentEntry = some x → stored.nextEntry = none → x.key ≠ o.key →
        s.seq.nxt.occ = some x → s.seq.nxt.taken = some { terminal := k.terminal, how := .extended, suspect := w } →
        x.prog.freq = o.prog.freq → x.prog.mode = o.prog.mode → x.prog.programme = o.prog.programme →
        x.prog.carrier = o.prog.carrier → s.seq.cur.admitted = some s.seq.nxt.cap →
        ∃ u a b, exec (.minuteBoundary t) s = .next u ∧ u.clock = { s.clock with lastMinute := some m }
          ∧ u.log.ring.drop (u.log.ring.length - 2) = [a, b] ∧ a.stamp = 60 * m ∧ b.stamp = 60 * m
          ∧ a.body = .entryOff o.source o.number .completed (some k.terminal) s.seq.cur.admitted s.seq.cur.trips
              (min 86400 s.seq.cur.offSecs)
          ∧ b.body = .entryOn x.source x.number (some k.terminal) s.seq.cur.admitted s.link.level 0
          ∧ u.seq.cur.occ = some x ∧ u.seq.cur.state = .onAir ∧ u.seq.cur.running = true
          ∧ u.seq.cur.taken = s.seq.nxt.taken ∧ u.seq.cur.admitted = s.seq.cur.admitted
          ∧ u.seq.cur.trips = s.seq.cur.trips ∧ u.seq.cur.onAir = some 0 ∧ u.seq.cur.offSecs = 0
          ∧ u.seq.cur.offSince = none ∧ u.seq.nxt = Ctx.reset ∧ u.store = stored.store
          ∧ u.link = (s.atTime t).link ∧ u.psu = s.psu ∧ u.map = s.map ∧ u.mat = s.mat)
      ∧ (∀ x y ts, stored.currentEntry.map (·.key) = some o.key → stored.nextEntry = some y → y.key ≠ o.key →
        s.seq.nxt = Ctx.reset → s.mat.row k.terminal = some x → x.pos = some .closed → x.drive = .idle →
        (s.claim.phase = .idle ∨ s.claim.phase = .booked) → s.pres.join = .joined → s.bus.claim = none →
        ∀ c since till, y.prog.cands = c :: ts → stored.localSecondOf y.start = some since →
          stored.localSecondOf y.stop = some till → ((max s.now t / 1000 : Nat) : Int) < till →
          isSuspect s.map c (max s.now t / 1000) = false →
          State.usable { s.atTime t with claim := { s.claim with since := since, till := till } } y c = true →
          ownReaching s.map c since = none → ownDedicated s.map s.cfg.station c = false →
          ∃ u, exec (.minuteBoundary t) s = .next u
            ∧ u.seq.nxt.occ = some y ∧ u.seq.nxt.state = .claiming ∧ u.seq.nxt.taken = none
            ∧ u.seq.nxt.running = false ∧ u.seq.cur = s.seq.cur ∧ u.claim.phase = .placed ∧ u.claim.occ = some y
            ∧ u.claim.terminal = some c ∧ u.claim.watched = s.claim.watched
            ∧ u.bus.claim = some { terminal := c, cls := y.prog.cls, since := since, till := till }
            ∧ u.store = stored.store ∧ u.link = (s.atTime t).link ∧ u.psu = s.psu ∧ u.map = s.map ∧ u.mat = s.mat))
    ∧ (∀ x b r y w, s.Calm → s.seq.armed = true → s.seq.foundOffer = false → s.pres.join.sendsNotice = true →
      s.seq.cur.occ = none → s.seq.cur.state = .idle → s.seq.cur.spent ≠ some x.key →
      stored.currentEntry = some x → stored.nextEntry = none →
      s.seq.nxt.occ = some x → s.seq.nxt.state = .awaitTerminal →
      s.seq.nxt.taken = some { terminal := y, how := .claimed, suspect := w } →
      ownHeld s.map = none → ownBooked s.map = some (y, b) → rowOf s.map y = some r → r.slots = [b] →
      b.owner = s.cfg.station → RowsDistinct s.map → OwnOnce s.map →
      y ∈ s.mat.rows.map (·.terminal) →
      (∀ z ∈ s.mat.rows, z.pos = some .opened ∧ z.sense = some .free ∧ z.drive = .idle) →
      s.mat.active = none → s.mat.pendingClose = none → s.mat.openWork = [] →
      s.link.permit = false → s.rfPresent = false →
      ∃ u, exec (.minuteBoundary t) s = .next u ∧ ownHeld u.map = some (y, { b with state := .held })
        ∧ ownBooked u.map = none ∧ u.seq.cur.occ = some x ∧ u.seq.cur.state = .switching
        ∧ u.seq.cur.running = true ∧ u.seq.cur.taken = s.seq.nxt.taken ∧ u.seq.nxt = Ctx.reset
        ∧ u.mat.active = some
            { terminal := y, direction := .close, purpose := .requested, travel := 0, running := some (max s.now t),
              stop := some s.seq.nxt.stopSec, openWaits := false }
        ∧ u.mat.rows = s.mat.rows.map (fun z => if z.terminal = y then { z with drive := .closing } else z)
        ∧ u.store = stored.store ∧ u.link = (s.atTime t).link ∧ u.psu = s.psu)

/-- R32: 60 000 ms after the last TIME local time a LOCKED clock passes to HOLDOVER and runs on without change. R33: past
2099-12-31 23:59:59 the clock becomes UNSET and holds nothing, with no TIMESTEP record. A station that has not been armed does
nothing more. On an armed one the re-evaluation that follows finds nothing current and nothing next (R171, R173):
- a current context without an occurrence is emptied of its spent mark, but in LOCAL-HOLD;
- a next context whose search waits for its retry is emptied, and its search cancelled;
- the occurrence on the air ends CUT, with a record stamped UNSET, and the carrier ramps down (C stays in ENDING meanwhile:
  notes/assumptions/21.md). -/
def Obligations.ClockHoldsOverAndEnds : Prop :=
  ∀ (s : State) (t : Nat),
    (∀ l, s.handed = [] → s.clock.state = .locked → s.clock.lastTime = some l → l + 60000 ≤ max s.now t →
      exec (.holdoverExpiry t) s = .next { s.atTime t with clock := { s.clock with state := .holdover } })
    ∧ (∀ v, s.Unarmed → (s.atTime t).utc = some v → 3155759999 < v →
      exec (.clockRangeEnd t) s = .next { s.atTime t with
        clock := { state := .unset, refUtc := none, refLocal := none, lastTime := none, lastMinute := none } })
    ∧ (∀ v, (s.atTime t).utc = some v → 3155759999 < v →
      let unset : Clock := { state := .unset, refUtc := none, refLocal := none, lastTime := none, lastMinute := none }
      (s.Calm → s.seq.armed = true → s.seq.foundOffer = false → s.seq.cur.occ = none →
        let left : Ctx := if s.seq.cur.state = .localHold then s.seq.cur else { s.seq.cur with spent := none }
        (s.seq.nxt = Ctx.reset →
          exec (.clockRangeEnd t) s = .next { s.atTime t with clock := unset, seq := { s.seq with cur := left } })
        ∧ (∀ y, s.seq.nxt.occ = some y → s.claim.occ = some y → s.claim.phase = .retryWait → s.claim.watched = none →
          exec (.clockRangeEnd t) s = .next { s.atTime t with
            clock := unset, seq := { s.seq with cur := left, nxt := Ctx.reset }, claim := Claim.reset }))
      ∧ (∀ o k p, s.OnAir o k → s.seq.nxt = Ctx.reset → s.link.ramp = some p →
        ∃ u, exec (.clockRangeEnd t) s = .next u ∧ u.clock = unset
          ∧ (s.atTime t).RampsDown u o k .cut
              (min (max 1 (s.link.level * 3 / 4)) ((s.atTime t).levelLimit p.carrier))
          ∧ (∃ r, u.log.ring.getLast? = some r ∧ r.unset = true ∧ r.stamp = max s.now t / 1000)
          ∧ u.store = s.store ∧ u.map = s.map ∧ u.mat = s.mat))

/-! ## Joining and presence -/

/-- R64, R65, R72, R66: the listening time brings LEARNING, the learning time JOINED, silence ISOLATED; each with the
timers of the new state and a JOIN record. The first two are of a station that has not been armed, the second with the
clock UNSET, so that nothing is armed; at the third no own CLAIM or INTENT waits on a notice and no step is waited for. -/
def Obligations.JoinTimersMoveTheStation : Prop :=
  ∀ (s : State) (t : Nat),
    (∀ v, s.Unarmed → s.pres.join = .listening → s.pres.listening = some v → v ≤ max s.now t →
      ∃ u r, exec (.listeningTimerExpiry t) s = .next u ∧ u.pres.join = .learning ∧ u.pres.listening = none
        ∧ u.pres.learning = some (max s.now t + 8000) ∧ u.pres.silence = some (s.bus.lastHeard + 10000)
        ∧ u.log.ring.getLast? = some r ∧ r.body = .join .learning .listening .timer
        ∧ u.map = s.map ∧ u.store = s.store ∧ u.psu = s.psu)
    ∧ (∀ v, s.Unarmed → s.pres.join = .learning → s.pres.learning = some v → v ≤ max s.now t →
      s.clock.state = .unset →
      ∃ u r, exec (.learningTimerExpiry t) s = .next u ∧ u.pres.join = .joined ∧ u.pres.learning = none
        ∧ u.pres.silence = some (s.bus.lastHeard + 10000) ∧ u.seq.joinedOnce = true
        ∧ u.log.ring.getLast? = some r ∧ r.body = .join .joined .learning .timer
        ∧ u.map = s.map ∧ u.store = s.store ∧ u.mat = s.mat ∧ u.psu = s.psu)
    ∧ (∀ v, s.Calm → s.claim.phase ≠ .placed → s.claim.phase ≠ .withdrawing → s.psu.phase ≠ .placed →
      s.psu.phase ≠ .wait → (s.pres.join = .learning ∨ s.pres.join = .joined) → s.pres.silence = some v →
      v ≤ max s.now t →
      ∃ u r, exec (.silenceDeadline t) s = .next u ∧ u.pres.join = .isolated ∧ u.pres.silence = none
        ∧ u.pres.learning = none ∧ u.alert.isolated = true
        ∧ u.log.ring.getLast? = some r ∧ r.body = .join .isolated s.pres.join .silence
        ∧ u.map = s.map ∧ u.store = s.store ∧ u.mat = s.mat ∧ u.seq = s.seq
        ∧ u.psu = if s.pres.join = .joined then { s.psu with ceiling := s.psu.announced } else s.psu)

/-- R67, R68: 2 000 ms after the last placement, or 200 ms after it while a notice is pending, a NOTICE built from the
present values takes its slot; the timer starts again and nothing is pending. -/
def Obligations.NoticeIsPlacedOnTime : Prop :=
  ∀ (s : State) (t v : Nat), s.Calm → s.psu.phase ≠ .wait →
    (s.pres.join = .learning ∨ s.pres.join = .joined ∨ s.pres.join = .isolated) → s.pres.noticeTimer = some v →
    ∃ n : NoticeFrame, n.join = s.pres.join ∧ n.localFlag = s.link.localFlag ∧ n.tripped = s.link.tripped
      ∧ (n.jammed = true ↔ ∃ x ∈ s.mat.rows, x.drive = .jammed) ∧ n.demand = s.psu.announced
      ∧ n.held = (ownHeld s.map).map (fun h => { terminal := h.1, cls := h.2.cls, till := h.2.till })
      ∧ n.booked = (ownBooked s.map).map (fun k =>
          { terminal := k.1, cls := k.2.cls, since := k.2.since, till := k.2.till })
      ∧ (let placed := { s.atTime t with
          bus := s.bus.placeNotice n,
          pres := { s.pres with noticeTimer := some (max s.now t), noticePending := false } }
        (v + 2000 ≤ max s.now t → exec (.noticePeriod t) s = .next placed)
        ∧ (v + 200 ≤ max s.now t → s.pres.noticePending = true → exec (.noticePendingDue t) s = .next placed))

/-! ## The booking map's times -/

/-- R87, R88, R80: a HEARD booking whose owner has been silent for 7 s leaves when BOOKED and becomes STALE and
open-ended when HELD; a HEARD BOOKED booking leaves at its until; a suspect mark ends at its time. Nothing else
changes, where the mark is of no terminal that the station holds or has booked. R165, R175: at the end of the mark of one that
it has, the suspect cap of an admission on it becomes none, with no step admitted, and the step cap of a context on it 100;
the link raises no level (R146). -/
def Obligations.MapTimesRunOut : Prop :=
  ∀ (s : State) (t : Nat), s.handed = [] → s.pres.join ≠ .disabled →
    let n := max s.now t / 1000
    let silent (b : Booking) : Bool :=
      decide (b.source = .heard) && decide (b.state = .held ∨ b.state = .booked) && decide (b.owner ≠ 0)
        && b.heard.any fun h => decide (h + 7 ≤ n)
    exec (.bookingAging t) s = .next { s.atTime t with
        map := s.map.map fun r => { r with
          slots := (r.slots.filter fun b => ! (silent b && decide (b.state = .booked))).map fun b =>
            if silent b then { b with state := .stale, till := none } else b } }
    ∧ exec (.bookedExpiry t) s = .next { s.atTime t with
        map := s.map.map fun r => { r with
          slots := r.slots.filter fun b =>
            ! (decide (b.source = .heard) && decide (b.state = .booked)
              && b.till.any fun u => decide (u ≤ (n : Int))) } }
    ∧ (s.Unarmed → s.psu.request = none → s.map.length ≤ 40 →
      exec (.suspectExpiry t) s = .next { s.atTime t with
        map := s.map.map fun r => { r with suspect := r.suspect.filter fun u => decide (n < u) } })
    ∧ (let ends (x : Nat) : Bool := isOwnTerminal s.map x
        && s.map.any fun r => decide (r.number = x) && r.suspect.any fun u => decide (u ≤ n)
      let unmarked : List TermRow := s.map.map fun r => { r with suspect := r.suspect.filter fun u => decide (n < u) }
      let raised (c : Ctx) : Ctx :=
        if c.terminal.any ends then { c with cap := 100, taken := c.taken.map fun k => { k with suspect := false } } else c
      ((∀ r ∈ s.map, ends r.number = false) → exec (.suspectExpiry t) s = .next { s.atTime t with map := unmarked })
      ∧ (s.Calm → s.map.length ≤ 40 → s.psu.phase ≠ .wait →
        (∀ a, s.psu.admitted = some a → a ≤ min s.psu.requestCap (min s.psu.tripCap 100)) →
        exec (.suspectExpiry t) s = .next { s.atTime t with
          map := unmarked,
          psu := if (s.psu.request.map (·.terminal)).any ends then { s.psu with suspectCap := none } else s.psu,
          seq := { s.seq with cur := raised s.seq.cur, nxt := raised s.seq.nxt } }))

/-! ## Switch matrix interface -/

/-- R122, R89, R90, R92, R78, R125, R175, R177: a scan falls at each whole multiple of 100 ms after the hand-over, once, and
is taken whole: each own crosspoint reads OPEN or CLOSED where one contact alone is made and BETWEEN otherwise, and its column
sense follows the sense contact. No drive, jam or hand-out that follows changes a reading.

With no work for the matrix interface, the own HELD crosspoint alone CLOSED and every other OPEN, the scan counts the occupied
run of a column that another row occupies and the free run of a free one; a third occupied scan of a terminal without HELD,
STALE or DEDICATED booking enters the phantom under R78, and the twentieth free one clears its STALE bookings.

An active drive whose terminal reads its target ends, a suspended one too (notes/assumptions/43.md): a TIDY opening with no
notice; the opening of a release with the HELD booking gone and FREE placed, and no MOVED though the last reading was CLOSED
(notes/assumptions/62.md); the close that the occurrence waits for with its Tune.

R143, R180: with PERMIT asserted a scan that reads the operation terminal not CLOSED, or another own crosspoint not OPEN, lets
it fall: LEVEL 0 and RF off follow the records issued before, the rung plan, the tune deadline and the recycle time become
none, and the link settles, with RF present. An occurrence in a state that a break acts in is in
TUNING again and keeps its terminal; with both read so, the break is that of the own crosspoint (notes/assumptions/90.md).

At any other time contacts change nothing (the model's choice, notes/assumptions/67.md). -/
def Obligations.ScanIsRead : Prop :=
  ∀ (s : State) (t : Nat) (scan : Contacts), s.image = some .accepted → s.pres.join ≠ .disabled →
    let reads (x : Nat) : Position :=
      if scan.openMade.getLsbD x = scan.closedMade.getLsbD x then .between
      else if scan.openMade.getLsbD x then .opened else .closed
    let sense (x : Nat) : Sense := if scan.senseMade.getLsbD x then .occupied else .free
    let read (x : XRow) : XRow := { x with pos := some (reads x.terminal), sense := some (sense x.terminal) }
    let held := (ownHeld s.map).map (·.1)
    (∀ h, s.mat.scanFrom = some h → h < max s.now t → (max s.now t - h) % 100 = 0 →
      s.mat.lastScan ≠ some (max s.now t) →
      (∃ u, exec (.matrixScan t scan) s = .next u
        ∧ (u.mat.rows.map fun x => (x.terminal, x.pos, x.sense))
          = s.mat.rows.map (fun x => (x.terminal, some (reads x.terminal), some (sense x.terminal)))
        ∧ u.mat.lastScan = some (max s.now t) ∧ u.rfPresent = s.rfPresent ∧ u.cfg = s.cfg)
      ∧ (s.link.permit = false → s.mat.openWork = [] → s.mat.pendingClose = none →
        (s.mat.rows.map (·.terminal)).Nodup →
        (s.Calm → s.mat.active = none → RowsDistinct s.map → SlotsOrdered s.map →
          (∀ x ∈ s.mat.rows, x.drive ≠ .jammed
            ∧ reads x.terminal = if held = some x.terminal then .closed else .opened) →
          ∃ u, exec (.matrixScan t scan) s = .next u
            ∧ u = { s.atTime t with
                map := u.map, mat := { s.mat with rows := s.mat.rows.map read, lastScan := some (max s.now t) } }
            ∧ (∀ r x, r ∈ s.map → x ∈ s.mat.rows → x.terminal = r.number →
              ∃ q, rowOf u.map r.number = some q
                ∧ q = { r with occRun := q.occRun, freeRun := q.freeRun, slots := q.slots }
                ∧ q.occRun = (if sense r.number = .occupied ∧ reads r.number = .opened then min (r.occRun + 1) 255 else 0)
                ∧ q.freeRun = (if sense r.number = .free then min (r.freeRun + 1) 20 else 0)
                ∧ (let lacks := ∀ b ∈ r.slots, b.state ≠ .held ∧ b.state ≠ .stale ∧ b.state ≠ .dedicated
                  (3 ≤ q.occRun → lacks →
                    TakesRoom r.slots
                      { owner := 0, state := .stale, cls := 0, since := (max s.now t / 1000 : Nat), till := none,
                        source := .sense, heard := none, found := false } q.slots)
                  ∧ (q.freeRun = 20 → q.slots = r.slots.filter fun b => ! (b.state == .stale))
                  ∧ (¬ (3 ≤ q.occRun ∧ lacks) → q.freeRun ≠ 20 → q.slots = r.slots))))
        ∧ (∀ d, s.mat.active = some d → s.handed = [] → s.seq.ending = none → s.seq.cur.state ≠ .awaitTerminal →
          s.seq.nxt.deferred = false → s.seq.cur.closeAgain = false → d.openWaits = false →
          (d.terminal ∈ s.mat.rows.map (·.terminal)) →
          (∀ x ∈ s.mat.rows, x.drive = if x.terminal = d.terminal then
              (match d.direction with | .openUp => .opening | .close => .closing) else .idle) →
          let ended (u : State) : Prop :=
            u.mat.active = none ∧ u.mat.rows = s.mat.rows.map fun x => { read x with drive := .idle }
          (d.direction = .openUp → d.purpose = .tidy → s.seq.cur.release = none →
            (∀ x ∈ s.mat.rows, reads x.terminal = if held = some x.terminal ∧ x.terminal ≠ d.terminal
              then .closed else .opened) →
            ∃ u, exec (.matrixScan t scan) s = .next u ∧ ended u ∧ u.seq = s.seq ∧ u.link = (s.atTime t).link
              ∧ u.psu = s.psu ∧ u.log = s.log)
          ∧ (∀ b, d.direction = .openUp → d.purpose = .requested → s.seq.cur.state ≠ .idle →
            s.seq.cur.release = some { terminal := d.terminal, stage := .opening, waitLink := false } →
            ownHeld s.map = some (d.terminal, b) → RowsDistinct s.map →
            (∀ r ∈ s.map, ∀ c ∈ r.slots, c.source = .own → c.state = .held → r.number = d.terminal) →
            (∀ x ∈ s.mat.rows, reads x.terminal = .opened) →
            ∃ u, exec (.matrixScan t scan) s = .next u ∧ ended u ∧ ownHeld u.map = none
              ∧ u.bus.free = (s.bus.placeFree { terminal := d.terminal, cls := b.cls }).free
              ∧ u.bus.freeBack = (s.bus.placeFree { terminal := d.terminal, cls := b.cls }).freeBack
              ∧ u.seq = { s.seq with cur := { s.seq.cur with release := none } } ∧ u.link = (s.atTime t).link)
          ∧ (∀ o, d.direction = .close → d.purpose = .requested → s.seq.cur.release = none → s.seq.cur.state = .switching →
            s.seq.cur.occ = some o → s.seq.cur.terminal = some d.terminal → held = some d.terminal →
            (∀ x ∈ s.mat.rows, reads x.terminal = if x.terminal = d.terminal then .closed else .opened) →
            s.link.state = .up → s.link.localFlag = false → s.link.faultCode = 0 → s.link.op = .none →
            ∃ u, exec (.matrixScan t scan) s = .next u ∧ ended u
              ∧ u.Tunes o d.terminal ((s.atTime t).link.out.map (·.record)) ∧ u.psu = s.psu ∧ u.log = s.log)))
      ∧ (∀ x, s.link.permit = true → s.link.opTerminal = some x → s.mat.active = none → s.rfPresent = true →
        s.link.state = .up → s.link.localFlag = false → s.psu.pendingLower = none → s.psu.releasePending = false →
        x ∈ s.mat.rows.map (·.terminal) → (∀ y ∈ s.mat.rows, y.drive ≠ .jammed) →
        (reads x ≠ .closed ∨ ∃ y ∈ s.mat.rows, y.terminal ≠ x ∧ reads y.terminal ≠ .opened) →
        let fell (u : State) : Prop :=
          u.link.permit = false ∧ u.link.level = 0 ∧ u.link.op = .settling ∧ u.link.plan = []
            ∧ u.link.tuneDeadline = none ∧ u.link.recycleAt = none
            ∧ u.link.out.map (·.record) = (s.atTime t).link.out.map (·.record) ++ [.level 0, .rf false]
            ∧ u.psu = s.psu ∧ u.log = s.log
        (s.Unarmed → ∃ u, exec (.matrixScan t scan) s = .next u ∧ fell u ∧ u.seq = s.seq)
        ∧ (s.Calm → s.seq.cur.occ.isSome = true → s.seq.cur.terminal = some x →
          (s.seq.cur.state = .tuning ∨ s.seq.cur.state = .admitting ∨ s.seq.cur.state = .ramping
            ∨ s.seq.cur.state = .onAir ∨ s.seq.cur.state = .recycling) →
          ∃ u, exec (.matrixScan t scan) s = .next u ∧ fell u ∧ u.seq.cur.state = .tuning
            ∧ u.seq.cur.occ = s.seq.cur.occ ∧ u.seq.cur.taken = s.seq.cur.taken
            ∧ u.seq.cur.brk = some (if reads x ≠ .closed then .permitMove else .permitOther)
            ∧ u.seq.cur.heldStep = s.seq.cur.stands ∧ u.seq.cur.retry = none ∧ u.seq.nxt = s.seq.nxt
            ∧ u.seq.cur.offSince = (if s.seq.cur.onAir.isSome then s.seq.cur.offSince.or (some (max s.now t))
                else s.seq.cur.offSince))))
    ∧ (s.handed = [] →
      (∀ h, s.mat.scanFrom = some h → max s.now t ≤ h ∨ (max s.now t - h) % 100 ≠ 0
        ∨ s.mat.lastScan = some (max s.now t)) →
      exec (.matrixScan t scan) s = .next (s.atTime t))

/-- R122: a reading changes by a scan alone, the start-up scan among them; no other command changes one. -/
def Obligations.ReadingsChangeOnlyByScan : Prop :=
  ∀ (c : Instr) (s t : State), exec c s = .next t → c ≠ .reset → (∀ u i k, c ≠ .handOver u i k) →
    (∀ u k, c ≠ .matrixScan u k) →
    (t.mat.rows.map fun x => (x.terminal, x.pos, x.sense)) = s.mat.rows.map fun x => (x.terminal, x.pos, x.sense)

/-- R131, R132: a drive whose travel time reaches 8 000 ms has failed. A drive of another purpose than RECOVERY makes its
crosspoint JAMMED, with ALERT, a record and a FAULT, and the one RECOVERY drive toward OPEN starts; a RECOVERY drive
that fails ends with a record and the crosspoint stays JAMMED. Which direction is held as the failed one, and that a
record without a position carries none, is the model's choice (notes/assumptions/31.md).

With the sequencer under way: R174, R179: where the drive was the close that the occurrence waits for, or its reversal, the
terminal is given up with cause JAMMED; the HELD booking stands with no FREE placed, and its release waits in CLEARING. The
walk goes on: with no candidate left the occurrence has ended LOST, and otherwise the next one is claimed. That an
occurrence which has not begun to run ends with no record is the model's choice (notes/assumptions/37.md,
notes/assumptions/45.md). R177: where it was the opening of a release, the release waits in CLEARING. -/
def Obligations.OverdueDriveFails : Prop :=
  ∀ (s : State) (t r : Nat) (d : Drive), s.mat.active = some d → d.running = some r →
    8000 ≤ d.travel + (max s.now t - r) →
    let jams (u : State) : Prop :=
      exec (.driveTimeout t) s = .next u
        ∧ u.mat.active = some
            { terminal := d.terminal, direction := .openUp, purpose := .recovery, travel := 0,
              running := if s.rfPresent then none else some (max s.now t), stop := none, openWaits := false }
        ∧ u.mat.rows = s.mat.rows.map (fun x =>
            if x.terminal = d.terminal then { x with drive := .jammed, recovery := true, failed := d.direction } else x)
        ∧ u.alert.jammed = true
        ∧ u.bus.fault = some { terminal := d.terminal, reason := .crosspoint, minutes := 30 }
        ∧ ((rowOf s.map d.terminal).isSome = true → isSuspect u.map d.terminal (max s.now t / 1000) = true)
    let failed : LogBody := .jammed d.terminal 0 d.direction none
    (d.purpose ≠ .recovery → s.link.permit = false →
      (∀ x ∈ s.mat.rows, x.terminal = d.terminal → x.recovery = false) → (∀ x ∈ s.mat.rows, x.drive ≠ .jammed) →
      s.bus.fault = none →
      (s.Unarmed → s.mat.releaseMark = none →
        ∃ u q, jams u ∧ u.log.ring.getLast? = some q ∧ q.body = failed)
      ∧ (∀ o k, s.Calm → s.seq.foundOffer = false →
        ((d.purpose = .requested ∧ d.direction = .close) ∨ d.purpose = .reversal) →
        s.seq.cur.state = .switching → s.seq.cur.occ = some o → s.seq.cur.taken = some k → k.terminal = d.terminal →
        s.seq.nxt.terminal ≠ some d.terminal → s.psu.phase = .none → s.link.level = 0 → s.link.op = .none →
        s.claim.phase = .booked → s.claim.occ = some o → s.claim.index = 1 → s.claim.skipped = false →
        s.claim.pass = .normal →
        let given : LogBody := .terminalFault o.source o.number d.terminal .jammed
        let clearing : Release := { terminal := d.terminal, stage := .clearing, waitLink := false }
        (o.prog.cands = [d.terminal] → s.claim.marks = [.opened] →
          ∃ u, jams u ∧ ownHeld u.map = ownHeld s.map ∧ u.bus.free = s.bus.free
            ∧ u.claim = { Claim.reset with watched := s.claim.watched } ∧ u.seq.nxt = s.seq.nxt
            ∧ u.seq.cur = { Ctx.reset with spent := some o.key, release := some clearing }
            ∧ (s.seq.cur.onAir = none → s.seq.cur.running = false →
                ∃ a b, u.log.ring.drop (u.log.ring.length - 2) = [a, b] ∧ a.body = failed ∧ b.body = given)
            ∧ (∀ g, s.seq.cur.onAir = none → s.seq.cur.running = true →
                s.seq.cur.early (s.atTime t).instant = false → s.seq.cur.furthest = some g →
                (g = .switching ∨ g = .tuning ∨ g = .admitting ∨ g = .ramping ∨ g = .onAir) →
                ∃ a b c, u.log.ring.drop (u.log.ring.length - 3) = [a, b, c] ∧ a.body = failed ∧ b.body = given
                  ∧ c.body = .entryMissed o.source o.number .lost g)
            ∧ (s.seq.cur.onAir.isSome = true →
                ∃ a b c off, u.log.ring.drop (u.log.ring.length - 3) = [a, b, c] ∧ a.body = failed ∧ b.body = given
                  ∧ c.body = .entryOff o.source o.number .lost (some d.terminal) s.seq.cur.admitted s.seq.cur.trips off))
        ∧ (∀ y ts ms, o.prog.cands = d.terminal :: y :: ts → s.claim.marks = .opened :: .opened :: ms →
          y ≠ d.terminal → isSuspect s.map y (max s.now t / 1000) = false → (s.atTime t).usable o y = true →
          ownReaching s.map y s.claim.since = none → ownDedicated s.map s.cfg.station y = false →
          s.pres.join = .joined → s.bus.claim = none →
          ∃ u a b, jams u ∧ u.bus.free = s.bus.free ∧ u.seq.nxt = s.seq.nxt
            ∧ u.log.ring.drop (u.log.ring.length - 2) = [a, b] ∧ a.body = failed ∧ b.body = given
            ∧ u.bus.claim = some { terminal := y, cls := o.prog.cls, since := s.claim.since, till := s.claim.till }
            ∧ u.claim.phase = .placed ∧ u.claim.terminal = some y ∧ u.claim.marks[0]? = some .exhausted
            ∧ u.seq.cur.state = .claiming ∧ u.seq.cur.occ = some o ∧ u.seq.cur.taken = none
            ∧ u.seq.cur.givenUp = s.seq.cur.givenUp ++ [d.terminal] ∧ u.seq.cur.release = some clearing))
      ∧ (s.handed = [] → s.seq.ending = none → s.seq.nxt.deferred = false →
        s.seq.cur.release = some { terminal := d.terminal, stage := .opening, waitLink := false } →
        d.purpose = .requested → s.seq.cur.closeAgain = false → s.seq.cur.terminal ≠ some d.terminal →
        s.seq.nxt.terminal ≠ some d.terminal → s.psu.request.map (·.terminal) ≠ some d.terminal →
        s.link.op = .none →
        ∃ u q, jams u ∧ u.log.ring.getLast? = some q ∧ q.body = failed
          ∧ u.seq = { s.seq with cur := { s.seq.cur with
              release := some { terminal := d.terminal, stage := .clearing, waitLink := false } } }
          ∧ ownHeld u.map = ownHeld s.map ∧ u.bus.free = s.bus.free ∧ u.psu = s.psu ∧ u.claim = s.claim))
    ∧ (s.handed = [] → d.purpose = .recovery → s.mat.openWork = [] → s.mat.pendingClose = none →
      ∃ u q, exec (.recoveryDriveTimeout t) s = .next u
        ∧ u.mat = { s.mat with
            active := none,
            rows := s.mat.rows.map fun x => if x.terminal = d.terminal then { x with failed := .openUp } else x }
        ∧ u.log.ring.getLast? = some q ∧ q.body = .jammed d.terminal 1 .openUp none
        ∧ u.alert = s.alert ∧ u.map = s.map)

/-- R124, R136, R148: RF-PRESENT active stops a running drive's travel time, short of the limit: one that has reached it is
held at 7 999 ms (the model's choice, notes/assumptions/43.md). RF-PRESENT inactive ends SETTLING, or lets a suspended
opening go on while PERMIT is off. -/
def Obligations.RfPresentSuspendsAndResumes : Prop :=
  ∀ (s : State) (t : Nat), s.handed = [] →
    exec (.rfPresentActive t) s = .next { s.atTime t with
        rfPresent := true,
        mat := { s.mat with
          active := s.mat.active.map fun d => match d.running with
            | some r => { d with travel := min (d.travel + (max s.now t - r)) 7999, running := none }
            | none => d } }
    ∧ (s.Unarmed → s.link.op = .settling → s.mat.active = none →
      exec (.rfPresentInactive t) s = .next { s.atTime t with
        rfPresent := false, link := { (s.atTime t).link with op := .none, opTerminal := none } })
    ∧ (∀ d, s.link.op ≠ .settling → s.link.permit = false → s.mat.active = some d → d.running = none →
      d.direction = .openUp →
      exec (.rfPresentInactive t) s = .next { s.atTime t with
        rfPresent := false, mat := { s.mat with active := some { d with running := some (max s.now t) } } })

/-! ## Transmitter link -/

/-- R140, R139, R141, R145, R152, R153, R175, R180, R181: a valid REPORT becomes the latest one and moves the loss deadline
to 3 000 ms later. With local control and the fault summary as they were:
- the first makes the link UP, and after a loss, be it changed or unchanged (notes/assumptions/17.md), writes LINKLOSS
  RETURNED, clears ALERT, and an occurrence in TUNING that waited for the link hands Tune again;
- TUNED, after both flags have been seen clear, ends the tuning, and the occurrence that tunes on that terminal waits for its
  ramp time; a REPORT with tuned and tune-failed both set does so too (the model's choice, notes/assumptions/64.md);
- tune-failed does what the tune limit does (TuneLimitEndsTheTuning);
- DETUNED ends TUNED with PERMIT off, and the Tune handed again is taken or refused.

Local control cuts the operation without a record to the transmitter (one being sent is sent whole,
notes/assumptions/11.md), the demand announced is that of the rated carrier, and an occurrence on the air ends LOCAL; its end
settles the link, and LOCAL-HOLD becomes IDLE with the terminal kept to be released. A transmitter fault issues LEVEL 0 and
RF off and lets PERMIT fall, the rung plan, the tune deadline and the recycle time become none (notes/assumptions/89.md), and
an occurrence under way waits in TUNING, where a step that stands is kept (notes/assumptions/36.md); its end hands Tune again;
another code changes nothing else. -/
def Obligations.ReportIsTaken : Prop :=
  ∀ (s : State) (t : Nat) (bytes : List Byte), s.image = some .accepted → s.pres.join ≠ .disabled →
    bytes.length = 6 → byteAt bytes 1 = 8 → (bytes.map BitVec.toNat).sum % 256 = 0 → byteAt bytes 2 < 16 →
    let report : Report :=
      { tuned := byteAt bytes 2 % 2 == 1, tuneFailed := byteAt bytes 2 / 2 % 2 == 1, rf := byteAt bytes 2 / 4 % 2 == 1,
        localCtl := byteAt bytes 2 / 8 % 2 == 1, forward := wordAt bytes 3, fault := byteAt bytes 5,
        arrival := max s.now t }
    let link : Link :=
      { (s.atTime t).link with report := some report, lossDeadline := some (max s.now t + 3000) }
    let records := link.out.map (·.record)
    (report.fault = s.link.faultCode → report.localCtl = s.link.localFlag →
      (s.handed = [] → (s.link.state = .up ∨ s.link.state = .waiting) →
        (s.link.op = .none ∨ s.link.op = .rampUp ∨ s.link.op = .steady ∨ s.link.op = .rampDown) →
        exec (.reportReceived t bytes) s = .next { s.atTime t with link := { link with state := .up } })
      ∧ (s.Calm → s.link.state = .up → s.link.op = .tuning → s.link.seenClear = true →
        (∀ o x, s.seq.cur.state = .tuning → s.seq.cur.occ = some o → s.seq.cur.terminal = some x →
          s.link.opTerminal = some x → s.seq.cur.heldStep = false → ((max s.now t : Nat) : Int) < s.seq.cur.rampTime →
          (∀ q, s.link.report = some q → q.tuned = false) → report.tuned = true →
          exec (.reportReceived t bytes) s = .next { s.atTime t with
            link := { link with op := .tuned, tuneDeadline := none },
            seq := { s.seq with cur := { s.seq.cur with retry := none, brk := none } } })
        ∧ ((∀ q, s.link.report = some q → q.tuneFailed = false) → report.tuned = false → report.tuneFailed = true →
          exec (.reportReceived t bytes) s
            = exec (.tuneDeadline t) { s with
                link := { s.link with
                  report := some report, lossDeadline := some (max s.now t + 3000), tuneDeadline := some 0 } }))
      ∧ (∀ o x, s.Calm → s.link.state = .up → s.link.op = .tuned → s.seq.cur.state = .tuning → s.seq.cur.occ = some o →
        s.seq.cur.terminal = some x → (∀ q, s.link.report = some q → q.tuned = true) → report.tuned = false →
        (s.link.localFlag = false → s.link.faultCode = 0 → s.Switched x →
          ∃ u, exec (.reportReceived t bytes) s = .next u ∧ u.Tunes o x records
            ∧ u.seq.cur.heldStep = s.seq.cur.stands ∧ u.mat = s.mat ∧ u.map = s.map ∧ u.psu = s.psu)
        ∧ (s.mat.onlyClosed x = false →
          ∃ u, exec (.reportReceived t bytes) s = .next u
            ∧ u.link = { link with permit := false, op := .none, opTerminal := none } ∧ u.seq.cur.state = .tuning
            ∧ u.seq.cur.occ = some o ∧ u.seq.cur.retry = some { kind := .tune, due := max s.now t + 1000 }
            ∧ u.mat = s.mat ∧ u.map = s.map ∧ u.psu = s.psu))
      ∧ (s.link.state = .lost → s.link.op = .none → (s.atTime t).Content →
        let returned (u : State) : Prop :=
          u.link.state = .up ∧ u.alert = { s.alert with linkLost := false }
            ∧ (∃ r, u.log.ring.getLast? = some r ∧ r.seq = s.log.nextSeq
                ∧ r.body = .linkLoss true s.link.lostOp ((ownHeld s.map).map (·.1)))
            ∧ u.mat = s.mat ∧ u.map = s.map ∧ u.psu = s.psu
        (s.seq.cur.state ≠ .tuning → s.seq.cur.brk = none →
          ∃ u, exec (.reportReceived t bytes) s = .next u ∧ returned u ∧ u.link = { link with state := .up }
            ∧ u.seq = { s.seq with cur := { s.seq.cur with retry := none } })
        ∧ (∀ o x, s.seq.cur.state = .tuning → s.seq.cur.brk = some .link → s.seq.cur.occ = some o →
          s.seq.cur.terminal = some x → s.link.localFlag = false → s.link.faultCode = 0 → s.Switched x →
          ∃ u, exec (.reportReceived t bytes) s = .next u ∧ returned u ∧ u.Tunes o x records
            ∧ u.seq.cur.brk = none)))
    ∧ ((s.link.state = .up ∨ s.link.state = .waiting) →
      (report.localCtl = true → s.link.localFlag = false → report.fault = s.link.faultCode →
        (∀ q, s.link.report = some q → q.localCtl = false) →
        let taken (u : State) : Prop :=
          u.link = { link with
              state := .up, localFlag := true, permit := false, level := 0, op := .none, opTerminal := none, plan := [],
              tuneDeadline := none, recycleAt := none, recycling := false, out := link.out.take 1 }
            ∧ u.psu = { s.psu with
                localMark := true, admitted := none, announced := totalDemand s.cfg s.cfg.rating 100 .am }
            ∧ u.mat = s.mat ∧ u.map = s.map
        (s.Unarmed → ∃ u, exec (.reportReceived t bytes) s = .next u ∧ taken u ∧ u.seq = s.seq ∧ u.log = s.log)
        ∧ (∀ o k late, s.Calm → s.seq.armed = true → s.seq.cur.occ = some o → s.seq.cur.running = true →
          s.seq.cur.taken = some k → s.seq.cur.onAir = some late →
          (s.seq.cur.state = .ramping ∨ s.seq.cur.state = .onAir ∨ s.seq.cur.state = .recycling) →
          s.psu.phase = .none → s.psu.pendingLower = none → s.psu.releasePending = false →
          ∃ u r, exec (.reportReceived t bytes) s = .next u ∧ taken u
            ∧ u.seq = { s.seq with cur := { Ctx.reset with state := .localHold, spent := some o.key } }
            ∧ u.log.ring.getLast? = some r ∧ r.seq = s.log.nextSeq
            ∧ ∃ off, r.body = .entryOff o.source o.number .local_ (some k.terminal) s.seq.cur.admitted s.seq.cur.trips off))
      ∧ (report.localCtl = false → s.link.localFlag = true → report.fault = s.link.faultCode →
        (∀ q, s.link.report = some q → q.localCtl = true) → s.link.level = 0 → s.psu.admitted = none →
        let ended (u : State) : Prop :=
          u.link.state = .up ∧ u.link.localFlag = false ∧ u.link.level = 0
            ∧ u.link.op = (if s.rfPresent then .settling else .none)
            ∧ u.link.out.map (·.record) = records ++ (if s.rfPresent ∧ report.rf then [.rf false] else [])
            ∧ u.psu = { s.psu with localMark := false, announced := s.cfg.standby } ∧ u.mat = s.mat ∧ u.map = s.map
        (s.Unarmed → ∃ u, exec (.reportReceived t bytes) s = .next u ∧ ended u ∧ u.seq = s.seq)
        ∧ (s.seq.cur.state = .localHold → s.seq.cur.taken = none →
          (∀ h, ownHeld s.map = some h → s.rfPresent = true ∧ s.seq.nxt.terminal ≠ some h.1) →
          State.Content { s.atTime t with
            seq := { s.seq with cur := { s.seq.cur with state := .idle, retry := none, closeWaits := false } } } →
          s.psu.pendingLower = none → s.psu.releasePending = false →
          ∃ u, exec (.reportReceived t bytes) s = .next u ∧ ended u
            ∧ u.seq = { s.seq with cur := { s.seq.cur with
                state := .idle, retry := none, closeWaits := false,
                release := (ownHeld s.map).map fun h => { terminal := h.1, stage := .settle, waitLink := false } } }))
      ∧ (report.fault ≠ 0 → s.link.faultCode = 0 → report.localCtl = false → s.link.localFlag = false →
        (∀ q, s.link.report = some q → q.fault = 0) → s.psu.pendingLower = none → s.psu.releasePending = false →
        let faulted (u : State) : Prop :=
          u.link.state = .up ∧ u.link.faultCode = report.fault ∧ u.link.permit = false ∧ u.link.level = 0
            ∧ u.link.plan = [] ∧ u.link.tuneDeadline = none ∧ u.link.recycleAt = none
            ∧ u.link.op = (if s.link.op ≠ .none ∧ s.rfPresent then .settling else .none)
            ∧ u.link.out.map (·.record) = records ++ [.level 0, .rf false]
              ++ (if s.link.op ≠ .none ∧ s.rfPresent ∧ report.rf then [.rf false] else [])
            ∧ u.mat = s.mat ∧ u.map = s.map ∧ u.psu = s.psu ∧ u.log = s.log
        (s.Unarmed → ∃ u, exec (.reportReceived t bytes) s = .next u ∧ faulted u ∧ u.seq = s.seq)
        ∧ (s.Calm → s.seq.cur.occ.isSome = true →
          (s.seq.cur.state = .tuning ∨ s.seq.cur.state = .admitting ∨ s.seq.cur.state = .ramping
            ∨ s.seq.cur.state = .onAir ∨ s.seq.cur.state = .recycling) →
          ∃ u, exec (.reportReceived t bytes) s = .next u ∧ faulted u ∧ u.seq.cur.state = .tuning
            ∧ u.seq.cur.occ = s.seq.cur.occ ∧ u.seq.cur.taken = s.seq.cur.taken ∧ u.seq.cur.brk = some .txFault
            ∧ u.seq.cur.heldStep = s.seq.cur.stands ∧ u.seq.cur.retry = none ∧ u.seq.nxt = s.seq.nxt
            ∧ u.seq.cur.offSince = (if s.seq.cur.onAir.isSome then s.seq.cur.offSince.or (some (max s.now t))
                else s.seq.cur.offSince)))
      ∧ (s.link.faultCode ≠ 0 → report.localCtl = s.link.localFlag → s.link.op = .none →
        (∀ q, s.link.report = some q → q.fault = s.link.faultCode) → report.fault ≠ s.link.faultCode →
        (s.Unarmed → exec (.reportReceived t bytes) s = .next { s.atTime t with
          link := { link with state := .up, faultCode := report.fault } })
        ∧ (∀ o x, report.fault = 0 → s.Calm → s.seq.cur.state = .tuning → s.seq.cur.brk = some .txFault →
          s.seq.cur.occ = some o → s.seq.cur.terminal = some x → s.link.localFlag = false → s.Switched x →
          ∃ u, exec (.reportReceived t bytes) s = .next u ∧ u.Tunes o x records ∧ u.link.faultCode = 0
            ∧ u.seq.cur.brk = none ∧ u.mat = s.mat ∧ u.map = s.map ∧ u.psu = s.psu)))

/-- R141, R180: 3 000 ms without a REPORT the link is LOST: PERMIT falls, the commanded level is 0, the plans and
deadlines go, the loss deadline with them (notes/assumptions/87.md), and ALERT and a LINKLOSS record tell of it; a record
being sent is sent whole (notes/assumptions/11.md). An occurrence that has not been on the air waits in TUNING for the
link; one on the air ends LOST, and its terminal is released once the link is back. -/
def Obligations.LinkLossDropsPermit : Prop :=
  ∀ (s : State) (t v : Nat), s.link.lossDeadline = some v → v ≤ max s.now t →
    let lost (u : State) : Prop :=
      u.link.state = .lost ∧ u.link.permit = false ∧ u.link.level = 0 ∧ u.link.lossDeadline = none
        ∧ u.link.plan = [] ∧ u.link.tuneDeadline = none ∧ u.link.recycleAt = none
        ∧ u.link.out = (s.atTime t).link.out.take 1
        ∧ u.link.op = (if s.rfPresent then .settling else .none)
        ∧ u.alert = { s.alert with linkLost := true } ∧ u.map = s.map ∧ u.mat = s.mat
    let record : LogBody := .linkLoss false s.link.op ((ownHeld s.map).map (·.1))
    (s.Unarmed →
      ∃ u r, exec (.linkLossDeadline t) s = .next u ∧ lost u ∧ u.psu = s.psu ∧ u.seq = s.seq
        ∧ u.log.ring.getLast? = some r ∧ r.body = record)
    ∧ (s.Calm → s.seq.cur.occ.isSome = true →
      (s.seq.cur.state = .tuning ∨ s.seq.cur.state = .admitting ∨ s.seq.cur.state = .ramping
        ∨ s.seq.cur.state = .onAir ∨ s.seq.cur.state = .recycling) →
      (s.seq.cur.onAir = none → s.seq.cur.brk = none → s.psu.pendingLower = none → s.psu.releasePending = false →
        ∃ u r, exec (.linkLossDeadline t) s = .next u ∧ lost u ∧ u.psu = s.psu
          ∧ u.seq.cur.state = .tuning ∧ u.seq.cur.occ = s.seq.cur.occ ∧ u.seq.cur.taken = s.seq.cur.taken
          ∧ u.seq.cur.brk = some .link ∧ u.seq.cur.heldStep = s.seq.cur.stands ∧ u.seq.nxt = s.seq.nxt
          ∧ u.log.ring.getLast? = some r ∧ r.body = record)
      ∧ (∀ k x, s.seq.cur.onAir.isSome = true → s.seq.cur.taken = some k → k.terminal = x →
        ∃ u a b, exec (.linkLossDeadline t) s = .next u ∧ lost u
          ∧ u.seq.cur = { Ctx.reset with
              spent := s.seq.cur.key, release := some { terminal := x, stage := .settle, waitLink := true } }
          ∧ u.log.ring.drop (u.log.ring.length - 2) = [a, b] ∧ a.body = record
          ∧ (∀ o, s.seq.cur.occ = some o →
              ∃ off, b.body = .entryOff o.source o.number .lost (some x) s.seq.cur.admitted s.seq.cur.trips off)))

/-- R145, R179, R102, R105: at the tune deadline PERMIT falls, the operation becomes NONE and its terminal and deadline go.
The occurrence gives the terminal up with a TERMINAL-FAULT record, and its opening is asked for; the walk goes on: with no
candidate left the occurrence has ended LOST, and otherwise the next one is claimed. That an occurrence which has not begun
to run ends at EXHAUSTED with no ENTRY-MISSED, where R179 writes one without that condition, is the model's choice
(notes/assumptions/37.md, notes/assumptions/45.md). -/
def Obligations.TuneLimitEndsTheTuning : Prop :=
  ∀ (s : State) (t v x : Nat) (o : Occurrence) (k : Taken) (row : XRow), s.Calm → s.seq.foundOffer = false →
    s.link.op = .tuning → s.link.opTerminal = some x → s.link.tuneDeadline = some v → v ≤ max s.now t →
    s.seq.cur.state = .tuning → s.seq.cur.occ = some o → s.seq.cur.taken = some k → k.terminal = x →
    s.seq.cur.onAir = none → s.seq.nxt.terminal ≠ some x → s.psu.phase = .none →
    s.claim.phase = .booked → s.claim.occ = some o → s.claim.index = 1 → s.claim.skipped = false →
    s.claim.pass = .normal →
    s.mat.row x = some row → row.pos = some .closed → row.drive = .idle → s.mat.active = none →
    s.mat.pendingClose = none → s.mat.openWork = [] →
    let detuned : Link := { (s.atTime t).link with permit := false, tuneDeadline := none, op := .none, opTerminal := none }
    let opening : Matrix := { s.mat with openWork := [{ terminal := x, purpose := .requested }] }
    let given : LogBody := .terminalFault o.source o.number x .tuneFailed
    (o.prog.cands = [x] → s.claim.marks = [.opened] →
      ∃ u, exec (.tuneDeadline t) s = .next u ∧ u.link = detuned ∧ u.mat = opening ∧ u.map = s.map
        ∧ u.claim = { Claim.reset with watched := s.claim.watched }
        ∧ u.seq.cur = { Ctx.reset with
            spent := some o.key, release := some { terminal := x, stage := .opening, waitLink := false } }
        ∧ (s.seq.cur.running = false → ∃ a, u.log.ring.getLast? = some a ∧ a.body = given)
        ∧ (∀ g, s.seq.cur.running = true → s.seq.cur.early (s.atTime t).instant = false →
            s.seq.cur.furthest = some g → (g = .tuning ∨ g = .admitting ∨ g = .ramping) →
            ∃ a b, u.log.ring.drop (u.log.ring.length - 2) = [a, b] ∧ a.body = given
              ∧ b.body = .entryMissed o.source o.number .lost g))
    ∧ (∀ y ts ms, o.prog.cands = x :: y :: ts → s.claim.marks = .opened :: .opened :: ms → y ≠ x →
      isSuspect s.map y (max s.now t / 1000) = false → (s.atTime t).usable o y = true →
      ownReaching s.map y s.claim.since = none → ownDedicated s.map s.cfg.station y = false →
      s.pres.join = .joined → s.bus.claim = none →
      ∃ u a, exec (.tuneDeadline t) s = .next u ∧ u.link = detuned ∧ u.mat = opening ∧ u.map = s.map
        ∧ u.bus.claim = some { terminal := y, cls := o.prog.cls, since := s.claim.since, till := s.claim.till }
        ∧ u.claim.phase = .placed ∧ u.claim.terminal = some y
        ∧ u.claim.marks[0]? = some .exhausted ∧ u.seq.cur.state = .claiming ∧ u.seq.cur.occ = some o
        ∧ u.seq.cur.taken = none ∧ u.seq.cur.givenUp = s.seq.cur.givenUp ++ [x]
        ∧ u.seq.cur.release = some { terminal := x, stage := .opening, waitLink := false }
        ∧ u.log.ring.getLast? = some a ∧ a.body = given)

/-- R146 to R148: a due rung is commanded at the lesser of its value and the level limit, with a LEVEL record. After the
last rung up the operation is STEADY and the occurrence is on the air (R175), with an ENTRY-ON record. After the last rung
down RF off is issued, PERMIT falls and the link settles; once no RF is present the opening of the terminal to be released is
asked for (R177). That the context stays in ENDING, empty, through the ramp-down and is IDLE at SETTLED (`State.Settles`) is
the model's choice (notes/assumptions/21.md). A pending Release ends the admission at a level of 0 (R165),
the admission request with it (notes/assumptions/91.md). -/
def Obligations.RungsMoveTheLevel : Prop :=
  ∀ (s : State) (t due : Nat) (p : RampParams) (act : PlanAct) (rest : List PlanItem),
    s.pres.join ≠ .disabled → s.link.state ≠ .lost → s.link.localFlag = false → s.psu.pendingLower = none →
    s.link.ramp = some p → s.link.plan = { due := due, act := act } :: rest → due ≤ max s.now t →
    (∀ v, act = .level v →
      let kw := min v ((s.atTime t).levelLimit p.carrier)
      (s.Calm → s.psu.releasePending = false → s.link.op = .rampUp →
        (rest ≠ [] →
          ∃ u, exec (.rampRungDue t) s = .next u ∧ u.link.level = kw ∧ u.link.plan = rest
            ∧ u.link.op = .rampUp ∧ u.link.permit = s.link.permit
            ∧ (u.link.out.map (·.record)) = (s.atTime t).link.out.map (·.record) ++ [.level kw]
            ∧ u.mat = s.mat ∧ u.map = s.map ∧ u.psu = s.psu ∧ u.seq = s.seq ∧ u.log = s.log)
        ∧ (∀ o, rest = [] → s.seq.cur.state = .ramping → s.seq.cur.occ = some o → s.seq.cur.onAir = none →
          let late := ((((s.atTime t).utc.getD 0 : Nat) : Int) - 60 * o.start).toNat
          ∃ u r, exec (.rampRungDue t) s = .next u ∧ u.link.level = kw ∧ u.link.plan = []
            ∧ u.link.op = .steady ∧ u.link.permit = s.link.permit
            ∧ (u.link.out.map (·.record)) = (s.atTime t).link.out.map (·.record) ++ [.level kw]
            ∧ u.seq.cur.state = .onAir ∧ u.seq.cur.onAir = some late ∧ u.seq.cur.occ = some o
            ∧ u.log.ring.getLast? = some r
            ∧ r.body = .entryOn o.source o.number s.seq.cur.terminal s.seq.cur.admitted kw late
            ∧ u.mat = s.mat ∧ u.map = s.map ∧ u.psu = s.psu))
      ∧ (s.Ending → s.link.op = .rampDown →
        ∃ u, exec (.rampDownRungDue t) s = .next u ∧ u.link.level = kw ∧ u.link.plan = rest
          ∧ u.link.op = .rampDown ∧ u.link.permit = s.link.permit
          ∧ (u.link.out.map (·.record)) = (s.atTime t).link.out.map (·.record) ++ [.level kw]
          ∧ u.mat = s.mat ∧ u.map = s.map ∧ u.seq = s.seq
          ∧ ((s.psu.releasePending = false ∨ kw ≠ 0) → u.psu = s.psu)
          ∧ (s.psu.releasePending = true → kw = 0 → s.link.level ≠ 0 →
              u.psu.admitted = none ∧ u.psu.request = none ∧ u.psu.releasePending = false)))
    ∧ (act = .rfOff → s.Ending → s.link.op = .rampDown →
      ∃ u, exec (.rampDownRungDue t) s = .next u ∧ u.link.level = 0 ∧ u.link.plan = [] ∧ u.link.permit = false
        ∧ (u.link.out.map (·.record)) = (s.atTime t).link.out.map (·.record) ++ [.rf false]
        ∧ u.map = s.map ∧ s.Settles u)

/-- R149, R150, R179: a trip in RAMP-UP or STEADY takes the level to 0, with LEVEL 0 and RF off issued, and counts, from 1
again when more than 120 000 ms have passed since the last one. R149 says 120 000 ms or more; that a trip at exactly 120 000
ms, taken before the window's end, counts on (R154) is the model's choice (notes/assumptions/66.md). The first two recycle
after 5 000 ms and the third recycles one step lower, with the occurrence RECYCLING; the fourth ends the operation, PERMIT
falls, and the terminal is given up, here the last candidate, so that the occurrence has ended LOST. Each gives a TRIP record
and sets TRIPPED. The fourth is taken with RF still present. The model's choices: a trip with the ladder at 4 is number 4
again (notes/assumptions/97.md), TRIP is taken before TRIP-EXHAUSTED, so that ENTRY-OFF carries 4 (notes/assumptions/96.md),
and the forward kW before any REPORT is 0 (notes/assumptions/98.md). -/
def Obligations.TripInARampIsCounted : Prop :=
  ∀ (s : State) (t : Nat) (l : Ladder) (p : RampParams) (o : Occurrence),
    s.Calm → s.seq.foundOffer = false → s.tripLine = false → s.image ≠ none →
    (s.link.op = .rampUp ∨ s.link.op = .steady) →
    s.link.localFlag = false → s.link.ladder = some l → s.link.ramp = some p → s.seq.cur.occ = some o →
    (s.seq.cur.state = .ramping ∨ s.seq.cur.state = .onAir ∨ s.seq.cur.state = .recycling) → s.psu.phase = .none →
    let n := if (l.last.any fun v => decide (v + 120000 < max s.now t)) then 1 else min (l.count + 1) 4
    let action : TripAction := if n ≤ 2 then .recycle else if n = 3 then .stepLower else .exhausted
    let counted (u : State) : Prop :=
      u.tripLine = true ∧ u.link.level = 0 ∧ u.link.plan = [] ∧ u.link.tripped = true
        ∧ u.link.ladder = some { l with count := n, last := some (max s.now t) } ∧ u.store = s.store ∧ u.mat = s.mat
        ∧ (s.link.state ≠ .lost → s.pres.join ≠ .disabled →
            u.link.out.map (·.record) = (s.atTime t).link.out.map (·.record) ++ [.level 0, .rf false])
    let record : LogBody := .trip s.link.opTerminal n action s.link.level s.link.forward
    (n ≤ 3 →
      ∃ u r, exec (.tripAsserted t) s = .next u ∧ counted u
        ∧ u.log.ring.getLast? = some r ∧ r.body = record
        ∧ u.link.op = .recycle ∧ u.link.recycleAt = some (max s.now t + 5000) ∧ u.link.permit = s.link.permit
        ∧ (n = 3 → u.link.ramp.map (·.step)
            = some (if p.step = 100 then 71 else if p.step = 71 then 50 else 25))
        ∧ (n ≤ 2 → u.link.ramp = s.link.ramp)
        ∧ u.seq.cur.state = .recycling ∧ u.seq.cur.occ = some o ∧ u.seq.cur.trips = n)
    ∧ (∀ k late, n = 4 → s.rfPresent = true → s.seq.cur.taken = some k → k.terminal = l.terminal →
      s.seq.cur.onAir = some late → s.seq.cur.running = true →
      o.prog.cands = [l.terminal] → s.claim.phase = .booked → s.claim.occ = some o → s.claim.index = 1 →
      s.claim.skipped = false → s.claim.marks = [.opened] →
      ∃ u a b c, exec (.tripAsserted t) s = .next u ∧ counted u ∧ u.link.permit = false ∧ u.link.op = .settling
        ∧ u.log.ring.drop (u.log.ring.length - 3) = [a, b, c] ∧ a.body = record
        ∧ b.body = .terminalFault o.source o.number l.terminal .trips
        ∧ (∃ step off, c.body = .entryOff o.source o.number .lost (some l.terminal) step 4 off)
        ∧ u.seq.cur = { Ctx.reset with
            spent := some o.key, release := some { terminal := l.terminal, stage := .settle, waitLink := false } }
        ∧ (s.bus.fault = none →
            u.bus.fault = some { terminal := l.terminal, reason := .reflected, minutes := 30 }))

/-- R151: a trip outside RAMP-UP, STEADY and RAMP-DOWN only gives a TRIP record with number 0; one in RAMP-DOWN ends it:
LEVEL 0 and RF off follow the records issued before, PERMIT falls, and the link settles. The record's terminal is the
operation terminal, none in NONE, and its forward kW 0 before any REPORT (the model's choices, notes/assumptions/88.md,
98.md). That the context stays in ENDING, empty,
through the ramp-down and is IDLE at SETTLED (`State.Settles`) is the model's choice (notes/assumptions/21.md). -/
def Obligations.TripOutsideARampIsRecorded : Prop :=
  ∀ (s : State) (t : Nat), s.tripLine = false → s.image ≠ none →
    (s.handed = [] →
      ((s.link.op ≠ .rampUp ∧ s.link.op ≠ .steady ∧ s.link.op ≠ .rampDown) ∨ s.link.localFlag = true) →
      ∃ u r, exec (.tripAsserted t) s = .next u ∧ u.tripLine = true ∧ u.link = (s.atTime t).link
        ∧ u.log.ring.getLast? = some r ∧ r.body = .trip s.link.opTerminal 0 .none s.link.level s.link.forward
        ∧ u.mat = s.mat ∧ u.map = s.map ∧ u.psu = s.psu ∧ u.seq = s.seq)
    ∧ (s.Ending → s.link.op = .rampDown → s.link.localFlag = false → s.psu.pendingLower = none →
      ∃ u r, exec (.tripAsserted t) s = .next u ∧ u.tripLine = true ∧ u.link.level = 0 ∧ u.link.plan = []
        ∧ u.link.permit = false
        ∧ (s.link.state ≠ .lost → s.pres.join ≠ .disabled →
            u.link.out.map (·.record) = (s.atTime t).link.out.map (·.record) ++ [.level 0, .rf false])
        ∧ u.log.ring.getLast? = some r ∧ r.body = .trip s.link.opTerminal 0 .ended s.link.level s.link.forward
        ∧ u.map = s.map ∧ s.Settles u)

/-- R150, R147: at the recycle time with TRIP deasserted, or at the deassertion after it, the recycle ramp starts from 0: RF
on, the first tenth of the target, and nine more a second apart. Before its time the deassertion changes the line
alone. -/
def Obligations.RecycleRampStarts : Prop :=
  ∀ (s : State) (t v : Nat) (p : RampParams) (c : Instr),
    s.Calm → s.psu.pendingLower = none → s.psu.releasePending = false → s.pres.join ≠ .disabled →
    s.link.state ≠ .lost → s.link.localFlag = false → s.link.level = 0 →
    s.link.op = .recycle → s.link.ramp = some p → s.link.recycleAt = some v →
    ((c = .recycleTime t ∧ s.tripLine = false) ∨ c = .tripDeasserted t) →
    (v ≤ max s.now t →
      let kw := min (max 1 (p.target * 1 / 10)) ((s.atTime t).levelLimit p.carrier)
      ∃ u, exec c s = .next u ∧ u.tripLine = false ∧ u.link.op = .rampUp ∧ u.link.recycleAt = none
        ∧ u.link.level = kw ∧ u.link.permit = s.link.permit
        ∧ u.link.plan = (List.range 9).map (fun i =>
            { due := max s.now t + 1000 * (i + 1), act := .level (max 1 (p.target * (i + 2) / 10)) })
        ∧ (u.link.out.map (·.record)) = (s.atTime t).link.out.map (·.record) ++ [.rf true, .level kw]
        ∧ u.seq = s.seq ∧ u.psu = s.psu ∧ u.map = s.map ∧ u.mat = s.mat)
    ∧ (max s.now t < v → exec (.tripDeasserted t) s = .next { s.atTime t with tripLine := false })

/-- R149: 120 000 ms after the last trip the ladder's count is 0 and TRIPPED is clear. That the time of the last trip stays,
with all else of the link, is the model's choice (notes/assumptions/66.md). -/
def Obligations.TripWindowClearsTheCount : Prop :=
  ∀ (s : State) (t v : Nat) (l : Ladder), s.handed = [] → s.link.ladder = some l → l.last = some v →
    v + 120000 ≤ max s.now t →
    ∃ u, exec (.tripWindowExpiry t) s = .next u
      ∧ u.link = { (s.atTime t).link with ladder := some { l with count := 0 }, tripped := false }
      ∧ u.log = s.log ∧ u.mat = s.mat ∧ u.map = s.map ∧ u.psu = s.psu ∧ u.seq = s.seq

/-! ## Power share unit -/

/-- R164, R161, R163, R159, R175: at the window's end the step is admitted when it fits beside those ahead, and the
occurrence that asked ramps up; else the unit backs off for 2 000 ms with a withdrawal INTENT. At the backoff's end the
highest step that fits is announced again; an intent leaves the table 15 000 ms after its arrival. That a failed test leaves
the window end as it is and the end of the backoff becomes none is the model's choice (notes/assumptions/78.md). -/
def Obligations.IntentTimesRunOut : Prop :=
  ∀ (s : State) (t : Nat), s.handed = [] →
    (∀ r k v, s.psu.phase = .window → s.psu.windowEnd = some v → v ≤ max s.now t →
      s.psu.request = some r → s.psu.candidate = some k →
      let ahead := (s.psu.table.map fun (x : DemandRec) => x.current.getD 0 + match x.intent with
        | some i => if i.cls < r.cls ∨ (i.cls = r.cls ∧ i.earlier = true) then i.intended - x.current.getD 0 else 0
        | none => 0).sum
      let demand := totalDemand s.cfg r.carrier k r.mode
      (ahead + demand ≤ s.cfg.limit - s.cfg.reserve → s.Calm → s.seq.cur.state = .admitting →
        s.seq.cur.occ.isSome = true → s.seq.cur.former = none → s.link.level = 0 → s.psu.localMark = false →
        s.psu.releasePending = false →
        ∃ u, exec (.intentWindowEnd t) s = .next u ∧ u.psu.phase = .none ∧ u.psu.admitted = some k
          ∧ u.psu.announced = demand ∧ u.psu.table = s.psu.table ∧ u.map = s.map ∧ u.mat = s.mat
          ∧ u.seq.cur.state = .ramping ∧ u.seq.cur.admitted = some k ∧ u.seq.cur.occ = s.seq.cur.occ
          ∧ u.link.permit = s.link.permit)
      ∧ (s.cfg.limit - s.cfg.reserve < ahead + demand →
        exec (.intentWindowEnd t) s = .next { s.atTime t with
          psu := { s.psu with phase := .backoff, candidate := none, backoffEnd := some (max s.now t + 2000) },
          bus := if s.pres.join = .joined then
              s.bus.placeIntent
                { intended := s.psu.announced, current := s.psu.announced, cls := r.cls, withdrawal := true }
            else s.bus }))
    ∧ (∀ r k v, s.psu.phase = .backoff → s.psu.backoffEnd = some v → v ≤ max s.now t → s.psu.request = some r →
      s.psu.admitted = none → s.pres.join = .joined → k ∈ [100, 71, 50, 25] → k ≤ s.psu.effectiveCap →
      (∀ j ∈ [100, 71, 50, 25], j ≤ s.psu.effectiveCap →
        (othersCommitted s.psu.table + totalDemand s.cfg r.carrier j r.mode ≤ s.cfg.limit - s.cfg.reserve → j ≤ k)) →
      othersCommitted s.psu.table + totalDemand s.cfg r.carrier k r.mode ≤ s.cfg.limit - s.cfg.reserve →
      exec (.backoffEnd t) s = .next { s.atTime t with
        psu := { s.psu with phase := .placed, candidate := some k, backoffEnd := none },
        bus := s.bus.placeIntent
          { intended := totalDemand s.cfg r.carrier k r.mode, current := s.psu.announced, cls := r.cls,
            withdrawal := false } })
    ∧ (s.psu.phase ≠ .wait →
      exec (.intentExpiry t) s = .next { s.atTime t with
        psu := { s.psu with
          table := s.psu.table.map fun x => { x with
            intent := x.intent.filter fun i => decide (max s.now t < i.arrival + 15000) } } })

/-! ## Claim engine -/

/-- R113, R173: at the unlost end of the window the own BOOKED booking enters with the claim's class, from and until; it is
watched, the phase is BOOKED, and the next context, for whose occurrence the claim was made, has the terminal. -/
def Obligations.UnlostClaimIsBooked : Prop :=
  ∀ (s : State) (t v x : Nat) (o : Occurrence) (r : TermRow), s.Calm → s.seq.nxt.occ = some o →
    s.seq.cur.key ≠ some o.key →
    s.claim.phase = .window → s.claim.windowEnd = some v → v ≤ max s.now t → s.claim.occ = some o →
    s.claim.terminal = some x → ownBooked s.map = none → rowOf s.map x = some r → r.slots.length < 4 →
    RowsDistinct s.map → s.mat.active = none →
    ∃ u q, exec (.claimWindowEnd t) s = .next u ∧ rowOf u.map x = some q
      ∧ ({ owner := s.cfg.station, state := .booked, cls := o.prog.cls, since := s.claim.since,
           till := some s.claim.till, source := .own, heard := none, found := false } : Booking) ∈ q.slots
      ∧ (∀ b ∈ r.slots, b ∈ q.slots) ∧ (∀ n, n ≠ x → rowOf u.map n = rowOf s.map n)
      ∧ u.claim = { s.claim with
          phase := .booked, terminal := none, ownStart := none, ownStartsIn := 0, windowEnd := none, crossing := [],
          watched := some { terminal := x, occ := o } }
      ∧ u.seq.nxt.state = .awaitTerminal ∧ u.seq.nxt.occ = some o
      ∧ u.seq.nxt.taken
        = some { terminal := x, how := .claimed, suspect := isSuspect s.map x (max s.now t / 1000) }
      ∧ u.seq.cur = s.seq.cur ∧ u.link = (s.atTime t).link ∧ u.mat = s.mat ∧ u.store = s.store

/-- R107, R108, R173, R179: at the retry an occurrence that has ended empties the engine's context and the next context that
held it. One that the current context holds in CLAIMING ends at once with its record, COMPLETED once the stop second has come
and else CUT: that it does so at once, with this code and not spent, is the model's choice (notes/assumptions/94.md); the
admission ends with it, the request too (notes/assumptions/91.md). Otherwise LOST marks are open again and the walk begins afresh: here a first candidate that is usable, free of any
suspect mark and not the station's own is claimed. -/
def Obligations.RetryWalksAgain : Prop :=
  ∀ (s : State) (t v : Nat) (o : Occurrence), s.handed = [] → s.claim.phase = .retryWait →
    s.claim.retry = some v → v ≤ max s.now t → s.claim.occ = some o →
    (s.Calm → s.seq.foundOffer = false → s.claim.till ≤ ((max s.now t / 1000 : Nat) : Int) →
      (s.seq.cur.key ≠ some o.key →
        exec (.claimRetry t) s = .next { s.atTime t with
          claim := { Claim.reset with watched := s.claim.watched },
          seq := if s.seq.nxt.key = some o.key then { s.seq with nxt := Ctx.reset } else s.seq })
      ∧ (∀ c, s.seq.cur.occ = some c → c.key = o.key → s.seq.cur.state = .claiming → s.psu.phase = .none →
        s.link.level = 0 →
        let code : EndCode := if s.seq.cur.stopSec ≤ ((max s.now t / 1000 : Nat) : Int) then .completed else .cut
        ∃ u, exec (.claimRetry t) s = .next u ∧ u.claim = { Claim.reset with watched := s.claim.watched }
          ∧ u.seq = { s.seq with cur := { Ctx.reset with spent := s.seq.cur.spent } }
          ∧ u.psu.admitted = none ∧ u.psu.request = none ∧ u.psu.releasePending = false
          ∧ u.map = s.map ∧ u.mat = s.mat ∧ u.link = (s.atTime t).link ∧ u.store = s.store
          ∧ (s.seq.cur.onAir = none → s.seq.cur.running = false → u.log = s.log)
          ∧ (∀ g, s.seq.cur.onAir = none → s.seq.cur.running = true → s.seq.cur.early (s.atTime t).instant = false →
              s.seq.cur.furthest = some g →
              ∃ r, u.log.ring.getLast? = some r ∧ r.body = .entryMissed c.source c.number code g)
          ∧ (s.seq.cur.onAir.isSome = true →
              ∃ r, u.log.ring.getLast? = some r
                ∧ r.body = .entryOff c.source c.number code (s.seq.cur.terminal.or s.seq.cur.lastTerm)
                    s.seq.cur.admitted s.seq.cur.trips (s.seq.cur.offAir (max s.now t)))))
    ∧ (∀ x m ts, ((max s.now t / 1000 : Nat) : Int) < s.claim.till → o.prog.cands = x :: ts →
      s.claim.marks[0]? = some m → m ≠ .exhausted → isSuspect s.map x (max s.now t / 1000) = false →
      (s.atTime t).usable o x = true → ownReaching s.map x s.claim.since = none →
      ownDedicated s.map s.cfg.station x = false → s.pres.join = .joined → s.bus.claim = none →
      exec (.claimRetry t) s = .next { s.atTime t with
        bus := { s.bus with
          claim := some { terminal := x, cls := o.prog.cls, since := s.claim.since, till := s.claim.till } },
        claim := { s.claim with
          phase := .placed, marks := s.claim.marks.map (fun k => if k = .lost then .opened else k), pass := .normal,
          skipped := false, index := 1, retry := none, terminal := some x, crossing := [] } })

/-- R115, R173, R105: at a local second a watched booking that another station's HELD, STALE or DEDICATED booking overlaps,
a STALE one as open-ended (notes/assumptions/83.md), is lost: it leaves the map, a FREE for its terminal is placed and nothing is watched. The next context, whose occurrence
it was for, is CLAIMING again without a terminal, its candidate is marked LOST, and with no candidate left the walk waits
30 000 ms. -/
def Obligations.OvertakenBookingIsGivenUp : Prop :=
  ∀ (s : State) (t : Nat) (w : Watched) (k b : Booking) (r : TermRow), s.Calm →
    s.claim.watched = some w → ownBooked s.map = some (w.terminal, k) → rowOf s.map w.terminal = some r →
    b ∈ r.slots → b.owner ≠ s.cfg.station → (b.state = .held ∨ b.state = .stale ∨ b.state = .dedicated) →
    spansOverlap b.since (if b.state = .stale then none else b.till) (max k.since ((max s.now t / 1000 : Nat) : Int)) k.till
      = true →
    s.seq.nxt.occ = some w.occ → s.seq.cur.key ≠ some w.occ.key → s.claim.phase = .booked →
    s.claim.occ = some w.occ → s.claim.index = w.occ.prog.cands.length → 0 < s.claim.index →
    s.claim.marks.length = w.occ.prog.cands.length → s.claim.skipped = false →
    ∃ u, exec (.claimWatch t) s = .next u ∧ u.claim.watched = none
      ∧ u.map = s.map.map (fun q => if q.number = w.terminal then
          { q with slots := q.slots.filter fun c => ! (c.source == .own && c.state == .booked) } else q)
      ∧ u.bus.free = (s.bus.placeFree { terminal := w.terminal, cls := k.cls }).free
      ∧ u.bus.freeBack = (s.bus.placeFree { terminal := w.terminal, cls := k.cls }).freeBack
      ∧ u.claim.phase = .retryWait ∧ u.claim.retry = some (max s.now t + 30000)
      ∧ u.claim.marks = s.claim.marks.set (s.claim.index - 1) .lost
      ∧ u.seq.nxt.state = .claiming ∧ u.seq.nxt.occ = some w.occ ∧ u.seq.nxt.taken = none ∧ u.seq.cur = s.seq.cur
      ∧ u.link = (s.atTime t).link ∧ u.mat = s.mat ∧ u.store = s.store

/-! ## Entry sequencer -/

/-- R175, R161, R163: at the ramp time with the transmitter tuned the occurrence is ADMITTING and its full step, which
fits, is announced in an INTENT; the last Admit was for another occurrence or terminal, or no trip has capped the step. -/
def Obligations.RampTimeAsksForPower : Prop :=
  ∀ (s : State) (t : Nat) (o : Occurrence) (k : Taken), s.handed = [] → s.seq.cur.state = .tuning →
    s.seq.cur.occ = some o → s.seq.cur.taken = some k → s.link.op = .tuned → s.link.opTerminal = some k.terminal →
    s.seq.cur.heldStep = false → s.seq.cur.rampTime ≤ ((max s.now t : Nat) : Int) → s.seq.cur.cap = 100 →
    s.psu.localMark = false → s.psu.phase = .none → s.psu.admitted = none →
    (s.psu.lastAdmit ≠ some (o.key, k.terminal) ∨ s.psu.tripCap = 100) →
    isSuspect s.map k.terminal (max s.now t / 1000) = false → s.pres.join = .joined →
    othersCommitted s.psu.table + totalDemand s.cfg o.prog.carrier 100 o.prog.mode ≤ s.cfg.limit - s.cfg.reserve →
    ∃ u, exec (.rampTime t) s = .next u ∧ u.seq.cur.state = .admitting ∧ u.seq.cur.occ = some o
      ∧ u.seq.cur.taken = some k ∧ u.psu.phase = .placed ∧ u.psu.candidate = some 100 ∧ u.psu.table = s.psu.table
      ∧ u.bus = s.bus.placeIntent
          { intended := totalDemand s.cfg o.prog.carrier 100 o.prog.mode, current := s.psu.announced,
            cls := o.prog.cls, withdrawal := false }
      ∧ u.link = (s.atTime t).link ∧ u.mat = s.mat ∧ u.map = s.map

/-- R175, R144: a refused Tune is handed again: with the link ready PERMIT is asserted, TUNE and PROGRAMME are issued and
the tune deadline runs; with the link not UP it is refused again and waits another 1 000 ms. -/
def Obligations.RefusedTuneIsHandedAgain : Prop :=
  ∀ (s : State) (t v : Nat) (o : Occurrence) (k : Taken), s.Calm → s.seq.cur.state = .tuning →
    s.seq.cur.occ = some o → s.seq.cur.taken = some k → s.seq.cur.retry = some { kind := .tune, due := v } →
    v ≤ max s.now t →
    (s.link.state = .up → s.link.localFlag = false → s.link.faultCode = 0 → s.link.op = .none →
      s.pres.join ≠ .disabled → s.mat.onlyClosed k.terminal = true → s.mat.active = none →
      (ownHeld s.map).map (·.1) = some k.terminal →
      ∃ u, exec (.sequencerRetry t) s = .next u ∧ u.link.permit = true ∧ u.link.op = .tuning
        ∧ u.link.opTerminal = some k.terminal ∧ u.link.seenClear = false
        ∧ u.link.tuneDeadline = some (max s.now t + s.cfg.tune * 1000) ∧ u.link.level = s.link.level
        ∧ (u.link.out.map (·.record)) = (s.atTime t).link.out.map (·.record)
            ++ [.tune o.prog.freq o.prog.mode, .programme o.prog.programme]
        ∧ u.seq.cur.state = .tuning ∧ u.seq.cur.retry = none ∧ u.mat = s.mat ∧ u.map = s.map)
    ∧ (s.link.state ≠ .up →
      ∃ u, exec (.sequencerRetry t) s = .next u ∧ u.link = (s.atTime t).link ∧ u.seq.cur.state = .tuning
        ∧ u.seq.cur.retry = some { kind := .tune, due := max s.now t + 1000 } ∧ u.mat = s.mat ∧ u.map = s.map)

/-! ## Calendar and activity -/

/-- R34, R35: turning a date and minute into an instant and turning an instant back undo each other, over the whole range of
the calendar. -/
def Obligations.CalendarTurnsBothWays : Prop :=
  (∀ y m d minute, validDate y m d = true → minute < 1440 →
    dateOfInstant (instantOf y m d minute)
      = { year := y, month := m, day := d, hour := minute / 60, minute := minute % 60 })
  ∧ ∀ x, x ≤ 52595999 →
    validDate (dateOfInstant x).year (dateOfInstant x).month (dateOfInstant x).day = true
      ∧ instantOf (dateOfInstant x).year (dateOfInstant x).month (dateOfInstant x).day
          ((dateOfInstant x).hour * 60 + (dateOfInstant x).minute) = x

/-- R4, R36: the test of an entry at a weekday and minute agrees with the pieces of the week that its day set, start and stop
cover, entries that pass midnight or the end of the week among them. -/
def Obligations.ActivityAgreesWithTheWeek : Prop :=
  ∀ (e : Entry) (d m : Nat), d < 7 → m < 1440 → e.prog.start < 1440 → e.prog.stop < 1440 →
    activeAt e d m = (weekPieces e).any fun p => decide (p.1 ≤ d * 1440 + m) && decide (d * 1440 + m < p.2)

/-! ## The laws of the part -/

/-- R124, R127, R142: in every state that has it, every step keeps the interlock: PERMIT stands only on its conditions; no
drive runs with PERMIT on or RF present; and a crosspoint is driven toward CLOSED only beside crosspoints read OPEN. Beside
it every step keeps the last condition of R142, that the own HELD booking names the operation terminal, and the law of the
carrier (R139, R145 to R148): PERMIT in exactly the operations that carry it, a level above 0 in a ramp or a steady carrier
alone, and no level, commanded or still to be sent, above the transmitter rating. -/
def Obligations.EveryStepKeepsTheInterlock : Prop :=
  ∀ s t : State, Interlock s → step s = .next t →
    Interlock t ∧ (PermitNamed s → PermitNamed t)
      ∧ (CarrierLaw s.link s.cfg.rating → CarrierLaw t.link t.cfg.rating)

/-- R184: in every state that has it, every step keeps the law of the air log: at most 64 records, numbered without a gap up
to the number before the next one. -/
def Obligations.EveryStepKeepsTheLogNumbered : Prop :=
  ∀ s t : State, s.log.Numbered → step s = .next t → t.log.Numbered

/-- R52 to R54, R76 to R78, R186, R7, R157: every step keeps the capacities of the outbound queues, of the four booking
slots of a terminal and of the request queue, one row a terminal with its bookings in the order of their froms, and at most
one bank LIVE; beside these, that at most one own HELD and at most one own BOOKED booking stands in the map, and that the
announced demand is the one that R157 gives its three conditions, and so, while a step is admitted, is no lower than the
standby and the RF demand of any level up to that step of the carrier. -/
def Obligations.EveryStepKeepsTheCapacities : Prop :=
  ∀ s t : State, Capacities s → OneLive s.store → step s = .next t → Capacities t ∧ OneLive t.store
    ∧ (OwnOnce s.map → OwnOnce t.map)
    ∧ (Announced s → Announced t
      ∧ ∀ k b v, t.psu.localMark = false → t.psu.admitted = some k → t.psu.basis = some b → v * 100 ≤ b.carrier * k →
          totalDemand t.cfg v 100 b.mode ≤ t.psu.announced)

/-- The laws hold in the state that reset leaves, PERMIT off and nothing driven, so that they hold in every state that
follows it. -/
def Obligations.ResetMeetsTheLaws : Prop :=
  let laws (t : State) : Prop :=
    Interlock t ∧ PermitNamed t ∧ CarrierLaw t.link t.cfg.rating ∧ t.log.Numbered ∧ Capacities t ∧ OneLive t.store
      ∧ OwnOnce t.map ∧ Announced t
  laws State.reset ∧ ∀ s t : State, exec .reset s = .next t → laws t
end

