-- ==== Sys2Proof/Laws/Bus.lean ====
section
/-! SUPPORT. The outbound slots and queues keep their capacities (R52 to R54): one lemma for each operation on them. -/

namespace Sys2Proof.Machine

theorem denyReplace_length (f : DenyFrame) (l : List DenyFrame) : (denyReplace f l).length = l.length := by
  induction l with
  | nil => rfl
  | cons g rest ih => unfold denyReplace; split <;> simp [ih]

theorem Bus.Within.placeNotice {b : Bus} (h : b.Within) (n : NoticeFrame) : (b.placeNotice n).Within := by
  unfold Bus.placeNotice; split <;> exact { h with }

theorem Bus.Within.placeIntent {b : Bus} (h : b.Within) (f : IntentFrame) : (b.placeIntent f).Within := by
  unfold Bus.placeIntent; split <;> exact { h with }

theorem Bus.Within.placeClaim {b : Bus} (h : b.Within) (f : ClaimFrame) : (b.placeClaim f).1.Within := by
  unfold Bus.placeClaim; split <;> exact { h with }

theorem Bus.Within.placeFree {b : Bus} (h : b.Within) (f : FreeFrame) : (b.placeFree f).Within := by
  unfold Bus.placeFree
  split
  · exact { h with }
  · split
    · exact h
    · split
      · exact { h with free := by simp only [List.length_append, List.length_singleton]; omega }
      · exact h

theorem Bus.Within.placeFault {b : Bus} (h : b.Within) (f : FaultFrame) : (b.placeFault f).Within := by
  unfold Bus.placeFault
  split
  · exact { h with }
  · split
    · exact { h with }
    · split
      · exact { h with fault := by simpa using h.fault }
      · split
        · exact { h with fault := by simp only [List.length_append, List.length_singleton]; omega }
        · exact h

theorem Bus.Within.placeDeny {b : Bus} (h : b.Within) (f : DenyFrame) : (b.placeDeny f).Within := by
  have hd := h.deny
  unfold Bus.placeDeny
  split
  · refine { h with deny := ?_ }
    unfold Bus.denyWaiting
    split <;> simp only [List.length_append, denyReplace_length, List.length_take, List.length_drop, List.length_nil]
      <;> omega
  · split
    · exact { h with deny := by simp only [List.length_append, List.length_singleton]; omega }
    · exact h

theorem Bus.Within.placeLogrec {b : Bus} (h : b.Within) (r : LogRecord) : (b.placeLogrec r).Within := by
  have hl := h.logs
  unfold Bus.placeLogrec
  split
  · exact { h with logs := by simp only [List.length_append, List.length_singleton]; omega }
  · unfold logCapacity at *
    split
    · exact { h with
        logs := by
          simp only [List.length_append, List.length_singleton, List.length_take, List.length_drop, logCapacity]
          omega }
    · exact { h with
        logs := by
          simp only [List.length_append, List.length_singleton, List.length_drop, logCapacity]
          omega }

theorem Bus.Within.placeReply {b : Bus} (h : b.Within) (r : Reply) : (b.placeReply r).Within := { h with }

theorem Bus.Within.withdrawClaim {b : Bus} (h : b.Within) : b.withdrawClaim.1.Within := by
  unfold Bus.withdrawClaim
  split
  · exact h
  · split <;> exact { h with }

theorem Bus.Within.begin_ {b : Bus} (h : b.Within) (j : JoinState) (station t free : Nat) :
    (b.begin_ j station t free).Within := by
  unfold Bus.begin_
  split
  · exact h
  · split
    · exact h
    · exact { h with }

theorem Bus.Within.setCount {b : Bus} (h : b.Within) (k : Holder) (n : Nat) : (b.setCount k n).Within := by
  cases k <;> exact { h with }

theorem Bus.Within.leave {b : Bus} (h : b.Within) (k : Holder) : (b.leave k).Within := by
  have h1 := h.deny; have h2 := h.logs; have h3 := h.free; have h4 := h.fault
  cases k
  case deny => exact { h with deny := by simp only [Bus.leave, List.length_drop]; omega }
  case free => exact { h with free := by simp only [Bus.leave, List.length_drop]; omega }
  case fault => exact { h with fault := by simp only [Bus.leave, List.length_drop]; omega }
  case logrec => exact { h with logs := by simp only [Bus.leave, List.length_drop]; omega }
  all_goals exact { h with }

theorem Bus.Within.moveSuccessor {b : Bus} (h : b.Within) (k : Holder) : (b.moveSuccessor k).Within := by
  unfold Bus.moveSuccessor
  split
  · split
    · exact { h with }
    · exact h
  · split
    · exact { h with }
    · exact h
  · exact h

theorem Bus.Within.noAttempt {b : Bus} (h : b.Within) : ({ b with attempt := none } : Bus).Within := { h with }

theorem Bus.Within.takenBack {b : Bus} (h : b.Within) (a : Attempt) {r : Bus × List Handed}
    (e : b.takenBack a = some r) : r.1.Within := by
  unfold Bus.takenBack at e
  split at e
  · split at e
    · cases e; exact { h with }
    · cases e
  · split at e
    · cases e; exact { h with }
    · cases e
  · cases e

theorem Bus.Within.succeed {b : Bus} (h : b.Within) : b.succeed.1.Within := by
  unfold Bus.succeed
  split
  · exact h
  · split
    · exact { h with }
    · exact ((show ({ b with attempt := none, drops := 0 } : Bus).Within from { h with }).leave _).setCount _ _

theorem Bus.Within.dropFrame {b : Bus} (h : b.Within) (a : Attempt) : (b.dropFrame a).1.Within := by
  unfold Bus.dropFrame
  exact ((show ({ b with attempt := none, drops := min (b.drops + 1) dropMax } : Bus).Within from
    { h with }).leave _).setCount _ _

theorem Bus.Within.fail {b : Bus} (h : b.Within) : b.fail.1.Within := by
  unfold Bus.fail
  split
  · exact h
  · split
    · exact { h with }
    · split
      · rename_i e; exact h.noAttempt.takenBack _ e
      · split
        · exact (h.noAttempt.setCount _ _).moveSuccessor _
        · exact h.dropFrame _

theorem Bus.Within.loseArbitration {b : Bus} (h : b.Within) : b.loseArbitration.1.Within := by
  unfold Bus.loseArbitration
  split
  · exact h
  · split
    · exact { h with }
    · split
      · rename_i e; exact h.noAttempt.takenBack _ e
      · exact h.noAttempt.moveSuccessor _

theorem Bus.Within.reset : Bus.reset.Within := { deny := by decide, logs := by decide, free := by decide, fault := by decide }

theorem Bus.Within.onJoin {b : Bus} (h : b.Within) (old new : JoinState) : (b.onJoin old new).1.Within := by
  unfold Bus.onJoin
  split
  · exact { Bus.Within.reset with }
  · split
    · unfold Bus.leaveJoined
      exact { h with }
    · exact h

end Sys2Proof.Machine
end

