-- ==== Sys2Proof/Laws/State.lean ====
section
/-! SUPPORT. One lemma per field per update of State, true by unfolding the update, so that no later proof unfolds one;
with the two equations of draining hand-outs. -/

namespace Sys2Proof.Machine

/-! ## emit -/

@[simp] theorem State.emit_now (s : State) (ms : List Handed) : (s.emit ms).now = s.now := rfl
@[simp] theorem State.emit_image (s : State) (ms : List Handed) : (s.emit ms).image = s.image := rfl
@[simp] theorem State.emit_cfg (s : State) (ms : List Handed) : (s.emit ms).cfg = s.cfg := rfl
@[simp] theorem State.emit_rfPresent (s : State) (ms : List Handed) : (s.emit ms).rfPresent = s.rfPresent := rfl
@[simp] theorem State.emit_tripLine (s : State) (ms : List Handed) : (s.emit ms).tripLine = s.tripLine := rfl
@[simp] theorem State.emit_store (s : State) (ms : List Handed) : (s.emit ms).store = s.store := rfl
@[simp] theorem State.emit_serial (s : State) (ms : List Handed) : (s.emit ms).serial = s.serial := rfl
@[simp] theorem State.emit_clock (s : State) (ms : List Handed) : (s.emit ms).clock = s.clock := rfl
@[simp] theorem State.emit_log (s : State) (ms : List Handed) : (s.emit ms).log = s.log := rfl
@[simp] theorem State.emit_req (s : State) (ms : List Handed) : (s.emit ms).req = s.req := rfl
@[simp] theorem State.emit_alert (s : State) (ms : List Handed) : (s.emit ms).alert = s.alert := rfl
@[simp] theorem State.emit_bus (s : State) (ms : List Handed) : (s.emit ms).bus = s.bus := rfl
@[simp] theorem State.emit_pres (s : State) (ms : List Handed) : (s.emit ms).pres = s.pres := rfl
@[simp] theorem State.emit_map (s : State) (ms : List Handed) : (s.emit ms).map = s.map := rfl
@[simp] theorem State.emit_claim (s : State) (ms : List Handed) : (s.emit ms).claim = s.claim := rfl
@[simp] theorem State.emit_mat (s : State) (ms : List Handed) : (s.emit ms).mat = s.mat := rfl
@[simp] theorem State.emit_link (s : State) (ms : List Handed) : (s.emit ms).link = s.link := rfl
@[simp] theorem State.emit_psu (s : State) (ms : List Handed) : (s.emit ms).psu = s.psu := rfl
@[simp] theorem State.emit_seq (s : State) (ms : List Handed) : (s.emit ms).seq = s.seq := rfl
@[simp] theorem State.emit_handed (s : State) (ms : List Handed) : (s.emit ms).handed = s.handed ++ ms := rfl
@[simp] theorem State.emit_freeCount (s : State) (ms : List Handed) : (s.emit ms).freeCount = s.freeCount := rfl
@[simp] theorem State.emit_stampMinute (s : State) (ms : List Handed) : (s.emit ms).stampMinute = s.stampMinute := rfl
@[simp] theorem State.emit_pending (s : State) (ms : List Handed) : (s.emit ms).pending = s.pending := rfl

/-! ## atTime -/

@[simp] theorem State.atTime_now (s : State) (t : Nat) : (s.atTime t).now = max s.now t := rfl
@[simp] theorem State.atTime_image (s : State) (t : Nat) : (s.atTime t).image = s.image := rfl
@[simp] theorem State.atTime_cfg (s : State) (t : Nat) : (s.atTime t).cfg = s.cfg := rfl
@[simp] theorem State.atTime_rfPresent (s : State) (t : Nat) : (s.atTime t).rfPresent = s.rfPresent := rfl
@[simp] theorem State.atTime_tripLine (s : State) (t : Nat) : (s.atTime t).tripLine = s.tripLine := rfl
@[simp] theorem State.atTime_store (s : State) (t : Nat) : (s.atTime t).store = s.store := rfl
@[simp] theorem State.atTime_serial (s : State) (t : Nat) : (s.atTime t).serial = s.serial := rfl
@[simp] theorem State.atTime_clock (s : State) (t : Nat) : (s.atTime t).clock = s.clock := rfl
@[simp] theorem State.atTime_log (s : State) (t : Nat) : (s.atTime t).log = s.log := rfl
@[simp] theorem State.atTime_req (s : State) (t : Nat) : (s.atTime t).req = s.req := rfl
@[simp] theorem State.atTime_alert (s : State) (t : Nat) : (s.atTime t).alert = s.alert := rfl
@[simp] theorem State.atTime_bus (s : State) (t : Nat) : (s.atTime t).bus = s.bus := rfl
@[simp] theorem State.atTime_pres (s : State) (t : Nat) : (s.atTime t).pres = s.pres := rfl
@[simp] theorem State.atTime_map (s : State) (t : Nat) : (s.atTime t).map = s.map := rfl
@[simp] theorem State.atTime_claim (s : State) (t : Nat) : (s.atTime t).claim = s.claim := rfl
@[simp] theorem State.atTime_mat (s : State) (t : Nat) : (s.atTime t).mat = s.mat := rfl
@[simp] theorem State.atTime_psu (s : State) (t : Nat) : (s.atTime t).psu = s.psu := rfl
@[simp] theorem State.atTime_seq (s : State) (t : Nat) : (s.atTime t).seq = s.seq := rfl
@[simp] theorem State.atTime_handed (s : State) (t : Nat) : (s.atTime t).handed = s.handed := rfl
@[simp] theorem State.atTime_freeCount (s : State) (t : Nat) : (s.atTime t).freeCount = s.freeCount := rfl
@[simp] theorem State.atTime_stampMinute (s : State) (t : Nat) : (s.atTime t).stampMinute = none := rfl
@[simp] theorem State.atTime_pending (s : State) (t : Nat) : (s.atTime t).pending = s.pending := rfl
@[simp] theorem State.atTime_permit (s : State) (t : Nat) : (s.atTime t).link.permit = s.link.permit := rfl
@[simp] theorem State.atTime_op (s : State) (t : Nat) : (s.atTime t).link.op = s.link.op := rfl
@[simp] theorem State.atTime_level (s : State) (t : Nat) : (s.atTime t).link.level = s.link.level := rfl

/-! ## setCur -/

@[simp] theorem State.setCur_now (s : State) (c : Ctx) : (s.setCur c).now = s.now := rfl
@[simp] theorem State.setCur_image (s : State) (c : Ctx) : (s.setCur c).image = s.image := rfl
@[simp] theorem State.setCur_cfg (s : State) (c : Ctx) : (s.setCur c).cfg = s.cfg := rfl
@[simp] theorem State.setCur_rfPresent (s : State) (c : Ctx) : (s.setCur c).rfPresent = s.rfPresent := rfl
@[simp] theorem State.setCur_tripLine (s : State) (c : Ctx) : (s.setCur c).tripLine = s.tripLine := rfl
@[simp] theorem State.setCur_store (s : State) (c : Ctx) : (s.setCur c).store = s.store := rfl
@[simp] theorem State.setCur_serial (s : State) (c : Ctx) : (s.setCur c).serial = s.serial := rfl
@[simp] theorem State.setCur_clock (s : State) (c : Ctx) : (s.setCur c).clock = s.clock := rfl
@[simp] theorem State.setCur_log (s : State) (c : Ctx) : (s.setCur c).log = s.log := rfl
@[simp] theorem State.setCur_req (s : State) (c : Ctx) : (s.setCur c).req = s.req := rfl
@[simp] theorem State.setCur_alert (s : State) (c : Ctx) : (s.setCur c).alert = s.alert := rfl
@[simp] theorem State.setCur_bus (s : State) (c : Ctx) : (s.setCur c).bus = s.bus := rfl
@[simp] theorem State.setCur_pres (s : State) (c : Ctx) : (s.setCur c).pres = s.pres := rfl
@[simp] theorem State.setCur_map (s : State) (c : Ctx) : (s.setCur c).map = s.map := rfl
@[simp] theorem State.setCur_claim (s : State) (c : Ctx) : (s.setCur c).claim = s.claim := rfl
@[simp] theorem State.setCur_mat (s : State) (c : Ctx) : (s.setCur c).mat = s.mat := rfl
@[simp] theorem State.setCur_link (s : State) (c : Ctx) : (s.setCur c).link = s.link := rfl
@[simp] theorem State.setCur_psu (s : State) (c : Ctx) : (s.setCur c).psu = s.psu := rfl
@[simp] theorem State.setCur_seq (s : State) (c : Ctx) : (s.setCur c).seq = { s.seq with cur := c } := rfl
@[simp] theorem State.setCur_handed (s : State) (c : Ctx) : (s.setCur c).handed = s.handed := rfl
@[simp] theorem State.setCur_freeCount (s : State) (c : Ctx) : (s.setCur c).freeCount = s.freeCount := rfl
@[simp] theorem State.setCur_stampMinute (s : State) (c : Ctx) : (s.setCur c).stampMinute = s.stampMinute := rfl
@[simp] theorem State.setCur_pending (s : State) (c : Ctx) : (s.setCur c).pending = s.pending := rfl
@[simp] theorem State.setCur_cur (s : State) (c : Ctx) : (s.setCur c).seq.cur = c := rfl
@[simp] theorem State.setCur_nxt (s : State) (c : Ctx) : (s.setCur c).seq.nxt = s.seq.nxt := rfl

/-! ## setNxt -/

@[simp] theorem State.setNxt_now (s : State) (c : Ctx) : (s.setNxt c).now = s.now := rfl
@[simp] theorem State.setNxt_image (s : State) (c : Ctx) : (s.setNxt c).image = s.image := rfl
@[simp] theorem State.setNxt_cfg (s : State) (c : Ctx) : (s.setNxt c).cfg = s.cfg := rfl
@[simp] theorem State.setNxt_rfPresent (s : State) (c : Ctx) : (s.setNxt c).rfPresent = s.rfPresent := rfl
@[simp] theorem State.setNxt_tripLine (s : State) (c : Ctx) : (s.setNxt c).tripLine = s.tripLine := rfl
@[simp] theorem State.setNxt_store (s : State) (c : Ctx) : (s.setNxt c).store = s.store := rfl
@[simp] theorem State.setNxt_serial (s : State) (c : Ctx) : (s.setNxt c).serial = s.serial := rfl
@[simp] theorem State.setNxt_clock (s : State) (c : Ctx) : (s.setNxt c).clock = s.clock := rfl
@[simp] theorem State.setNxt_log (s : State) (c : Ctx) : (s.setNxt c).log = s.log := rfl
@[simp] theorem State.setNxt_req (s : State) (c : Ctx) : (s.setNxt c).req = s.req := rfl
@[simp] theorem State.setNxt_alert (s : State) (c : Ctx) : (s.setNxt c).alert = s.alert := rfl
@[simp] theorem State.setNxt_bus (s : State) (c : Ctx) : (s.setNxt c).bus = s.bus := rfl
@[simp] theorem State.setNxt_pres (s : State) (c : Ctx) : (s.setNxt c).pres = s.pres := rfl
@[simp] theorem State.setNxt_map (s : State) (c : Ctx) : (s.setNxt c).map = s.map := rfl
@[simp] theorem State.setNxt_claim (s : State) (c : Ctx) : (s.setNxt c).claim = s.claim := rfl
@[simp] theorem State.setNxt_mat (s : State) (c : Ctx) : (s.setNxt c).mat = s.mat := rfl
@[simp] theorem State.setNxt_link (s : State) (c : Ctx) : (s.setNxt c).link = s.link := rfl
@[simp] theorem State.setNxt_psu (s : State) (c : Ctx) : (s.setNxt c).psu = s.psu := rfl
@[simp] theorem State.setNxt_seq (s : State) (c : Ctx) : (s.setNxt c).seq = { s.seq with nxt := c } := rfl
@[simp] theorem State.setNxt_handed (s : State) (c : Ctx) : (s.setNxt c).handed = s.handed := rfl
@[simp] theorem State.setNxt_freeCount (s : State) (c : Ctx) : (s.setNxt c).freeCount = s.freeCount := rfl
@[simp] theorem State.setNxt_stampMinute (s : State) (c : Ctx) : (s.setNxt c).stampMinute = s.stampMinute := rfl
@[simp] theorem State.setNxt_pending (s : State) (c : Ctx) : (s.setNxt c).pending = s.pending := rfl

/-! ## reply -/

@[simp] theorem State.reply_now (s : State) (r : Reply) : (s.reply r).now = s.now := rfl
@[simp] theorem State.reply_image (s : State) (r : Reply) : (s.reply r).image = s.image := rfl
@[simp] theorem State.reply_cfg (s : State) (r : Reply) : (s.reply r).cfg = s.cfg := rfl
@[simp] theorem State.reply_rfPresent (s : State) (r : Reply) : (s.reply r).rfPresent = s.rfPresent := rfl
@[simp] theorem State.reply_tripLine (s : State) (r : Reply) : (s.reply r).tripLine = s.tripLine := rfl
@[simp] theorem State.reply_store (s : State) (r : Reply) : (s.reply r).store = s.store := rfl
@[simp] theorem State.reply_serial (s : State) (r : Reply) : (s.reply r).serial = s.serial := rfl
@[simp] theorem State.reply_clock (s : State) (r : Reply) : (s.reply r).clock = s.clock := rfl
@[simp] theorem State.reply_log (s : State) (r : Reply) : (s.reply r).log = s.log := rfl
@[simp] theorem State.reply_req (s : State) (r : Reply) : (s.reply r).req = s.req := rfl
@[simp] theorem State.reply_alert (s : State) (r : Reply) : (s.reply r).alert = s.alert := rfl
@[simp] theorem State.reply_bus (s : State) (r : Reply) : (s.reply r).bus = s.bus.placeReply r := rfl
@[simp] theorem State.reply_pres (s : State) (r : Reply) : (s.reply r).pres = s.pres := rfl
@[simp] theorem State.reply_map (s : State) (r : Reply) : (s.reply r).map = s.map := rfl
@[simp] theorem State.reply_claim (s : State) (r : Reply) : (s.reply r).claim = s.claim := rfl
@[simp] theorem State.reply_mat (s : State) (r : Reply) : (s.reply r).mat = s.mat := rfl
@[simp] theorem State.reply_link (s : State) (r : Reply) : (s.reply r).link = s.link := rfl
@[simp] theorem State.reply_psu (s : State) (r : Reply) : (s.reply r).psu = s.psu := rfl
@[simp] theorem State.reply_seq (s : State) (r : Reply) : (s.reply r).seq = s.seq := rfl
@[simp] theorem State.reply_handed (s : State) (r : Reply) : (s.reply r).handed = s.handed := rfl
@[simp] theorem State.reply_freeCount (s : State) (r : Reply) : (s.reply r).freeCount = s.freeCount := rfl
@[simp] theorem State.reply_stampMinute (s : State) (r : Reply) : (s.reply r).stampMinute = s.stampMinute := rfl
@[simp] theorem State.reply_pending (s : State) (r : Reply) : (s.reply r).pending = s.pending := rfl

/-! ## placeFree -/

@[simp] theorem State.placeFree_now (s : State) (t cls : Nat) : (s.placeFree t cls).now = s.now := rfl
@[simp] theorem State.placeFree_image (s : State) (t cls : Nat) : (s.placeFree t cls).image = s.image := rfl
@[simp] theorem State.placeFree_cfg (s : State) (t cls : Nat) : (s.placeFree t cls).cfg = s.cfg := rfl
@[simp] theorem State.placeFree_rfPresent (s : State) (t cls : Nat) : (s.placeFree t cls).rfPresent = s.rfPresent := rfl
@[simp] theorem State.placeFree_tripLine (s : State) (t cls : Nat) : (s.placeFree t cls).tripLine = s.tripLine := rfl
@[simp] theorem State.placeFree_store (s : State) (t cls : Nat) : (s.placeFree t cls).store = s.store := rfl
@[simp] theorem State.placeFree_serial (s : State) (t cls : Nat) : (s.placeFree t cls).serial = s.serial := rfl
@[simp] theorem State.placeFree_clock (s : State) (t cls : Nat) : (s.placeFree t cls).clock = s.clock := rfl
@[simp] theorem State.placeFree_log (s : State) (t cls : Nat) : (s.placeFree t cls).log = s.log := rfl
@[simp] theorem State.placeFree_req (s : State) (t cls : Nat) : (s.placeFree t cls).req = s.req := rfl
@[simp] theorem State.placeFree_alert (s : State) (t cls : Nat) : (s.placeFree t cls).alert = s.alert := rfl
@[simp] theorem State.placeFree_bus (s : State) (t cls : Nat) : (s.placeFree t cls).bus = s.bus.placeFree { terminal := t, cls := cls } := rfl
@[simp] theorem State.placeFree_pres (s : State) (t cls : Nat) : (s.placeFree t cls).pres = s.pres := rfl
@[simp] theorem State.placeFree_map (s : State) (t cls : Nat) : (s.placeFree t cls).map = s.map := rfl
@[simp] theorem State.placeFree_claim (s : State) (t cls : Nat) : (s.placeFree t cls).claim = s.claim := rfl
@[simp] theorem State.placeFree_mat (s : State) (t cls : Nat) : (s.placeFree t cls).mat = s.mat := rfl
@[simp] theorem State.placeFree_link (s : State) (t cls : Nat) : (s.placeFree t cls).link = s.link := rfl
@[simp] theorem State.placeFree_psu (s : State) (t cls : Nat) : (s.placeFree t cls).psu = s.psu := rfl
@[simp] theorem State.placeFree_seq (s : State) (t cls : Nat) : (s.placeFree t cls).seq = s.seq := rfl
@[simp] theorem State.placeFree_handed (s : State) (t cls : Nat) : (s.placeFree t cls).handed = s.handed := rfl
@[simp] theorem State.placeFree_freeCount (s : State) (t cls : Nat) : (s.placeFree t cls).freeCount = s.freeCount := rfl
@[simp] theorem State.placeFree_stampMinute (s : State) (t cls : Nat) : (s.placeFree t cls).stampMinute = s.stampMinute := rfl
@[simp] theorem State.placeFree_pending (s : State) (t cls : Nat) : (s.placeFree t cls).pending = s.pending := rfl

/-! ## issueWrite -/

@[simp] theorem State.issueWrite_now (s : State) (w : SerialWrite) (r : Option Reply) : (s.issueWrite w r).now = s.now := rfl
@[simp] theorem State.issueWrite_image (s : State) (w : SerialWrite) (r : Option Reply) : (s.issueWrite w r).image = s.image := rfl
@[simp] theorem State.issueWrite_cfg (s : State) (w : SerialWrite) (r : Option Reply) : (s.issueWrite w r).cfg = s.cfg := rfl
@[simp] theorem State.issueWrite_rfPresent (s : State) (w : SerialWrite) (r : Option Reply) : (s.issueWrite w r).rfPresent = s.rfPresent := rfl
@[simp] theorem State.issueWrite_tripLine (s : State) (w : SerialWrite) (r : Option Reply) : (s.issueWrite w r).tripLine = s.tripLine := rfl
@[simp] theorem State.issueWrite_store (s : State) (w : SerialWrite) (r : Option Reply) : (s.issueWrite w r).store = s.store := rfl
@[simp] theorem State.issueWrite_serial (s : State) (w : SerialWrite) (r : Option Reply) : (s.issueWrite w r).serial = { s.serial with writes := s.serial.writes ++ [{ what := w, reply := r }] } := rfl
@[simp] theorem State.issueWrite_clock (s : State) (w : SerialWrite) (r : Option Reply) : (s.issueWrite w r).clock = s.clock := rfl
@[simp] theorem State.issueWrite_log (s : State) (w : SerialWrite) (r : Option Reply) : (s.issueWrite w r).log = s.log := rfl
@[simp] theorem State.issueWrite_req (s : State) (w : SerialWrite) (r : Option Reply) : (s.issueWrite w r).req = s.req := rfl
@[simp] theorem State.issueWrite_alert (s : State) (w : SerialWrite) (r : Option Reply) : (s.issueWrite w r).alert = s.alert := rfl
@[simp] theorem State.issueWrite_bus (s : State) (w : SerialWrite) (r : Option Reply) : (s.issueWrite w r).bus = s.bus := rfl
@[simp] theorem State.issueWrite_pres (s : State) (w : SerialWrite) (r : Option Reply) : (s.issueWrite w r).pres = s.pres := rfl
@[simp] theorem State.issueWrite_map (s : State) (w : SerialWrite) (r : Option Reply) : (s.issueWrite w r).map = s.map := rfl
@[simp] theorem State.issueWrite_claim (s : State) (w : SerialWrite) (r : Option Reply) : (s.issueWrite w r).claim = s.claim := rfl
@[simp] theorem State.issueWrite_mat (s : State) (w : SerialWrite) (r : Option Reply) : (s.issueWrite w r).mat = s.mat := rfl
@[simp] theorem State.issueWrite_link (s : State) (w : SerialWrite) (r : Option Reply) : (s.issueWrite w r).link = s.link := rfl
@[simp] theorem State.issueWrite_psu (s : State) (w : SerialWrite) (r : Option Reply) : (s.issueWrite w r).psu = s.psu := rfl
@[simp] theorem State.issueWrite_seq (s : State) (w : SerialWrite) (r : Option Reply) : (s.issueWrite w r).seq = s.seq := rfl
@[simp] theorem State.issueWrite_handed (s : State) (w : SerialWrite) (r : Option Reply) : (s.issueWrite w r).handed = s.handed := rfl
@[simp] theorem State.issueWrite_freeCount (s : State) (w : SerialWrite) (r : Option Reply) : (s.issueWrite w r).freeCount = s.freeCount := rfl
@[simp] theorem State.issueWrite_stampMinute (s : State) (w : SerialWrite) (r : Option Reply) : (s.issueWrite w r).stampMinute = s.stampMinute := rfl
@[simp] theorem State.issueWrite_pending (s : State) (w : SerialWrite) (r : Option Reply) : (s.issueWrite w r).pending = s.pending := rfl

/-! ## setExtra -/

@[simp] theorem State.setExtra_now (s : State) (slot : Nat) (x : Option Extra) : (s.setExtra slot x).now = s.now := rfl
@[simp] theorem State.setExtra_image (s : State) (slot : Nat) (x : Option Extra) : (s.setExtra slot x).image = s.image := rfl
@[simp] theorem State.setExtra_cfg (s : State) (slot : Nat) (x : Option Extra) : (s.setExtra slot x).cfg = s.cfg := rfl
@[simp] theorem State.setExtra_rfPresent (s : State) (slot : Nat) (x : Option Extra) : (s.setExtra slot x).rfPresent = s.rfPresent := rfl
@[simp] theorem State.setExtra_tripLine (s : State) (slot : Nat) (x : Option Extra) : (s.setExtra slot x).tripLine = s.tripLine := rfl
@[simp] theorem State.setExtra_store (s : State) (slot : Nat) (x : Option Extra) : (s.setExtra slot x).store = { s.store with extras := s.store.extras.set slot x } := rfl
@[simp] theorem State.setExtra_serial (s : State) (slot : Nat) (x : Option Extra) : (s.setExtra slot x).serial = s.serial := rfl
@[simp] theorem State.setExtra_clock (s : State) (slot : Nat) (x : Option Extra) : (s.setExtra slot x).clock = s.clock := rfl
@[simp] theorem State.setExtra_log (s : State) (slot : Nat) (x : Option Extra) : (s.setExtra slot x).log = s.log := rfl
@[simp] theorem State.setExtra_req (s : State) (slot : Nat) (x : Option Extra) : (s.setExtra slot x).req = s.req := rfl
@[simp] theorem State.setExtra_alert (s : State) (slot : Nat) (x : Option Extra) : (s.setExtra slot x).alert = s.alert := rfl
@[simp] theorem State.setExtra_bus (s : State) (slot : Nat) (x : Option Extra) : (s.setExtra slot x).bus = s.bus := rfl
@[simp] theorem State.setExtra_pres (s : State) (slot : Nat) (x : Option Extra) : (s.setExtra slot x).pres = s.pres := rfl
@[simp] theorem State.setExtra_map (s : State) (slot : Nat) (x : Option Extra) : (s.setExtra slot x).map = s.map := rfl
@[simp] theorem State.setExtra_claim (s : State) (slot : Nat) (x : Option Extra) : (s.setExtra slot x).claim = s.claim := rfl
@[simp] theorem State.setExtra_mat (s : State) (slot : Nat) (x : Option Extra) : (s.setExtra slot x).mat = s.mat := rfl
@[simp] theorem State.setExtra_link (s : State) (slot : Nat) (x : Option Extra) : (s.setExtra slot x).link = s.link := rfl
@[simp] theorem State.setExtra_psu (s : State) (slot : Nat) (x : Option Extra) : (s.setExtra slot x).psu = s.psu := rfl
@[simp] theorem State.setExtra_seq (s : State) (slot : Nat) (x : Option Extra) : (s.setExtra slot x).seq = s.seq := rfl
@[simp] theorem State.setExtra_handed (s : State) (slot : Nat) (x : Option Extra) : (s.setExtra slot x).handed = s.handed := rfl
@[simp] theorem State.setExtra_freeCount (s : State) (slot : Nat) (x : Option Extra) : (s.setExtra slot x).freeCount = s.freeCount := rfl
@[simp] theorem State.setExtra_stampMinute (s : State) (slot : Nat) (x : Option Extra) : (s.setExtra slot x).stampMinute = s.stampMinute := rfl
@[simp] theorem State.setExtra_pending (s : State) (slot : Nat) (x : Option Extra) : (s.setExtra slot x).pending = s.pending := rfl

/-! ## Draining -/

/-- With no hand-out waiting a command ends as its rule left the state. -/
theorem State.drain_nil {s : State} (h : s.handed = []) : s.drain = s := by
  unfold State.drain handoutFuel State.drainFrom
  simp [h]

/-- The first hand-out waiting is taken, with what the sequencer then does, and the rest follows. -/
theorem State.drainFrom_cons {s : State} {n : Nat} {m : Handed} {rest : List Handed} (h : s.handed = m :: rest) :
    s.drainFrom (n + 1)
      = State.drainFrom n
          { (State.take { s with handed := [] } m).advance rest.isEmpty with
            handed := ((State.take { s with handed := [] } m).advance rest.isEmpty).handed ++ rest } := by
  rw [State.drainFrom, h]

/-- A command whose rule hands nothing out. -/
theorem State.run_quiet {s : State} {t : Nat} {body : State → State} (h : (body (s.atTime t)).handed = []) :
    s.run t body = body (s.atTime t) := State.drain_nil h

/-- With no end that waits, no release, no closing to begin and no deferred search the sequencer adds nothing. -/
theorem State.advance_idle {s : State} (he : s.seq.ending = none) (hr : s.seq.cur.release = none)
    (hw : s.seq.cur.state ≠ .awaitTerminal) (hd : s.seq.nxt.deferred = false) (last : Bool) : s.advance last = s := by
  have h0 : s.advanceEnding = s := by unfold State.advanceEnding; rw [he]
  have h1 : s.advanceRelease last = s := by unfold State.advanceRelease; rw [hr]
  have h2 : s.advanceAwait last = s := by
    unfold State.advanceAwait
    split
    · rw [if_pos (by simp [hw])]
    · rfl
  have h3 : s.tryNextSearch = s := by
    unfold State.tryNextSearch
    split
    · rfl
    · rw [if_neg (by simp [hd])]
  unfold State.advance
  rw [h0, h1, h2, h3]

theorem State.Calm.advance {s : State} (h : s.Calm) (last : Bool) : s.advance last = s :=
  State.advance_idle h.ending h.release h.await h.search last

end Sys2Proof.Machine
end

