-- ==== Sys2Proof/Laws/Content.lean ====
section
/-! SUPPORT. A re-evaluation that finds nothing to do (`State.Content`) leaves the state as it is, and so does a notice of
the schedule store. -/

namespace Sys2Proof.Machine

theorem State.setCur_self (s : State) : s.setCur s.seq.cur = s := rfl

theorem State.Content.compareCurrent {s : State} (h : s.Content) (ha : s.seq.armed = true)
    (hl : s.seq.cur.state ≠ .localHold) (b : Bool) : s.compareCurrent b = s := by
  have hc := h.current ha hl
  unfold State.CurrentStands at hc
  unfold State.compareCurrent
  cases ho : s.seq.cur.occ with
  | none =>
    simp only [ho] at hc
    cases hx : s.currentEntry with
    | none =>
      have hs : s.seq.cur.spent = none := by simpa [hx] using hc.symm
      have e : ({ s.seq.cur with spent := none } : Ctx) = s.seq.cur := by rw [← hs]
      have e' : s.setCur { s.seq.cur with spent := none } = s := by rw [e, State.setCur_self]
      simp only [ho] at e' ⊢
      exact e'
    | some x =>
      have hs : s.seq.cur.spent = some x.key := by simpa [hx] using hc.symm
      simp [ho, State.beginUnspent, hs]
  | some o =>
    simp only [ho] at hc
    rcases hc with ⟨hx, hr⟩ | ⟨hx, hn, hr, hy⟩
    · have e1 : ({ s.seq.cur with running := true } : Ctx) = s.seq.cur := by rw [← hr]
      have e2 : s.setEnding none = s := by
        unfold State.setEnding
        have : ({ s.seq with ending := none } : Sequencer) = s.seq := by rw [← h.calm.ending]
        rw [this]
      have e' : (s.setCur { s.seq.cur with running := true }).setEnding none = s := by
        rw [e1, State.setCur_self, e2]
      simp only [ho] at e'
      simp only [ho, hx, beq_self_eq_true, if_true]
      exact e'
    · have hb : (s.currentEntry.map (·.key) == some o.key) = false := by simpa using hx
      have hn' : (s.currentEntry.isNone || s.currentEntry.map (·.key) == s.seq.cur.spent) = true := by
        rcases hn with hn | hn
        · simp [show s.currentEntry = none by simpa using hn]
        · simp [hn]
      simp [ho, hb, hn', hr, hy]

theorem State.Content.evaluate {s : State} (h : s.Content) (ha : s.seq.armed = true) (b : Bool) :
    s.evaluate b false = s.emit [.prepareNext] := by
  unfold State.evaluate
  by_cases hl : s.seq.cur.state = .localHold
  · simp [hl]
  · simp [hl, h.compareCurrent ha hl b]

theorem State.Content.prepareNext {s : State} (h : s.Content) (ha : s.seq.armed = true) : s.prepareNext = s := by
  have hn := h.next ha
  have hf := h.found ha
  unfold State.NextStands at hn
  unfold State.prepareNext
  rw [if_neg (by simp [h.calm.ending])]
  have hE : s.seq.nxt.occ = none → s.emptyNext = s := by
    intro e; simp [State.emptyNext, Ctx.key, e]
  cases hy : s.nextEntry with
  | none =>
    simp only [hy, Option.map_none, true_or, if_true] at hn
    simp [hE hn, hf]
  | some y =>
    simp only [hy, Option.map_some, reduceCtorEq, false_or] at hn
    by_cases hk : some y.key = s.seq.cur.key
    · rw [if_pos hk] at hn
      simp [hE hn, hf, ← hk]
    · rw [if_neg hk] at hn
      have hk' : (s.seq.cur.key == some y.key) = false := by simpa using fun e => hk e.symm
      simp [hf, hn, hk']

theorem State.Content.reevaluate {s : State} (h : s.Content) (b : Bool) :
    s.reevaluate b false = if s.seq.armed then s.emit [.prepareNext] else s := by
  unfold State.reevaluate
  cases ha : s.seq.armed with
  | true => simp [h.evaluate ha b]
  | false =>
    rcases h.unarmed ha with hj | hc
    · simp [hj]
    · simp [State.clockSet, hc]

/-- A hand-out that is a re-evaluation. -/
def Handed.Asks (m : Handed) : Prop := (∃ b, m = .reevaluate b false) ∨ ∃ n, m = .storeNotice n

theorem State.take_asks {s : State} {m : Handed} (hm : m.Asks) : ∃ b, s.take m = s.reevaluate b false := by
  rcases hm with ⟨b, rfl⟩ | ⟨n, rfl⟩
  · exact ⟨b, rfl⟩
  · exact ⟨false, rfl⟩

/-- A re-evaluation that finds nothing to do is taken, with what it hands on, and leaves the rest of the hand-outs. -/
theorem State.drainFrom_content {s : State} {n : Nat} {m : Handed} {rest : List Handed} (hs : s.handed = m :: rest)
    (hm : m.Asks) (h : State.Content { s with handed := [] }) :
    s.drainFrom (n + 2) = State.drainFrom (if s.seq.armed then n else n + 1) { s with handed := rest } := by
  rw [State.drainFrom_cons hs]
  obtain ⟨b, hb⟩ := State.take_asks (s := { s with handed := [] }) hm
  rw [hb, h.reevaluate b]
  cases ha : s.seq.armed with
  | false =>
    simp only [Bool.false_eq_true, if_false]
    rw [h.calm.advance]
    rfl
  | true =>
    simp only [if_true, ha]
    have hadv : ∀ last, State.advance { s with handed := [.prepareNext] } last = { s with handed := [.prepareNext] } :=
      State.advance_idle (s := { s with handed := [.prepareNext] }) h.calm.ending h.calm.release h.calm.await h.calm.search
    have e : State.emit { s with handed := [] } [.prepareNext] = { s with handed := [.prepareNext] } := rfl
    rw [e, hadv]
    have hs' : (({ s with handed := [Handed.prepareNext] ++ rest } : State)).handed = .prepareNext :: rest := rfl
    show State.drainFrom (n + 1) { s with handed := [Handed.prepareNext] ++ rest } = _
    rw [State.drainFrom_cons hs']
    have hp : State.take { s with handed := [] } .prepareNext = { s with handed := [] } := h.prepareNext ha
    show State.drainFrom n { (State.take { s with handed := [] } .prepareNext).advance rest.isEmpty with
      handed := ((State.take { s with handed := [] } .prepareNext).advance rest.isEmpty).handed ++ rest } = _
    rw [hp, h.calm.advance]
    rfl

end Sys2Proof.Machine
end

