-- ==== Sys2Proof/Laws/Kept.lean ====
section
/-! SUPPORT. What every operation keeps: one relation between the state before and the state after, with the laws that
build it. Each shared operation has one lemma `Kept.<operation>` in the files Laws/Kept*.lean. -/

namespace Sys2Proof.Machine

/-- What a scan shares with every hand-out: what none of them changes, and the laws of Safety.lean that each keeps. -/
structure KeptCore (s t : State) : Prop where
  now       : t.now = s.now
  image     : t.image = s.image
  cfg       : t.cfg = s.cfg
  rfPresent : t.rfPresent = s.rfPresent
  tripLine  : t.tripLine = s.tripLine
  freeCount : t.freeCount = s.freeCount
  pending   : t.pending = s.pending
  log       : s.log.Numbered → t.log.Numbered
  bus       : s.bus.Within → t.bus.Within
  map       : SlotsWithin s.map → SlotsWithin t.map
  req       : s.req.queue.length ≤ requestCapacity → t.req.queue.length ≤ requestCapacity
  store     : OneLive s.store → OneLive t.store
  lines     : Lines s → Lines t
  closing   : ClosesAlone s.mat → ClosesAlone t.mat

/-- The terminal, position and column sense of each own crosspoint, as last read. -/
def Matrix.readings (m : Matrix) : List (Nat × Option Position × Option Sense) :=
  m.rows.map fun x => (x.terminal, x.pos, x.sense)

/-- What every hand-out keeps: no hand-out changes a reading. -/
structure Kept (s t : State) : Prop extends KeptCore s t where
  readings : t.mat.readings = s.mat.readings

theorem Kept.refl (s : State) : Kept s s :=
  { now := Eq.refl _, image := Eq.refl _, cfg := Eq.refl _, rfPresent := Eq.refl _, tripLine := Eq.refl _,
    freeCount := Eq.refl _, pending := Eq.refl _, log := id, bus := id, map := id, req := id, store := id, lines := id,
    closing := id, readings := Eq.refl _ }

theorem Kept.trans {s t u : State} (h : Kept s t) (k : Kept t u) : Kept s u :=
  { now := k.now.trans h.now, image := k.image.trans h.image, cfg := k.cfg.trans h.cfg,
    rfPresent := k.rfPresent.trans h.rfPresent, tripLine := k.tripLine.trans h.tripLine,
    freeCount := k.freeCount.trans h.freeCount, pending := k.pending.trans h.pending, log := k.log ∘ h.log,
    bus := k.bus ∘ h.bus, map := k.map ∘ h.map, req := k.req ∘ h.req, store := k.store ∘ h.store,
    lines := k.lines ∘ h.lines, closing := k.closing ∘ h.closing, readings := k.readings.trans h.readings }

/-- The part of the link that the interlock reads. -/
structure SameLink (l k : Link) : Prop where
  permit     : k.permit = l.permit
  state      : k.state = l.state
  localFlag  : k.localFlag = l.localFlag
  faultCode  : k.faultCode = l.faultCode
  op         : k.op = l.op
  opTerminal : k.opTerminal = l.opTerminal

theorem SameLink.refl (l : Link) : SameLink l l :=
  { permit := Eq.refl _, state := Eq.refl _, localFlag := Eq.refl _, faultCode := Eq.refl _, op := Eq.refl _,
    opTerminal := Eq.refl _ }

theorem SameLink.stands {l k : Link} {m : Matrix} (h : SameLink l k) (p : PermitStands l m) : PermitStands k m :=
  { up := h.state.trans p.up, remote := h.localFlag.trans p.remote, sound := h.faultCode.trans p.sound,
    works := by rw [h.op]; exact p.works, atRest := p.atRest, terminal := by rw [h.opTerminal]; exact p.terminal }

/-- Readings and the active drive: more than the interlock reads. -/
structure SameMatrix (m n : Matrix) : Prop where
  active : n.active = m.active
  rows   : n.readings = m.readings

theorem SameMatrix.refl (m : Matrix) : SameMatrix m m := { active := Eq.refl _, rows := Eq.refl _ }

/-- The readings settle terminals with their positions. -/
theorem SameMatrix.positions {m n : Matrix} (h : SameMatrix m n) :
    n.rows.map (fun x => (x.terminal, x.pos)) = m.rows.map fun x => (x.terminal, x.pos) := by
  have e : ∀ k : Matrix, k.rows.map (fun x => (x.terminal, x.pos)) = k.readings.map fun r => (r.1, r.2.1) := by
    intro k; simp [Matrix.readings]
  rw [e, e, h.rows]

theorem SameMatrix.onlyClosed {m n : Matrix} (h : SameMatrix m n) (t : Nat) : n.onlyClosed t = m.onlyClosed t := by
  have e : ∀ k : Matrix, k.onlyClosed t
      = (((k.rows.map fun x => (x.terminal, x.pos)).any fun p => p.1 == t && p.2 == some .closed)
        && (k.rows.map fun x => (x.terminal, x.pos)).all fun p =>
          if p.1 == t then p.2 == some .closed else p.2 == some .opened) := by
    intro k; simp [Matrix.onlyClosed, List.any_map, List.all_map, Function.comp_def]
  rw [e, e, h.positions]

theorem SameMatrix.othersOpen {m n : Matrix} (h : SameMatrix m n) {t : Nat} (o : OthersOpen m t) : OthersOpen n t := by
  have e : ∀ k : Matrix, OthersOpen k t
      ↔ ∀ p ∈ k.rows.map (fun x => (x.terminal, x.pos)), p.1 ≠ t → p.2 = some .opened := by
    intro k; simp [OthersOpen]
  rw [e] at o ⊢; rw [h.positions]; exact o

theorem SameMatrix.closesAlone {m n : Matrix} (h : SameMatrix m n) (c : ClosesAlone m) : ClosesAlone n := by
  intro d hd hr hc
  exact h.othersOpen (c d (h.active ▸ hd) hr hc)

theorem Lines.of_same {s t : State} (hl : SameLink s.link t.link) (hm : SameMatrix s.mat t.mat)
    (hr : t.rfPresent = s.rfPresent) (h : Lines s) : Lines t where
  driven d hd hrun := by
    have := h.driven d (hm.active ▸ hd) hrun
    exact ⟨hl.permit.trans this.1, hr.trans this.2⟩
  permit hp := by
    have p := hl.stands (h.permit (hl.permit.symm.trans hp))
    exact { p with
      atRest := hm.active.trans p.atRest,
      terminal := by
        obtain ⟨t, h1, h2⟩ := p.terminal
        exact ⟨t, h1, (hm.onlyClosed t).trans h2⟩ }

/-- A record update of a state that is kept: what the laws read is kept too. -/
theorem Kept.lit {s a : State} (h : Kept s a) {image cfg rfPresent tripLine store serial clock log req alert bus pres
      map claim mat link psu seq handed stampMinute freeCount pending}
    (himage : image = a.image) (hcfg : cfg = a.cfg) (hrf : rfPresent = a.rfPresent) (htrip : tripLine = a.tripLine)
    (hfree : freeCount = a.freeCount) (hpending : pending = a.pending)
    (hlog : a.log.Numbered → log.Numbered) (hbus : a.bus.Within → bus.Within)
    (hmap : SlotsWithin a.map → SlotsWithin map)
    (hreq : a.req.queue.length ≤ requestCapacity → req.queue.length ≤ requestCapacity)
    (hstore : OneLive a.store → OneLive store) (hlink : SameLink a.link link) (hmat : SameMatrix a.mat mat) :
    Kept s (State.mk a.now image cfg rfPresent tripLine store serial clock log req alert bus pres map claim mat link psu
      seq handed stampMinute freeCount pending) := by
  subst himage hcfg hrf htrip hfree hpending
  exact h.trans
    { now := Eq.refl _, image := Eq.refl _, cfg := Eq.refl _, rfPresent := Eq.refl _, tripLine := Eq.refl _,
      freeCount := Eq.refl _, pending := Eq.refl _, log := hlog, bus := hbus, map := hmap, req := hreq,
      store := hstore, lines := Lines.of_same hlink hmat (Eq.refl _), closing := hmat.closesAlone,
      readings := hmat.rows }

/-- The same when the laws read nothing that is updated. -/
theorem Kept.upd {s a : State} (h : Kept s a) {image cfg rfPresent tripLine store serial clock log req alert bus pres
      map claim mat link psu seq handed stampMinute freeCount pending}
    (himage : image = a.image) (hcfg : cfg = a.cfg) (hrf : rfPresent = a.rfPresent) (htrip : tripLine = a.tripLine)
    (hfree : freeCount = a.freeCount) (hpending : pending = a.pending)
    (hlog : log = a.log) (hbus : bus = a.bus) (hmap : map = a.map)
    (hreq : req.queue = a.req.queue) (hstore : store = a.store)
    (hpermit : link.permit = a.link.permit) (hstate : link.state = a.link.state)
    (hlocal : link.localFlag = a.link.localFlag) (hfault : link.faultCode = a.link.faultCode)
    (hop : link.op = a.link.op) (hopt : link.opTerminal = a.link.opTerminal)
    (hactive : mat.active = a.mat.active) (hrows : mat.rows = a.mat.rows) :
    Kept s (State.mk a.now image cfg rfPresent tripLine store serial clock log req alert bus pres map claim mat link psu
      seq handed stampMinute freeCount pending) := by
  subst hlog hbus hmap hstore
  exact h.lit himage hcfg hrf htrip hfree hpending id id id (by rw [hreq]; exact id) id
    ⟨hpermit, hstate, hlocal, hfault, hop, hopt⟩ ⟨hactive, by unfold Matrix.readings; rw [hrows]⟩

end Sys2Proof.Machine
end

