-- ==== Sys2Proof/Laws/Map.lean ====
section
/-! SUPPORT. Each terminal's map holds at most four bookings (R76, R78): one lemma for each operation on the rows. -/

namespace Sys2Proof.Machine

theorem insertBooking_length (b : Booking) (l : List Booking) : (insertBooking b l).length = l.length + 1 := by
  induction l with
  | nil => rfl
  | cons x rest ih => unfold insertBooking; split <;> simp [ih]

theorem mem_updateWhere {α : Type} {test : α → Bool} {f : α → α} {l : List α} {x : α} (h : x ∈ updateWhere test f l) :
    ∃ y ∈ l, x = y ∨ x = f y := by
  unfold updateWhere at h
  obtain ⟨y, hy, e⟩ := List.mem_map.1 h
  refine ⟨y, hy, ?_⟩
  split at e
  · exact .inr e.symm
  · exact .inl e.symm

theorem TermRow.enter_slots {r r' : TermRow} {b : Booking} (e : r.enter b = some r') (h : r.slots.length ≤ slotCapacity) :
    r'.slots.length ≤ slotCapacity := by
  unfold TermRow.enter at e
  split at e
  · cases e; simp only [insertBooking_length]; omega
  · split at e
    · cases e
    · rename_i old ho
      split at e
      · cases e
        have hm : old ∈ r.slots := by
          unfold lastEvictable at ho
          exact (List.mem_filter.1 (List.mem_of_getLast? ho)).1
        simp only [insertBooking_length, List.length_erase_of_mem hm]
        have := List.length_pos_of_mem hm
        omega
      · cases e

theorem TermRow.drop_slots (r : TermRow) (test : Booking → Bool) : (r.drop test).slots.length ≤ r.slots.length :=
  List.length_filter_le _ _

theorem foldr_insertBooking_length (l m : List Booking) : (l.foldr insertBooking m).length = l.length + m.length := by
  induction l with
  | nil => simp
  | cons x rest ih => simp only [List.foldr_cons, insertBooking_length, ih, List.length_cons]; omega

theorem TermRow.change_slots (r : TermRow) (test : Booking → Bool) (f : Booking → Booking) :
    (r.change test f).slots.length = r.slots.length := by
  unfold TermRow.change
  simp only [foldr_insertBooking_length, List.length_map]
  induction r.slots with
  | nil => rfl
  | cons x rest ih => by_cases hx : test x = true <;> simp [hx] <;> omega

theorem SlotsWithin.update {m : List TermRow} (h : SlotsWithin m) {test : TermRow → Bool} {f : TermRow → TermRow}
    (hf : ∀ r, r.slots.length ≤ slotCapacity → (f r).slots.length ≤ slotCapacity) : SlotsWithin (updateWhere test f m) := by
  intro r hr
  obtain ⟨y, hy, e | e⟩ := mem_updateWhere hr
  · exact e ▸ h y hy
  · exact e ▸ hf y (h y hy)

theorem SlotsWithin.map {m : List TermRow} (h : SlotsWithin m) {f : TermRow → TermRow}
    (hf : ∀ r, r.slots.length ≤ slotCapacity → (f r).slots.length ≤ slotCapacity) : SlotsWithin (m.map f) := by
  intro r hr
  obtain ⟨y, hy, e⟩ := List.mem_map.1 hr
  exact e ▸ hf y (h y hy)

theorem SlotsWithin.enter {m m' : List TermRow} {t : Nat} {b : Booking} (h : SlotsWithin m)
    (e : mapEnter m t b = some m') : SlotsWithin m' := by
  unfold mapEnter at e
  obtain ⟨r, hr, e⟩ := Option.map_eq_some_iff.1 e
  obtain ⟨q, hq, hr⟩ := Option.bind_eq_some_iff.1 hr
  subst e
  have hb := TermRow.enter_slots hr (h q (List.mem_of_find?_eq_some hq))
  exact h.update fun _ _ => hb

theorem SlotsWithin.dropAt {m : List TermRow} (h : SlotsWithin m) (t : Nat) (test : Booking → Bool) :
    SlotsWithin (mapDropAt m t test) := h.update fun r hr => le_trans (r.drop_slots test) hr

theorem SlotsWithin.flush {m : List TermRow} (h : SlotsWithin m) (s : Nat) : SlotsWithin (mapFlush m s) :=
  h.map fun r hr => le_trans (r.drop_slots _) hr

theorem SlotsWithin.free {m : List TermRow} (h : SlotsWithin m) (t s : Nat) : SlotsWithin (mapFree m t s) := h.dropAt t _

theorem SlotsWithin.mark {m : List TermRow} (h : SlotsWithin m) (t n a minutes : Nat) :
    SlotsWithin (mapMark m t n a minutes) :=
  h.update fun r hr => by unfold TermRow.mark; dsimp only; split; exact hr; split <;> exact hr

theorem SlotsWithin.unmark {m : List TermRow} (h : SlotsWithin m) (n : Nat) : SlotsWithin (mapUnmark m n) :=
  h.map fun r hr => by split; split <;> exact hr; exact hr

theorem SlotsWithin.age {m : List TermRow} (h : SlotsWithin m) (n : Nat) : SlotsWithin (m.map fun r => r.age n) :=
  h.map fun r hr => by
    unfold TermRow.age; simp only [List.length_map]; exact le_trans (List.length_filter_le _ _) hr

theorem SlotsWithin.runs {m : List TermRow} (h : SlotsWithin m) (rows : List XRow) : SlotsWithin (mapRuns rows m) :=
  h.map fun r hr => by
    split
    · split
      · unfold TermRow.run; split <;> exact hr
      · exact hr
    · exact hr

theorem SlotsWithin.clearStale {m : List TermRow} (h : SlotsWithin m) : SlotsWithin (m.map TermRow.clearStale) :=
  h.map fun r hr => by
    unfold TermRow.clearStale; split
    · exact le_trans (r.drop_slots _) hr
    · exact hr

end Sys2Proof.Machine
end

