-- ==== Sys2Proof/Laws/KeptMap.lean ====
section
/-! SUPPORT. What the shared operations, the presence unit and the booking map keep. -/

namespace Sys2Proof.Machine

theorem AirLog.Numbered.write {l : AirLog} (h : l.Numbered) (stamp : Nat) (unset : Bool) (body : LogBody) :
    (l.write stamp unset body).Numbered := by
  obtain ⟨hlen, hseq⟩ := h
  unfold ringCapacity at hlen
  refine ⟨by simp [AirLog.write, ringCapacity]; omega, ?_⟩
  intro i hi
  have hi' : i < (l.ring.length + 1) - (l.ring.length + 1 - 64) := by
    simpa [AirLog.write, ringCapacity] using hi
  have hd : (l.ring.length + 1 - 64) + i < l.ring.length + 1 := by omega
  have key : ∀ j, (hj : j < l.ring.length + 1) →
      ((l.ring ++ [({ seq := l.nextSeq, stamp := stamp, unset := unset, body := body } : LogRecord)])[j]'(by simpa using hj)).seq
        = l.nextSeq + 1 - BitVec.ofNat 16 (l.ring.length + 1 - j) := by
    intro j hj
    rw [List.getElem_append]
    split
    · rename_i hlt
      rw [hseq j hlt]
      have e : l.ring.length + 1 - j = (l.ring.length - j) + 1 := by omega
      rw [e, BitVec.ofNat_add]
      generalize BitVec.ofNat 16 (l.ring.length - j) = y
      bv_omega
    · have e : l.ring.length + 1 - j = 1 := by omega
      rw [e]
      simp
  have := key (l.ring.length + 1 - 64 + i) hd
  simp only [AirLog.write, List.getElem_drop, List.length_append, List.length_singleton, List.length_drop, ringCapacity]
    at this ⊢
  rw [this]
  congr 2
  omega

/-- R192: START written before the records since the reset keeps the numbering. -/
theorem AirLog.Numbered.writeFirst {l : AirLog} (h : l.Numbered) (stamp : Nat) (body : LogBody) :
    (l.writeFirst stamp body).Numbered := by
  obtain ⟨hlen, hseq⟩ := h
  unfold ringCapacity at hlen
  refine ⟨by simp [AirLog.writeFirst, ringCapacity]; omega, ?_⟩
  intro i hi
  have hi' : i < (l.ring.length + 1) - (l.ring.length + 1 - 64) := by
    simpa [AirLog.writeFirst, ringCapacity] using hi
  have key : ∀ j, (hj : j < l.ring.length + 1) →
      ((({ seq := l.nextSeq - BitVec.ofNat 16 l.ring.length, stamp := stamp, unset := true, body := body } : LogRecord)
          :: l.ring.map fun r => { r with seq := r.seq + 1 })[j]'(by simpa using hj)).seq
        = l.nextSeq + 1 - BitVec.ofNat 16 (l.ring.length + 1 - j) := by
    intro j hj
    cases j with
    | zero =>
      simp only [List.getElem_cons_zero, Nat.sub_zero, BitVec.ofNat_add]
      generalize BitVec.ofNat 16 l.ring.length = y
      bv_omega
    | succ k =>
      simp only [List.getElem_cons_succ, List.getElem_map]
      rw [hseq k (by omega)]
      have e : l.ring.length + 1 - (k + 1) = l.ring.length - k := by omega
      rw [e]
      generalize BitVec.ofNat 16 (l.ring.length - k) = y
      bv_omega
  have := key (l.ring.length + 1 - 64 + i) (by omega)
  simp only [AirLog.writeFirst, List.getElem_drop, List.length_cons, List.length_map, List.length_drop, ringCapacity]
    at this ⊢
  rw [this]
  congr 2
  omega

/-- R192, R54: START in the queue of LOGRECs keeps the capacities. -/
theorem Bus.Within.writeStart {s : State} (h : s.bus.Within) (body : LogBody) : (s.writeStart body).bus.Within := by
  unfold State.writeStart
  simp only
  split
  · exact h
  · refine { h with logs := ?_ }
    have := h.logs
    simp only
    split <;> simp only [List.length_cons, List.length_map] at * <;> omega

/-! ## Ops.lean -/

theorem Kept.emit {s a : State} (h : Kept s a) (ms : List Handed) : Kept s (a.emit ms) := by
  refine h.trans ?_
  unfold State.emit
  all_goals apply_rules [Kept.refl, Kept.upd]

theorem Kept.writeLogAt {s a : State} (h : Kept s a) (stamp : Nat) (unset : Bool) (body : LogBody) : Kept s (a.writeLogAt stamp unset body) := by
  refine h.trans ?_
  unfold State.writeLogAt
  apply Kept.lit (Kept.refl _) <;> first
    | rfl | exact id | exact SameLink.refl _ | exact SameMatrix.refl _
    | (intro k; exact k.write _ _ _)
    | (intro k; split <;> [exact k; exact k.placeLogrec _])

theorem Kept.writeLog {s a : State} (h : Kept s a) (body : LogBody) : Kept s (a.writeLog body) := by
  refine h.trans ?_
  unfold State.writeLog
  repeat' split
  all_goals apply_rules [Kept.refl, Kept.writeLogAt, Kept.upd]

/-! ## Presence.lean -/

theorem Kept.placeNotice {s a : State} (h : Kept s a) : Kept s a.placeNotice := by
  refine h.trans ?_
  unfold State.placeNotice
  apply Kept.lit (Kept.refl _) <;> first
    | rfl | exact id | exact SameLink.refl _ | exact SameMatrix.refl _
    | (intro k; exact k.placeNotice _)

theorem Kept.noticeChange {s a : State} (h : Kept s a) : Kept s a.noticeChange := by
  refine h.trans ?_
  unfold State.noticeChange
  repeat' split
  all_goals apply_rules [Kept.refl, Kept.placeNotice, Kept.upd]

theorem Kept.changeJoin {s a : State} (h : Kept s a) (new : JoinState) (cause : JoinCause) : Kept s (a.changeJoin new cause) := by
  refine h.trans ?_
  unfold State.changeJoin
  refine Kept.emit ?_ _
  dsimp only
  apply Kept.lit (Kept.refl _) <;> first
    | rfl | exact id | exact SameLink.refl _ | exact SameMatrix.refl _
    | (intro k; exact k.onJoin _ _)

theorem Kept.joinTail {s a : State} (h : Kept s a) (old new : JoinState) (cause : JoinCause) : Kept s (a.joinTail old new cause) := by
  refine h.trans ?_
  unfold State.joinTail
  try dsimp only
  all_goals apply_rules [Kept.refl, Kept.writeLog, Kept.noticeChange, Kept.upd]

theorem Kept.takeIsolation {s a : State} (h : Kept s a) : Kept s a.takeIsolation := by
  refine h.trans ?_
  unfold State.takeIsolation
  repeat' split
  all_goals apply_rules [Kept.refl, Kept.changeJoin, Kept.upd]

theorem Kept.takeHeard {s a : State} (h : Kept s a) (start : Nat) : Kept s (a.takeHeard start) := by
  refine h.trans ?_
  unfold State.takeHeard
  repeat' split
  all_goals apply_rules [Kept.refl, Kept.changeJoin, Kept.upd]

theorem Kept.setDuplicate {s a : State} (h : Kept s a) : Kept s a.setDuplicate := by
  refine h.trans ?_
  unfold State.setDuplicate
  try dsimp only
  all_goals apply_rules [Kept.refl, Kept.writeLog, Kept.upd]

theorem Kept.takeDuplicate {s a : State} (h : Kept s a) : Kept s a.takeDuplicate := by
  refine h.trans ?_
  unfold State.takeDuplicate
  repeat' split
  all_goals apply_rules [Kept.refl, Kept.setDuplicate, Kept.changeJoin, Kept.upd]

/-! ## MapOps.lean -/

theorem Kept.withMap {s a : State} (h : Kept s a) {m : List TermRow} (hm : SlotsWithin a.map → SlotsWithin m) :
    Kept s (a.withMap m) := by
  refine h.trans ?_
  have h1 : Kept a ({ a with map := m } : State) := by
    apply Kept.lit (Kept.refl _) <;> first
      | rfl | exact id | exact SameLink.refl _ | exact SameMatrix.refl _ | exact hm
  unfold State.withMap
  dsimp only
  split <;> apply_rules [Kept.emit, Kept.noticeChange]

theorem Kept.setMap {s a : State} (h : Kept s a) {m : List TermRow} (hm : SlotsWithin a.map → SlotsWithin m) :
    Kept s ({ a with map := m } : State) := by
  refine h.trans ?_
  apply Kept.lit (Kept.refl _) <;> first
    | rfl | exact id | exact SameLink.refl _ | exact SameMatrix.refl _ | exact hm

theorem Kept.enterBooking {s a : State} (h : Kept s a) (t : Nat) (b : Booking) : Kept s (a.enterBooking t b) := by
  refine h.trans ?_
  unfold State.enterBooking
  split
  · exact Kept.refl _
  · rename_i e; exact ((Kept.refl _).withMap fun k => k.enter e).emit _

theorem Kept.enterOwnBooked {s a : State} (h : Kept s a) (t cls : Nat) (since till : Int) :
    Kept s (a.enterOwnBooked t cls since till).1 := by
  refine h.trans ?_
  unfold State.enterOwnBooked
  split
  · exact Kept.refl _
  · split
    · exact Kept.refl _
    · rename_i e; exact ((Kept.refl _).withMap fun k => k.enter e).emit _

theorem Kept.extendOwn {s a : State} (h : Kept s a) (t : Nat) (st : BookState) (cls : Nat) (till : Option Int) :
    Kept s (a.extendOwn t st cls till) := by
  unfold State.extendOwn
  exact h.withMap fun k => k.update fun r hr => by rw [TermRow.change_slots]; exact hr

theorem Kept.promote {s a : State} (h : Kept s a) (t : Nat) : Kept s (a.promote t).1 := by
  unfold State.promote
  split
  · exact h.withMap fun k => k.update fun r hr => by rw [TermRow.change_slots]; exact hr
  · exact h

theorem Kept.removeOwn {s a : State} (h : Kept s a) (t : Nat) (st : BookState) : Kept s (a.removeOwn t st) := by
  unfold State.removeOwn
  exact h.withMap fun k => k.dropAt _ _

theorem Kept.foundClosed {s a : State} (h : Kept s a) (t : Nat) : Kept s (a.foundClosed t) := by
  refine h.trans ?_
  unfold State.foundClosed
  repeat' split
  all_goals apply_rules [Kept.refl, Kept.enterBooking, Kept.upd]

theorem Kept.markFault {s a : State} (h : Kept s a) (t n minutes : Nat) : Kept s (a.markFault t n minutes) := by
  unfold State.markFault
  exact Kept.emit (h.setMap fun k => k.mark _ _ _ _) _

theorem Kept.ownFault {s a : State} (h : Kept s a) (t : Nat) (reason : FaultReason) (minutes : Nat) :
    Kept s (a.ownFault t reason minutes) := by
  unfold State.ownFault
  refine h.trans (Kept.markFault ?_ _ _ _)
  apply Kept.lit (Kept.refl _) <;> first
    | rfl | exact id | exact SameLink.refl _ | exact SameMatrix.refl _ | (intro k; exact k.placeFault _)

theorem Kept.endMarks {s a : State} (h : Kept s a) : Kept s a.endMarks := by
  unfold State.endMarks
  exact Kept.emit (h.setMap fun k => k.unmark _) _

theorem Kept.mapNotice {s a : State} (h : Kept s a) (f : RxFrame) : Kept s (a.mapNotice f) := by
  unfold State.mapNotice
  exact ((h.setMap fun k => k.flush _).enterBooking _ _).enterBooking _ _

theorem Kept.mapFreeFrame {s a : State} (h : Kept s a) (f : RxFrame) : Kept s (a.mapFreeFrame f) :=
  h.setMap fun k => k.free _ _

theorem Kept.mapDenied {s a : State} (h : Kept s a) (f : RxFrame) (st : BookState) : Kept s (a.mapDenied f st) := by
  unfold State.mapDenied
  exact (h.setMap fun k => k.dropAt _ _).enterBooking _ _

theorem Kept.mapDeniedStale {s a : State} (h : Kept s a) (f : RxFrame) : Kept s (a.mapDeniedStale f) := by
  refine h.trans ?_
  unfold State.mapDeniedStale
  try dsimp only
  repeat' split
  all_goals apply_rules [Kept.refl, Kept.enterBooking, Kept.upd]

theorem Kept.mapDeny {s a : State} (h : Kept s a) (f : RxFrame) : Kept s (a.mapDeny f) := by
  refine h.trans ?_
  unfold State.mapDeny
  repeat' split
  all_goals apply_rules [Kept.refl, Kept.mapDenied, Kept.mapDeniedStale, Kept.upd]

theorem Kept.mapClaimEnters {s a : State} (h : Kept s a) (t : Nat) (b : Booking) : Kept s (a.mapClaimEnters t b) := by
  unfold State.mapClaimEnters
  exact (h.setMap fun k => k.dropAt _ _).enterBooking _ _

theorem Kept.yieldBooking {s a : State} (h : Kept s a) (t : Nat) : Kept s (a.yieldBooking t) := by
  refine h.trans ?_
  unfold State.yieldBooking
  repeat' split
  all_goals apply_rules [Kept.refl, Kept.removeOwn, Kept.emit, Kept.upd]

theorem Kept.mapClaim {s a : State} (h : Kept s a) (f : RxFrame) : Kept s (a.mapClaim f) := by
  refine h.trans ?_
  unfold State.mapClaim
  dsimp only
  split
  · apply Kept.lit (Kept.refl _) <;> first
      | rfl | exact id | exact SameLink.refl _ | exact SameMatrix.refl _ | (intro k; exact k.placeDeny _)
  · exact ((Kept.refl _).yieldBooking _).mapClaimEnters _ _
  · exact (Kept.refl _).mapClaimEnters _ _

theorem Kept.mapFaultFrame {s a : State} (h : Kept s a) (f : RxFrame) : Kept s (a.mapFaultFrame f) := by
  refine h.trans ?_
  unfold State.mapFaultFrame
  all_goals apply_rules [Kept.refl, Kept.markFault, Kept.upd]

theorem Kept.enterPhantoms {s a : State} (h : Kept s a) (l : List Nat) : Kept s (a.enterPhantoms l) := by
  induction l generalizing a with
  | nil => exact h
  | cons t rest ih =>
    unfold State.enterPhantoms
    refine ih ?_
    split
    · exact h.enterBooking _ _
    · exact h

theorem Kept.mapScan {s a : State} (h : Kept s a) (rows : List XRow) : Kept s (a.mapScan rows) := by
  unfold State.mapScan
  exact Kept.setMap (Kept.enterPhantoms (h.setMap fun k => k.runs _) _) fun k => k.clearStale

end Sys2Proof.Machine
end

