-- ==== Sys2Proof/Laws/KeptPower.lean ====
section
/-! SUPPORT. What the power share unit keeps. -/

namespace Sys2Proof.Machine

/-! ## Power.lean -/

theorem Kept.announce {s a : State} (h : Kept s a) : Kept s a.announce := by
  refine h.trans ?_
  unfold State.announce
  try dsimp only
  repeat' split
  all_goals apply_rules [Kept.refl, Kept.noticeChange, Kept.upd]

theorem Kept.settleLower {s a : State} (h : Kept s a) : Kept s a.settleLower := by
  refine h.trans ?_
  unfold State.settleLower
  repeat' split
  all_goals apply_rules [Kept.refl, Kept.announce, Kept.upd]

theorem Kept.lowerTo {s a : State} (h : Kept s a) (k : Nat) : Kept s (a.lowerTo k) := by
  refine h.trans ?_
  unfold State.lowerTo
  try dsimp only
  repeat' split
  all_goals apply_rules [Kept.refl, Kept.settleLower, Kept.upd]

theorem Kept.settleRelease {s a : State} (h : Kept s a) : Kept s a.settleRelease := by
  refine h.trans ?_
  unfold State.settleRelease
  repeat' split
  all_goals apply_rules [Kept.refl, Kept.announce, Kept.upd]

theorem Kept.powerLevel {s a : State} (h : Kept s a) : Kept s a.powerLevel := by
  refine h.trans ?_
  unfold State.powerLevel
  all_goals apply_rules [Kept.refl, Kept.settleLower, Kept.settleRelease, Kept.upd]

theorem Kept.placeWithdrawal {s a : State} (h : Kept s a) : Kept s a.placeWithdrawal := by
  refine h.trans ?_
  unfold State.placeWithdrawal
  split
  · dsimp only
    split
    · apply Kept.lit (Kept.refl _) <;> first
        | rfl | exact id | exact SameLink.refl _ | exact SameMatrix.refl _ | (intro k; exact k.placeIntent _)
    · exact Kept.refl _
  · exact Kept.refl _

theorem Kept.placeIntent {s a : State} (h : Kept s a) (r : AdmitReq) (k : Nat) : Kept s (a.placeIntent r k) := by
  refine h.trans ?_
  unfold State.placeIntent
  apply Kept.lit (Kept.refl _) <;> first
    | rfl | exact id | exact SameLink.refl _ | exact SameMatrix.refl _
    | (intro k; exact k.placeIntent _)

theorem Kept.admitStep {s a : State} (h : Kept s a) (r : AdmitReq) (k : Nat) : Kept s (a.admitStep r k) := by
  refine h.trans ?_
  unfold State.admitStep
  try dsimp only
  all_goals apply_rules [Kept.refl, Kept.announce, Kept.emit, Kept.upd]

theorem Kept.waitForRoom {s a : State} (h : Kept s a) (r : AdmitReq) : Kept s (a.waitForRoom r) := by
  refine h.trans ?_
  unfold State.waitForRoom
  repeat' split
  all_goals apply_rules [Kept.refl, Kept.emit, Kept.upd]

theorem Kept.takeLowering {s a : State} (h : Kept s a) (r : AdmitReq) (k : Nat) : Kept s (a.takeLowering r k) := by
  refine h.trans ?_
  unfold State.takeLowering
  all_goals apply_rules [Kept.refl, Kept.emit, Kept.lowerTo, Kept.upd]

theorem Kept.chooseStep {s a : State} (h : Kept s a) : Kept s a.chooseStep := by
  refine h.trans ?_
  unfold State.chooseStep
  try dsimp only
  repeat' split
  all_goals apply_rules [Kept.refl, Kept.waitForRoom, Kept.takeLowering, Kept.placeIntent, Kept.admitStep, Kept.upd]

theorem Kept.chooseIfWaiting {s a : State} (h : Kept s a) : Kept s a.chooseIfWaiting := by
  refine h.trans ?_
  unfold State.chooseIfWaiting
  repeat' split
  all_goals apply_rules [Kept.refl, Kept.chooseStep, Kept.upd]

theorem Kept.requestStep {s a : State} (h : Kept s a) (r : AdmitReq) (cap : Nat) : Kept s (a.requestStep r cap) := by
  refine h.trans ?_
  unfold State.requestStep
  repeat' split
  all_goals apply_rules [Kept.refl, Kept.emit, Kept.chooseStep, Kept.upd]

theorem Kept.cancelAdmission {s a : State} (h : Kept s a) : Kept s a.cancelAdmission := by
  refine h.trans ?_
  unfold State.cancelAdmission
  try dsimp only
  repeat' split
  all_goals apply_rules [Kept.refl, Kept.placeWithdrawal, Kept.upd]

theorem Kept.releaseAdmission {s a : State} (h : Kept s a) : Kept s a.releaseAdmission := by
  refine h.trans ?_
  unfold State.releaseAdmission
  try dsimp only
  all_goals apply_rules [Kept.refl, Kept.cancelAdmission, Kept.settleRelease, Kept.upd]

theorem Kept.takeIntentSent {s a : State} (h : Kept s a) (start : Nat) : Kept s (a.takeIntentSent start) := by
  refine h.trans ?_
  unfold State.takeIntentSent
  repeat' split
  all_goals apply_rules [Kept.refl, Kept.upd]

theorem Kept.takeIntentLost {s a : State} (h : Kept s a) : Kept s a.takeIntentLost := by
  refine h.trans ?_
  unfold State.takeIntentLost
  repeat' split
  all_goals apply_rules [Kept.refl, Kept.chooseStep, Kept.upd]

theorem Kept.endIntentWindow {s a : State} (h : Kept s a) : Kept s a.endIntentWindow := by
  refine h.trans ?_
  unfold State.endIntentWindow
  try dsimp only
  repeat' split
  all_goals apply_rules [Kept.refl, Kept.admitStep, Kept.placeWithdrawal, Kept.upd]

theorem Kept.powerNotice {s a : State} (h : Kept s a) (f : RxFrame) : Kept s (a.powerNotice f) := by
  refine h.trans ?_
  unfold State.powerNotice
  try dsimp only
  all_goals apply_rules [Kept.refl, Kept.chooseIfWaiting, Kept.upd]

theorem Kept.powerIntent {s a : State} (h : Kept s a) (f : RxFrame) : Kept s (a.powerIntent f) := by
  refine h.trans ?_
  unfold State.powerIntent
  try dsimp only
  all_goals apply_rules [Kept.refl, Kept.chooseIfWaiting, Kept.upd]

theorem Kept.takePowerLocal {s a : State} (h : Kept s a) : Kept s a.takePowerLocal := by
  refine h.trans ?_
  unfold State.takePowerLocal
  try dsimp only
  all_goals apply_rules [Kept.refl, Kept.cancelAdmission, Kept.announce, Kept.upd]

theorem Kept.takePowerRemote {s a : State} (h : Kept s a) : Kept s a.takePowerRemote := by
  refine h.trans ?_
  unfold State.takePowerRemote
  all_goals apply_rules [Kept.refl, Kept.announce, Kept.upd]

theorem Kept.takeStepLower {s a : State} (h : Kept s a) (k : Nat) : Kept s (a.takeStepLower k) := by
  refine h.trans ?_
  unfold State.takeStepLower
  all_goals apply_rules [Kept.refl, Kept.lowerTo, Kept.chooseIfWaiting, Kept.upd]

theorem Kept.powerSuspect {s a : State} (h : Kept s a) (t : Nat) (on : Bool) : Kept s (a.powerSuspect t on) := by
  refine h.trans ?_
  unfold State.powerSuspect
  try dsimp only
  repeat' split
  all_goals apply_rules [Kept.refl, Kept.lowerTo, Kept.chooseIfWaiting, Kept.upd]

end Sys2Proof.Machine
end

