-- ==== Sys2Proof/Laws/KeptLink.lean ====
section
/-! SUPPORT. What the transmitter link keeps. -/

namespace Sys2Proof.Machine

/-- An update of the link alone. -/
theorem Kept.setLink {s a : State} (h : Kept s a) {l : Link} (hl : Lines a → Lines ({ a with link := l } : State)) :
    Kept s ({ a with link := l } : State) :=
  h.trans { Kept.refl a with lines := hl }

/-- With PERMIT off the link may be in any condition. -/
theorem Lines.off {a : State} (h : Lines a) {l : Link} (e : l.permit = false) :
    Lines ({ a with link := l } : State) where
  driven d hd hr := ⟨e, (h.driven d hd hr).2⟩
  permit hp := absurd (e.symm.trans hp) (by decide)

/-- The operation may change to another that carries PERMIT. -/
theorem Lines.setOp {a : State} (h : Lines a) {l : Link} (h1 : l.permit = a.link.permit) (h2 : l.state = a.link.state)
    (h3 : l.localFlag = a.link.localFlag) (h4 : l.faultCode = a.link.faultCode)
    (h5 : l.opTerminal = a.link.opTerminal) (h6 : l.op ≠ .none ∧ l.op ≠ .settling) :
    Lines ({ a with link := l } : State) where
  driven d hd hr := ⟨h1.trans (h.driven d hd hr).1, (h.driven d hd hr).2⟩
  permit hp :=
    have p := h.permit (h1.symm.trans hp)
    { up := h2.trans p.up, remote := h3.trans p.remote, sound := h4.trans p.sound, works := h6, atRest := p.atRest,
      terminal := by rw [h5]; exact p.terminal }

/-- With PERMIT off any update of the link is kept. -/
theorem Kept.linkOff {s a : State} (h : Kept s a) {l : Link} (e : l.permit = false) :
    Kept s ({ a with link := l } : State) :=
  h.setLink fun k => k.off e

/-- In an operation that carries no PERMIT, PERMIT is off. -/
theorem Lines.permit_off {a : State} (h : Lines a) (e : a.link.op = .none ∨ a.link.op = .settling) :
    a.link.permit = false := by
  by_contra hp
  have p := h.permit (by simpa using hp)
  rcases e with e | e
  · exact p.works.1 e
  · exact p.works.2 e

/-! ## Link.lean -/

theorem Kept.issue {s a : State} (h : Kept s a) (r : TxRecord) : Kept s (a.issue r) := by
  refine h.trans ?_
  unfold State.issue
  repeat' split
  all_goals apply_rules [Kept.refl, Kept.upd]

theorem Kept.setLevel {s a : State} (h : Kept s a) (kw : Nat) : Kept s (a.setLevel kw) := by
  refine h.trans ?_
  unfold State.setLevel
  repeat' split
  all_goals apply_rules [Kept.refl, Kept.emit, Kept.upd]

theorem Kept.issueLevel {s a : State} (h : Kept s a) (kw : Nat) : Kept s (a.issueLevel kw) := by
  refine h.trans ?_
  unfold State.issueLevel
  try dsimp only
  all_goals apply_rules [Kept.refl, Kept.issue, Kept.setLevel, Kept.upd]

theorem Kept.rfOff {s a : State} (h : Kept s a) : Kept s a.rfOff := by
  refine h.trans ?_
  unfold State.rfOff
  all_goals apply_rules [Kept.refl, Kept.issue, Kept.setLevel, Kept.upd]

theorem Kept.cutRf {s a : State} (h : Kept s a) : Kept s a.cutRf := by
  refine h.trans ?_
  unfold State.cutRf
  apply_rules [Kept.refl, Kept.issueLevel, Kept.rfOff, Kept.upd]

/-- A record is issued into the output queue and changes nothing else. -/
theorem issue_out (a : State) (r : TxRecord) : ∃ o, a.issue r = { a with link := { a.link with out := o } } := by
  unfold State.issue
  split
  · exact ⟨_, rfl⟩
  · exact ⟨a.link.out, rfl⟩

@[simp] theorem issue_permit (a : State) (r : TxRecord) : (a.issue r).link.permit = a.link.permit := by
  unfold State.issue; split <;> rfl

@[simp] theorem setLevel_permit (a : State) (kw : Nat) : (a.setLevel kw).link.permit = a.link.permit := by
  unfold State.setLevel; split <;> rfl

@[simp] theorem issueLevel_permit (a : State) (kw : Nat) : (a.issueLevel kw).link.permit = a.link.permit := by
  unfold State.issueLevel; simp

@[simp] theorem rfOff_permit (a : State) : a.rfOff.link.permit = a.link.permit := by unfold State.rfOff; simp

@[simp] theorem cutRf_permit (a : State) : a.cutRf.link.permit = a.link.permit := by unfold State.cutRf; simp

@[simp] theorem trySettle_permit (a : State) : a.trySettle.link.permit = a.link.permit := by
  unfold State.trySettle; split <;> rfl

theorem Kept.trySettle {s a : State} (h : Kept s a) : Kept s a.trySettle := by
  refine h.trans ?_
  unfold State.trySettle
  split
  · rename_i e
    have e' : a.link.op = .settling := by simp at e; exact e.1
    refine Kept.emit (Kept.setLink (Kept.refl a) ?_) _
    intro k; exact k.off (k.permit_off (.inr e'))
  · exact Kept.refl _

theorem Kept.permitLost {s a : State} (h : Kept s a) (cause : PermitCause) : Kept s (a.permitLost cause) := by
  refine h.trans ?_
  unfold State.permitLost
  split
  · have h1 : Kept a ({ a with link := { a.link with permit := false } } : State).cutRf :=
      Kept.cutRf (Kept.linkOff (Kept.refl a) rfl)
    have e1 : ({ a with link := { a.link with permit := false } } : State).cutRf.link.permit = false :=
      cutRf_permit _
    generalize State.cutRf _ = b at h1 e1 ⊢
    refine Kept.trySettle (Kept.emit (Kept.linkOff h1 ?_) _)
    exact e1
  · exact Kept.refl _

theorem permitLost_permit (a : State) (cause : PermitCause) : (a.permitLost cause).link.permit = false := by
  unfold State.permitLost
  split
  · have e1 : ({ a with link := { a.link with permit := false } } : State).cutRf.link.permit = false :=
      cutRf_permit _
    generalize State.cutRf _ = b at e1 ⊢
    exact (trySettle_permit _).trans e1
  · rename_i h; simpa using h

theorem Kept.permitScan {s a : State} (h : Kept s a) : Kept s a.permitScan := by
  refine h.trans ?_
  unfold State.permitScan
  try dsimp only
  repeat' split
  all_goals apply_rules [Kept.refl, Kept.permitLost, Kept.upd]

theorem Kept.permitHeld {s a : State} (h : Kept s a) : Kept s a.permitHeld := by
  refine h.trans ?_
  unfold State.permitHeld
  repeat' split
  all_goals apply_rules [Kept.refl, Kept.permitLost, Kept.upd]

theorem Kept.freshLadder {s a : State} (h : Kept s a) (occ : OccKey) (t : Nat) : Kept s (a.freshLadder occ t) := by
  refine h.trans ?_
  unfold State.freshLadder
  try dsimp only
  repeat' split
  all_goals apply_rules [Kept.refl, Kept.noticeChange, Kept.upd]

theorem Kept.tune {s a : State} (h : Kept s a) (occ : OccKey) (t freq : Nat) (mode : Mode) (programme : Nat) :
    Kept s (a.tune occ t freq mode programme) := by
  refine h.trans ?_
  unfold State.tune
  split
  · exact (Kept.refl _).emit _
  · rename_i hn
    have hr : a.permitReady t = true := by
      unfold State.tuneRefusal at hn
      repeat' split at hn
      all_goals simp_all
    unfold State.permitReady at hr
    simp only [Bool.and_eq_true, beq_iff_eq, Bool.not_eq_true', Option.isNone_iff_eq_none] at hr
    obtain ⟨⟨⟨⟨⟨h1, h2⟩, _⟩, h4⟩, h5⟩, h6⟩ := hr
    dsimp only
    refine Kept.freshLadder ?_ _ _
    obtain ⟨o1, e1⟩ := issue_out { a with link := { a.link with opTerminal := some t, permit := true } } (.tune freq mode)
    rw [e1]
    obtain ⟨o2, e2⟩ := issue_out { a with link := { a.link with opTerminal := some t, permit := true, out := o1 } }
      (.programme programme)
    rw [e2]
    refine (Kept.refl a).setLink fun k => ⟨?_, ?_⟩
    · intro d hd
      exact absurd (h2.symm.trans hd) (by simp)
    · intro _
      exact
        { up := h4, remote := h5, sound := h6, works := by simp, atRest := h2, terminal := ⟨t, rfl, h1⟩ }

theorem Kept.failTune {s a : State} (h : Kept s a) (limit : Bool) : Kept s (a.failTune limit) := by
  unfold State.failTune
  refine Kept.emit (Kept.setLink h ?_) _
  intro k; exact k.off rfl

theorem Kept.takeSeenClear {s a : State} (h : Kept s a) (r : Report) : Kept s (a.takeSeenClear r) := by
  unfold State.takeSeenClear
  split
  · exact h.upd rfl rfl rfl rfl rfl rfl rfl rfl rfl rfl rfl rfl rfl rfl rfl rfl rfl rfl rfl
  · exact h

theorem Kept.takeTuneFlags {s a : State} (h : Kept s a) (r : Report) : Kept s (a.takeTuneFlags r) := by
  refine h.trans ?_
  unfold State.takeTuneFlags
  repeat' split
  all_goals first
    | exact Kept.refl _
    | exact (Kept.refl _).failTune _
    | exact (Kept.refl _).takeSeenClear _
    | (refine Kept.emit (Kept.setLink (Kept.refl a) ?_) _; intro k; exact k.off rfl)
    | (refine Kept.emit (Kept.setLink (Kept.refl a) ?_) _; intro k; exact k.setOp rfl rfl rfl rfl rfl (by simp))
    | apply_rules [Kept.refl, Kept.upd]

theorem Kept.endRamp {s a : State} (h : Kept s a) : Kept s a.endRamp := by
  unfold State.endRamp
  split
  · refine Kept.emit (Kept.setLink h ?_) _
    intro k; exact k.setOp rfl rfl rfl rfl rfl (by simp)
  · exact h

theorem Kept.setOp {s a : State} (h : Kept s a) {l : Link} (h1 : l.permit = a.link.permit)
    (h2 : l.state = a.link.state) (h3 : l.localFlag = a.link.localFlag) (h4 : l.faultCode = a.link.faultCode)
    (h5 : l.opTerminal = a.link.opTerminal) (h6 : l.op ≠ .none ∧ l.op ≠ .settling) :
    Kept s ({ a with link := l } : State) :=
  h.setLink fun k => k.setOp h1 h2 h3 h4 h5 h6

theorem Kept.startRamp {s a : State} (h : Kept s a) (p : RampParams) (recycle : Bool) :
    Kept s (a.startRamp p recycle) := by
  refine h.trans ?_
  unfold State.startRamp
  dsimp only
  split
  · apply_rules [Kept.endRamp, Kept.refl, Kept.upd]
  · refine Kept.endRamp (Kept.setOp (Kept.issueLevel ?_ _) rfl rfl rfl rfl rfl (by simp))
    split <;> apply_rules [Kept.issue, Kept.refl, Kept.upd]

theorem Kept.rampUp {s a : State} (h : Kept s a) (carrier step : Nat) : Kept s (a.rampUp carrier step) := by
  refine h.trans ?_
  unfold State.rampUp
  repeat' split
  all_goals apply_rules [Kept.refl, Kept.emit, Kept.startRamp, Kept.upd]

theorem Kept.stepDown {s a : State} (h : Kept s a) (step : Nat) : Kept s (a.stepDown step) := by
  refine h.trans ?_
  unfold State.stepDown
  try dsimp only
  repeat' split
  all_goals apply_rules [Kept.refl, Kept.issueLevel, Kept.emit, Kept.rampUp, Kept.upd]

theorem Kept.endCarrier {s a : State} (h : Kept s a) : Kept s a.endCarrier := by
  unfold State.endCarrier
  refine Kept.trySettle (Kept.setLink h.rfOff ?_)
  intro k; exact k.off rfl

theorem Kept.startRampDown {s a : State} (h : Kept s a) : Kept s a.startRampDown := by
  refine h.trans ?_
  unfold State.startRampDown
  dsimp only
  split
  · exact (Kept.refl _).endCarrier
  · have h1 : Kept a ({ a with link := { a.link.stopWork with op := .rampDown } } : State) :=
      (Kept.refl _).setOp rfl rfl rfl rfl rfl (by simp)
    exact Kept.upd (h1.issueLevel _) rfl rfl rfl rfl rfl rfl rfl rfl rfl rfl rfl rfl rfl rfl rfl rfl rfl rfl rfl

theorem Kept.rampDown {s a : State} (h : Kept s a) : Kept s a.rampDown := by
  refine h.trans ?_
  unfold State.rampDown
  repeat' split
  all_goals apply_rules [Kept.refl, Kept.emit, Kept.endCarrier, Kept.rampUp, Kept.startRampDown, Kept.upd]

theorem Kept.nextRung {s a : State} (h : Kept s a) : Kept s a.nextRung := by
  refine h.trans ?_
  unfold State.nextRung
  try dsimp only
  repeat' split
  all_goals apply_rules [Kept.refl, Kept.issueLevel, Kept.endRamp, Kept.upd]

theorem Kept.nextDownRung {s a : State} (h : Kept s a) : Kept s a.nextDownRung := by
  refine h.trans ?_
  unfold State.nextDownRung
  repeat' split
  all_goals apply_rules [Kept.refl, Kept.issueLevel, Kept.rfOff, Kept.endCarrier, Kept.upd]

theorem Kept.linkSuspect {s a : State} (h : Kept s a) (t : Nat) (on : Bool) : Kept s (a.linkSuspect t on) := by
  refine h.trans ?_
  unfold State.linkSuspect
  try dsimp only
  repeat' split
  all_goals apply_rules [Kept.refl, Kept.rampUp, Kept.issueLevel, Kept.emit, Kept.upd]

theorem Kept.setTripped {s a : State} (h : Kept s a) : Kept s a.setTripped := by
  refine h.trans ?_
  unfold State.setTripped
  repeat' split
  all_goals apply_rules [Kept.refl, Kept.noticeChange, Kept.upd]

theorem Kept.startRecycle {s a : State} (h : Kept s a) : Kept s a.startRecycle := by
  unfold State.startRecycle
  exact h.setOp rfl rfl rfl rfl rfl (by simp)

theorem Kept.lowerRamp {s a : State} (h : Kept s a) : Kept s a.lowerRamp := by
  refine h.trans ?_
  unfold State.lowerRamp
  try dsimp only
  all_goals apply_rules [Kept.refl, Kept.upd]

theorem Kept.takeTripAction {s a : State} (h : Kept s a) (count : Nat) (action : TripAction) :
    Kept s (a.takeTripAction count action) := by
  refine h.trans ?_
  unfold State.takeTripAction
  have off : Kept a ({ a with link := { a.link.stopWork with permit := false, op := .settling } } : State) :=
    Kept.linkOff (Kept.refl a) rfl
  generalize ({ a with link := { a.link.stopWork with permit := false, op := .settling } } : State) = b at off ⊢
  split
  · exact ((Kept.refl _).lowerRamp.startRecycle).emit _
  · refine Kept.trySettle (Kept.emit ?_ _)
    split
    · exact off.ownFault _ _ _
    · exact off
  · exact (Kept.refl _).startRecycle.emit _

theorem Kept.countTrip {s a : State} (h : Kept s a) : Kept s a.countTrip := by
  refine h.trans ?_
  unfold State.countTrip
  try dsimp only
  all_goals apply_rules [Kept.refl, Kept.cutRf, Kept.setTripped, Kept.writeLog, Kept.takeTripAction, Kept.upd]

theorem Kept.stopLink {s a : State} (h : Kept s a) : Kept s ({ a with link := a.link.stopWork } : State) :=
  h.setLink fun k => Lines.of_same (s := a) ⟨rfl, rfl, rfl, rfl, rfl, rfl⟩ (SameMatrix.refl _) rfl k

theorem Kept.uncountedTrip {s a : State} (h : Kept s a) : Kept s a.uncountedTrip := by
  refine h.trans ?_
  unfold State.uncountedTrip
  split
  · exact ((((Kept.refl _).writeLog _).stopLink).issueLevel _).endCarrier
  · exact (Kept.refl _).writeLog _

theorem Kept.takeTrip {s a : State} (h : Kept s a) : Kept s a.takeTrip := by
  refine h.trans ?_
  unfold State.takeTrip
  repeat' split
  all_goals apply_rules [Kept.refl, Kept.rampUp, Kept.countTrip, Kept.uncountedTrip, Kept.upd]

theorem Kept.recycle {s a : State} (h : Kept s a) : Kept s a.recycle := by
  refine h.trans ?_
  unfold State.recycle
  repeat' split
  all_goals apply_rules [Kept.refl, Kept.startRamp, Kept.upd]

theorem Kept.endTripWindow {s a : State} (h : Kept s a) : Kept s a.endTripWindow := by
  refine h.trans ?_
  unfold State.endTripWindow
  try dsimp only
  repeat' split
  all_goals apply_rules [Kept.refl, Kept.noticeChange, Kept.upd]

theorem setAlert_kept (a : State) (x : Alert) : Kept a ({ a with alert := x } : State) := by
  apply_rules [Kept.refl, Kept.upd]

/-- With PERMIT off any update of the link and the alert is kept. -/
theorem Kept.alertOff {s a : State} (h : Kept s a) {l : Link} {x : Alert} (e : l.permit = false) :
    Kept s ({ a with alert := x, link := l } : State) :=
  h.trans { Kept.refl a with lines := fun k => ⟨(k.off e).driven, (k.off e).permit⟩ }

@[simp] theorem writeLog_link (a : State) (b : LogBody) : (a.writeLog b).link = a.link := by
  unfold State.writeLog; split <;> rfl

theorem Kept.loseLink {s a : State} (h : Kept s a) : Kept s a.loseLink := by
  refine h.trans ?_
  unfold State.loseLink
  have h1 : Kept a ({ a with link := { a.link with
      state := .lost, lossDeadline := none, permit := false, out := a.link.emptyOut, lostOp := a.link.op } } : State) :=
    Kept.linkOff (Kept.refl a) rfl
  have h2 := (h1.setLevel 0).writeLog (.linkLoss false a.link.op ((ownHeld a.map).map (·.1)))
  have e2 := (congrArg Link.permit (writeLog_link _ (.linkLoss false a.link.op ((ownHeld a.map).map (·.1))))).trans
    (setLevel_permit ({ a with link := { a.link with
      state := .lost, lossDeadline := none, permit := false, out := a.link.emptyOut, lostOp := a.link.op } } : State) 0)
  dsimp only at h2 e2 ⊢
  generalize State.writeLog _ _ = b at h2 e2 ⊢
  refine Kept.trySettle (Kept.emit (Kept.alertOff h2 ?_) _)
  exact e2

theorem Kept.linkComesUp {s a : State} (h : Kept s a) (e : a.link.state ≠ .up) :
    Kept s ({ a with link := { a.link with state := .up } } : State) :=
  h.setLink fun k => k.off (by
    by_contra hp
    exact e (k.permit (by simpa using hp)).up)

theorem Kept.linkUp {s a : State} (h : Kept s a) : Kept s a.linkUp := by
  refine h.trans ?_
  unfold State.linkUp
  split
  · exact Kept.refl _
  · rename_i e; exact (Kept.refl _).linkComesUp (by rw [e]; decide)
  · rename_i e
    have h1 := (Kept.refl a).writeLog (.linkLoss true a.link.lostOp ((ownHeld a.map).map (·.1)))
    have e1 := congrArg Link.state (writeLog_link a (.linkLoss true a.link.lostOp ((ownHeld a.map).map (·.1))))
    generalize State.writeLog _ _ = b at h1 e1 ⊢
    exact ((h1.linkComesUp (by rw [e1, e]; decide)).trans
      (setAlert_kept _ { b.alert with linkLost := false })).emit _

theorem Kept.beginLocal {s a : State} (h : Kept s a) : Kept s a.beginLocal := by
  refine h.trans ?_
  unfold State.beginLocal
  refine Kept.emit (Kept.noticeChange (Kept.setLevel (Kept.setLink (Kept.refl a) ?_) _)) _
  intro k; exact k.off rfl

theorem Kept.endLocal {s a : State} (h : Kept s a) (e : a.link.localFlag = true) : Kept s a.endLocal := by
  refine h.trans ?_
  unfold State.endLocal
  refine Kept.trySettle (Kept.emit (Kept.noticeChange (Kept.setLink (Kept.refl a) ?_)) _)
  intro k
  refine k.off ?_
  by_contra hp
  exact absurd (e.symm.trans (k.permit (by simpa using hp)).remote) (by decide)

theorem Kept.takeLocalFlag {s a : State} (h : Kept s a) (r : Report) : Kept s (a.takeLocalFlag r) := by
  unfold State.takeLocalFlag
  split
  · exact h.beginLocal
  · split
    · rename_i e; simp at e; exact h.endLocal e.2
    · exact h

theorem Kept.beginFault {s a : State} (h : Kept s a) (code : Nat) : Kept s (a.beginFault code) := by
  refine h.trans ?_
  unfold State.beginFault
  have h1 : Kept a ({ a with link := { a.link with permit := false, faultCode := code } } : State).cutRf :=
    Kept.cutRf (Kept.linkOff (Kept.refl a) rfl)
  have e1 : ({ a with link := { a.link with permit := false, faultCode := code } } : State).cutRf.link.permit = false :=
    cutRf_permit _
  generalize State.cutRf _ = b at h1 e1 ⊢
  refine Kept.trySettle (Kept.emit (Kept.linkOff h1 ?_) _)
  exact e1

theorem Kept.takeFaultCode {s a : State} (h : Kept s a) (r : Report) : Kept s (a.takeFaultCode r) := by
  refine h.trans ?_
  unfold State.takeFaultCode
  split
  · exact Kept.refl _
  · split
    · refine Kept.emit (Kept.setLink (Kept.refl a) ?_) _
      intro k
      refine ⟨k.driven, fun hp => ?_⟩
      exact { k.permit hp with sound := rfl }
    · split
      · exact (Kept.refl _).beginFault _
      · rename_i e
        refine Kept.emit (Kept.setLink (Kept.refl a) ?_) _
        intro k
        refine k.off ?_
        by_contra hp
        exact absurd (k.permit (by simpa using hp)).sound (by simpa using e)

theorem Kept.takeRfFlag {s a : State} (h : Kept s a) (r : Report) : Kept s (a.takeRfFlag r) := by
  refine h.trans ?_
  unfold State.takeRfFlag
  repeat' split
  all_goals apply_rules [Kept.refl, Kept.rfOff, Kept.upd]

theorem Kept.takeReport {s a : State} (h : Kept s a) (r : Report) : Kept s (a.takeReport r) := by
  refine h.trans ?_
  have h1 : Kept a ({ a with link := { a.link with report := some r, lossDeadline := some (a.now + reportLossMs) } } : State) :=
    (Kept.refl a).upd rfl rfl rfl rfl rfl rfl rfl rfl rfl rfl rfl rfl rfl rfl rfl rfl rfl rfl rfl
  unfold State.takeReport
  dsimp only
  split
  · exact (h1.linkUp.takeSeenClear r).takeRfFlag r
  · exact (((h1.linkUp.takeLocalFlag r).takeFaultCode r).takeTuneFlags r).takeRfFlag r

end Sys2Proof.Machine
end

