-- ==== Sys2Proof/Laws/KeptMatrix.lean ====
section
/-! SUPPORT. What the switch matrix interface keeps: the interlock of R124, R127 and R142 among it. -/

namespace Sys2Proof.Machine

/-! ## What the map and PERMIT leave alone -/

@[simp] theorem issue_mat (a : State) (r : TxRecord) : (a.issue r).mat = a.mat := by
  unfold State.issue; split <;> rfl

@[simp] theorem setLevel_mat (a : State) (kw : Nat) : (a.setLevel kw).mat = a.mat := by
  unfold State.setLevel; split <;> rfl

@[simp] theorem cutRf_mat (a : State) : a.cutRf.mat = a.mat := by
  unfold State.cutRf State.issueLevel State.rfOff; simp

@[simp] theorem trySettle_mat (a : State) : a.trySettle.mat = a.mat := by
  unfold State.trySettle; split <;> rfl

theorem permitLost_mat (a : State) (c : PermitCause) : (a.permitLost c).mat = a.mat := by
  unfold State.permitLost
  split
  · have e1 : ({ a with link := { a.link with permit := false } } : State).cutRf.mat = a.mat := cutRf_mat _
    generalize State.cutRf _ = b at e1 ⊢
    exact (trySettle_mat _).trans e1
  · rfl

@[simp] theorem issue_rfPresent (a : State) (r : TxRecord) : (a.issue r).rfPresent = a.rfPresent := by
  unfold State.issue; split <;> rfl

@[simp] theorem setLevel_rfPresent (a : State) (kw : Nat) : (a.setLevel kw).rfPresent = a.rfPresent := by
  unfold State.setLevel; split <;> rfl

/-! ## Drives -/

theorem Matrix.setRow_same (m : Matrix) (t : Nat) (f : XRow → XRow)
    (h : ∀ x, (f x).terminal = x.terminal ∧ (f x).pos = x.pos ∧ (f x).sense = x.sense) : SameMatrix m (m.setRow t f) where
  active := rfl
  rows := by
    unfold Matrix.setRow Matrix.readings
    dsimp only
    generalize m.rows = l
    induction l with
    | nil => rfl
    | cons x rest ih =>
      unfold updateWhere at ih ⊢
      rw [List.map_cons, List.map_cons, List.map_cons, ih]
      split <;> simp [(h x).1, (h x).2.1, (h x).2.2]

theorem Matrix.setDrive_same (m : Matrix) (t : Nat) (d : DriveState) : SameMatrix m (m.setDrive t d) :=
  m.setRow_same t _ fun _ => ⟨rfl, rfl, rfl⟩

theorem Matrix.clearMark_same (m : Matrix) (t : Nat) : SameMatrix m (m.clearMark t) := by
  unfold Matrix.clearMark; split <;> exact ⟨rfl, rfl⟩

theorem SameMatrix.trans {m n k : Matrix} (h : SameMatrix m n) (g : SameMatrix n k) : SameMatrix m k :=
  ⟨g.active.trans h.active, g.rows.trans h.rows⟩

/-- An update of the matrix that keeps positions and the active drive. -/
theorem Kept.setMat {s a : State} (h : Kept s a) {m : Matrix} (hm : SameMatrix a.mat m) :
    Kept s ({ a with mat := m } : State) :=
  h.trans { Kept.refl a with
    lines := Lines.of_same (s := a) (SameLink.refl _) hm rfl, closing := hm.closesAlone, readings := hm.rows }

/-- An update of the matrix that keeps positions and leaves no drive active. -/
theorem Kept.noDrive {s a : State} (h : Kept s a) {m : Matrix} (hr : SameMatrix a.mat { m with active := a.mat.active })
    (ha : m.active = none) : Kept s ({ a with mat := m } : State) :=
  h.trans { Kept.refl a with
    lines := fun k =>
      { driven := fun d hd => by
          have hd' : m.active = some d := hd
          rw [ha] at hd'; exact absurd hd' (by simp)
        permit := fun hp => by
          have p := k.permit hp
          exact { p with
            atRest := ha,
            terminal := by
              obtain ⟨t, h1, h2⟩ := p.terminal
              refine ⟨t, h1, ?_⟩
              rw [← h2, ← hr.onlyClosed t]; rfl } }
    closing := fun _ d hd => by
      have hd' : m.active = some d := hd
      rw [ha] at hd'; exact absurd hd' (by simp)
    readings := hr.rows }

/-- A drive that runs only with both lines clear, and only toward OPEN unless the others read OPEN. -/
theorem Kept.drive {s a : State} (h : Kept s a) {m : Matrix} {d : Drive}
    (hr : SameMatrix a.mat { m with active := a.mat.active }) (ha : m.active = some d) (hp : a.link.permit = false)
    (hc : d.running.isSome = true → a.rfPresent = false)
    (ho : d.running.isSome = true → d.direction = .close → OthersOpen a.mat d.terminal) :
    Kept s ({ a with mat := m } : State) :=
  h.trans { Kept.refl a with
    lines := fun k =>
      { driven := fun e he hrun => by
          have he' : m.active = some e := he
          rw [ha] at he'; cases he'
          exact ⟨hp, hc hrun⟩
        permit := fun hp' => absurd (hp.symm.trans hp') (by decide) }
    closing := fun _ e he hrun hdir => by
      have he' : m.active = some e := he
      rw [ha] at he'; cases he'
      exact hr.othersOpen (ho hrun hdir)
    readings := hr.rows }

theorem Kept.startDrive {s a : State} (h : Kept s a) (t : Nat) (dir : Direction) (p : Purpose) (stop : Option Int)
    (w : Bool) (ho : dir = .close → OthersOpen a.mat t) : Kept s (a.startDrive t dir p stop w) := by
  refine h.trans ?_
  unfold State.startDrive
  have h1 := (Kept.refl a).permitLost .driveStart
  have e1 := permitLost_permit a .driveStart
  have m1 := permitLost_mat a .driveStart
  generalize a.permitLost .driveStart = b at h1 e1 m1 ⊢
  refine Kept.drive (d := Drive.mk t dir p 0 (if b.linesClear then some b.now else none) stop w)
    h1 (Matrix.setDrive_same _ _ _) rfl e1 ?_ ?_
  · intro hrun
    have : b.linesClear = true := by
      by_contra hn
      simp [hn] at hrun
    unfold State.linesClear at this
    simp only [Bool.and_eq_true, Bool.not_eq_true'] at this
    exact this.2
  · intro _ hdir
    rw [m1]; exact ho hdir

theorem closeTest_othersOpen {a : State} {t : Nat} {stop : Option Int} (h : a.closeTest t stop = none) :
    OthersOpen a.mat t := by
  unfold State.closeTest at h
  split at h
  · exact absurd h (by simp)
  · rename_i e
    intro x hx hne
    by_contra hp
    exact e (List.any_eq_true.mpr ⟨x, hx, by simp [hne, hp]⟩)

/-- R127, its second law: a close that passes the tests finds no HELD, STALE or DEDICATED booking of another station that
has begun, a dedication being open-ended (R93). -/
theorem closeTest_unoccupied {a : State} {t : Nat} {stop : Option Int} {r : TermRow} {b : Booking}
    (h : a.closeTest t stop = none) (hr : rowOf a.map t = some r) (hb : b ∈ r.slots)
    (begun : b.since ≤ (a.localSecond : Int)) (ded : b.state = .dedicated → b.till = none) :
    b.occupies a.cfg.station = false := by
  have hc : a.closeBlocked t stop = false := by
    unfold State.closeTest at h
    by_contra hn
    simp only [Bool.not_eq_false] at hn
    simp only [hn, if_true] at h
    split at h
    · cases h
    · split at h <;> cases h
  by_contra ho
  simp only [Bool.not_eq_false] at ho
  simp only [State.closeBlocked, blocked, askRow, hr, Bool.or_eq_false_iff, List.any_eq_false] at hc
  obtain ⟨h1, h2⟩ := hc
  have h1 := h1 b hb
  have h2 := h2 b hb
  simp only [ho, Bool.true_and, Booking.overlaps, Booking.reach, spansOverlap] at h1 h2
  have hs : b.state = .held ∨ b.state = .stale ∨ b.state = .dedicated := by
    simpa [Booking.occupies, or_assoc] using (Bool.and_eq_true_iff.1 ho).2
  rcases hs with e | e | e <;> cases hst : stop <;> cases ht : b.till <;> simp_all <;> omega

theorem Kept.testPending {s a : State} (h : Kept s a) : Kept s a.testPending := by
  refine h.trans ?_
  unfold State.testPending
  split
  · exact Kept.refl _
  · split
    · exact Kept.refl _
    · split
      · rename_i e
        have h1 : Kept a ({ a with mat := { a.mat with pendingClose := none } } : State) :=
          (Kept.refl a).setMat ⟨rfl, rfl⟩
        exact h1.startDrive _ _ _ _ _ fun _ => closeTest_othersOpen e
      · exact Kept.refl _
      · refine Kept.emit ?_ _
        exact (Kept.refl a).setMat ⟨rfl, rfl⟩
      · split
        · exact Kept.refl _
        · refine Kept.emit ?_ _
          exact (Kept.refl a).setMat ⟨rfl, rfl⟩

theorem Kept.abandonClose {s a : State} (h : Kept s a) (d : Drive) (test : CloseTest) (hd : a.mat.active = some d) :
    Kept s (a.abandonClose d test) := by
  refine h.trans ?_
  unfold State.abandonClose
  refine Kept.emit ?_ _
  refine { Kept.refl a with lines := fun k => ⟨?_, ?_⟩, closing := ?_, readings := (Matrix.setDrive_same _ _ _).rows }
  · intro e he hrun
    cases he
    exact k.driven d hd (by simpa using hrun)
  · intro hp
    have := (k.permit hp).atRest
    rw [hd] at this; exact absurd this (by simp)
  · intro _ e he _ hdir
    cases he
    exact absurd hdir (by simp)

theorem Kept.retestClose {s a : State} (h : Kept s a) : Kept s a.retestClose := by
  refine h.trans ?_
  unfold State.retestClose
  split
  · rename_i d hd
    split
    · split
      · exact Kept.refl _
      · exact (Kept.refl _).abandonClose d _ hd
    · exact Kept.refl _
  · exact Kept.refl _

@[simp] theorem retestClose_link (a : State) : a.retestClose.link = a.link := by
  unfold State.retestClose; repeat' split
  all_goals rfl

@[simp] theorem retestClose_rfPresent (a : State) : a.retestClose.rfPresent = a.rfPresent := by
  unfold State.retestClose; repeat' split
  all_goals rfl

/-- R128: after the tests of a close have been made again, a drive toward CLOSED has every other crosspoint OPEN. -/
theorem retestClose_othersOpen {a : State} {d : Drive} (h : a.retestClose.mat.active = some d)
    (hd : d.direction = .close) : OthersOpen a.retestClose.mat d.terminal := by
  revert h
  unfold State.retestClose
  split
  · rename_i e he
    split
    · split
      · rename_i hn
        intro h
        cases he.symm.trans h
        exact closeTest_othersOpen hn
      · intro h
        have h' : (some _ : Option Drive) = some d := h
        cases h'
        exact absurd hd (by simp)
    · rename_i hc
      intro h
      cases he.symm.trans h
      exact absurd (by simp [hd]) hc
  · rename_i he
    intro h
    exact absurd (he.symm.trans h) (by simp)

theorem closesAlone_retest (a : State) : ClosesAlone a.retestClose.mat :=
  fun _ hd _ hdir => retestClose_othersOpen hd hdir

theorem Kept.matrixEntered {s a : State} (h : Kept s a) (t : Nat) : Kept s (a.matrixEntered t) := by
  unfold State.matrixEntered
  split
  · exact h.retestClose
  · exact h

theorem Kept.nextOpen {s a : State} (n : Nat) (h : Kept s a) : Kept s (a.nextOpen n) := by
  induction n generalizing a with
  | zero => exact h
  | succ n ih =>
    unfold State.nextOpen
    split
    · exact h.testPending
    · dsimp only
      split
      · refine ih ?_
        exact h.setMat ⟨rfl, rfl⟩
      · split
        · refine ih (Kept.emit ?_ _)
          refine Kept.setMat h (SameMatrix.trans ?_ (Matrix.clearMark_same _ _))
          exact ⟨rfl, rfl⟩
        · refine Kept.startDrive ?_ _ _ _ _ _ (by simp)
          exact h.setMat ⟨rfl, rfl⟩

theorem Kept.nextDrive {s a : State} (h : Kept s a) : Kept s a.nextDrive := by
  unfold State.nextDrive
  split
  · exact h
  · exact h.nextOpen _

theorem Kept.close {s a : State} (h : Kept s a) (t : Nat) (stop : Option Int) : Kept s (a.close t stop) := by
  unfold State.close
  dsimp only
  repeat' split
  all_goals first | exact h.emit _ | (refine Kept.testPending ?_; exact h.setMat ⟨rfl, rfl⟩)

/-- An update of the active drive that keeps its terminal, direction and running. -/
theorem Kept.setActive {s a : State} (h : Kept s a) {d e : Drive} {m : Matrix} (hd : a.mat.active = some d)
    (hm : m.active = some e) (hr : m.rows = a.mat.rows)
    (ht : e.terminal = d.terminal ∧ e.direction = d.direction ∧ e.running = d.running) :
    Kept s ({ a with mat := m } : State) :=
  h.trans { Kept.refl a with
    lines := fun k =>
      { driven := fun f hf hrun => by
          have hf' : m.active = some f := hf
          rw [hm] at hf'; cases hf'
          exact k.driven d hd (by rw [← ht.2.2]; exact hrun)
        permit := fun hp => by
          have := (k.permit hp).atRest
          rw [hd] at this; exact absurd this (by simp) }
    closing := fun c f hf hrun hdir => by
      have hf' : m.active = some f := hf
      rw [hm] at hf'; cases hf'
      have := c d hd (by rw [← ht.2.2]; exact hrun) (by rw [← ht.2.1]; exact hdir)
      intro x hx hne
      exact this x (hr ▸ hx) (by rw [← ht.1]; exact hne)
    readings := by unfold Matrix.readings; rw [hr] }

theorem joinOpen_same (d : Drive) :
    d.joinOpen.terminal = d.terminal ∧ d.joinOpen.direction = d.direction ∧ d.joinOpen.running = d.running := by
  unfold Drive.joinOpen; split <;> exact ⟨rfl, rfl, rfl⟩

theorem Kept.openTerminal {s a : State} (h : Kept s a) (t : Nat) : Kept s (a.openTerminal t) := by
  refine h.trans ?_
  unfold State.openTerminal
  dsimp only
  have h1 (p : Option PendingClose) : Kept a ({ a with mat := { a.mat with pendingClose := p } } : State) :=
    (Kept.refl a).setMat ⟨rfl, rfl⟩
  split
  · exact h1 _
  · split
    · exact (h1 _).emit _
    · split
      · exact (h1 _).emit _
      · split
        · exact (Kept.refl a).setMat ⟨rfl, rfl⟩
        · rename_i d hd
          split
          · exact (Kept.refl a).setMat ⟨rfl, rfl⟩
          · split
            · exact (h1 _).setActive hd rfl rfl (joinOpen_same d)
            · exact (h1 _).setActive hd rfl rfl ⟨rfl, rfl, rfl⟩

theorem Kept.jamsGone {s a : State} (h : Kept s a) : Kept s a.jamsGone := by
  refine h.trans ?_
  unfold State.jamsGone
  split
  · exact Kept.refl _
  · exact (setAlert_kept _ _).noticeChange

theorem Kept.clearJam {s a : State} (h : Kept s a) (t : Nat) (p : Position) : Kept s (a.clearJam t p) := by
  refine h.trans ?_
  unfold State.clearJam
  dsimp only
  have h1 := (Kept.refl a).writeLog (.jammed t 2 (((a.mat.row t).map (·.failed)).getD .close) (some p))
  generalize State.writeLog _ _ = b at h1 ⊢
  refine Kept.jamsGone (Kept.emit ?_ _)
  refine Kept.setMat h1 (SameMatrix.trans (n := b.mat.setRow t _) ?_ (Matrix.clearMark_same _ _))
  exact b.mat.setRow_same t _ fun _ => ⟨rfl, rfl, rfl⟩

theorem Kept.endDrive {s a : State} (h : Kept s a) (d : Drive) : Kept s (a.endDrive d) := by
  refine h.trans ?_
  have h1 : Kept a ({ a with mat := { a.mat.setDrive d.terminal .idle with active := none } } : State) :=
    (Kept.refl a).noDrive (Matrix.setDrive_same _ _ _) rfl
  unfold State.endDrive
  generalize ({ a with mat := { a.mat.setDrive d.terminal .idle with active := none } } : State) = b at h1 ⊢
  split
  · dsimp only
    split
    · exact (h1.emit _).openTerminal _
    · exact h1.emit _
  · exact (h1.setMat (Matrix.clearMark_same _ _)).emit _

theorem Kept.scanDrive {s a : State} (h : Kept s a) : Kept s a.scanDrive := by
  refine h.trans ?_
  have h1 : Kept a ({ a with mat := { a.mat with active := none } } : State) :=
    (Kept.refl a).noDrive ⟨rfl, rfl⟩ rfl
  unfold State.scanDrive
  repeat' split
  all_goals first
    | exact Kept.refl _
    | exact h1.clearJam _ _
    | exact (Kept.refl a).endDrive _

theorem Kept.scanJams {s a : State} (l : List XRow) (h : Kept s a) : Kept s (a.scanJams l) := by
  induction l generalizing a with
  | nil => exact h
  | cons x rest ih =>
    unfold State.scanJams
    dsimp only
    refine ih ?_
    repeat' split
    all_goals first | exact h | exact h.clearJam _ _

theorem Kept.jam {s a : State} (h : Kept s a) (d : Drive) : Kept s (a.jam d) := by
  refine h.trans ?_
  unfold State.jam
  dsimp only
  have h1 : Kept a ({ a with
      mat := { (a.mat.setRow d.terminal fun x => { x with drive := .jammed, failed := d.direction, recovery := true }) with
        active := none } } : State) :=
    (Kept.refl a).noDrive (a.mat.setRow_same d.terminal _ fun _ => ⟨rfl, rfl, rfl⟩) rfl
  generalize ({ a with
      mat := { (a.mat.setRow d.terminal fun x => { x with drive := .jammed, failed := d.direction, recovery := true }) with
        active := none } } : State) = b at h1 ⊢
  have h2 := (h1.writeLog (.jammed d.terminal 0 d.direction none)).ownFault d.terminal .crosspoint faultMinutes
  generalize State.ownFault _ _ _ _ = c at h2 ⊢
  have h3 : ∀ f : Bool, Kept a
      (if f then State.noticeChange { c with alert := { c.alert with jammed := true } } else c) := by
    intro f; cases f
    · exact h2
    · exact (h2.trans (setAlert_kept _ { c.alert with jammed := true })).noticeChange
  have h4 := h3 (!a.mat.anyJammed)
  generalize (if (!a.mat.anyJammed) = true then
    State.noticeChange { c with alert := { c.alert with jammed := true } } else c) = e at h4 ⊢
  have h5 : Kept a (if (d.purpose == .tidy) = true then e else e.emit [.mxJammed d.terminal d.direction]) := by
    split
    · exact h4
    · exact h4.emit _
  generalize (if (d.purpose == .tidy) = true then e else e.emit [.mxJammed d.terminal d.direction]) = f at h5 ⊢
  split
  · exact h5.nextDrive
  · exact h5.startDrive _ _ _ _ _ (by simp)

theorem Kept.endRecovery {s a : State} (h : Kept s a) (d : Drive) : Kept s (a.endRecovery d) := by
  refine h.trans ?_
  unfold State.endRecovery
  have h1 := (Kept.refl a).writeLog (.jammed d.terminal 1 .openUp none)
  dsimp only
  generalize State.writeLog _ _ = b at h1 ⊢
  refine Kept.nextDrive (Kept.noDrive h1 ?_ rfl)
  exact b.mat.setRow_same d.terminal _ fun _ => ⟨rfl, rfl, rfl⟩

theorem Kept.resumeDrive {s a : State} (h : Kept s a) : Kept s a.resumeDrive := by
  refine h.trans ?_
  unfold State.resumeDrive
  split
  · exact Kept.refl _
  · split
    · exact Kept.refl _
    · rename_i hc
      dsimp only
      split
      · rename_i d hd
        have hl : a.linesClear = true := by
          by_contra hn
          exact hc (by simp [hn])
        unfold State.linesClear at hl
        simp only [Bool.and_eq_true, Bool.not_eq_true'] at hl
        have h1 := (Kept.refl a).retestClose
        have e1 : a.retestClose.link.permit = false := by rw [retestClose_link]; exact hl.1
        have e2 : a.retestClose.rfPresent = false := by rw [retestClose_rfPresent]; exact hl.2
        have e3 := fun hdir => retestClose_othersOpen hd hdir
        generalize a.retestClose = b at h1 e1 e2 e3 hd ⊢
        exact h1.drive (d := { d with running := some a.now }) ⟨rfl, rfl⟩ rfl e1 (fun _ => e2) fun _ hdir => e3 hdir
      · exact (Kept.refl a).retestClose

theorem Kept.tidy {s a : State} (h : Kept s a) : Kept s a.tidy := by
  refine h.trans ?_
  unfold State.tidy
  dsimp only
  split
  · exact (Kept.refl a).setMat ⟨rfl, rfl⟩
  · exact Kept.refl _

/-! ## The scan -/

/-- What the map leaves alone of the link, the matrix and the lines. -/
structure MapOnly (a b : State) : Prop where
  link : b.link = a.link
  mat  : b.mat = a.mat
  rf   : b.rfPresent = a.rfPresent

theorem MapOnly.trans {a b c : State} (h : MapOnly a b) (k : MapOnly b c) : MapOnly a c :=
  ⟨k.link.trans h.link, k.mat.trans h.mat, k.rf.trans h.rf⟩

theorem placeNotice_mapOnly (a : State) : MapOnly a a.placeNotice := ⟨rfl, rfl, rfl⟩

theorem noticeChange_mapOnly (a : State) : MapOnly a a.noticeChange := by
  unfold State.noticeChange
  repeat' split
  all_goals first | exact placeNotice_mapOnly _ | exact ⟨rfl, rfl, rfl⟩

theorem enterBooking_mapOnly (a : State) (t : Nat) (b : Booking) : MapOnly a (a.enterBooking t b) := by
  unfold State.enterBooking State.withMap
  dsimp only
  split
  · exact ⟨rfl, rfl, rfl⟩
  · split
    · refine MapOnly.trans (MapOnly.trans ?_ (noticeChange_mapOnly _)) ⟨rfl, rfl, rfl⟩
      exact ⟨rfl, rfl, rfl⟩
    · exact ⟨rfl, rfl, rfl⟩

theorem enterPhantoms_mapOnly (l : List Nat) (a : State) : MapOnly a (a.enterPhantoms l) := by
  induction l generalizing a with
  | nil => exact ⟨rfl, rfl, rfl⟩
  | cons t rest ih =>
    unfold State.enterPhantoms
    refine MapOnly.trans ?_ (ih _)
    split
    · exact enterBooking_mapOnly _ _ _
    · exact ⟨rfl, rfl, rfl⟩

theorem mapScan_mapOnly (a : State) (rows : List XRow) : MapOnly a (a.mapScan rows) := by
  unfold State.mapScan
  dsimp only
  refine MapOnly.trans (MapOnly.trans ?_ (enterPhantoms_mapOnly _ _)) ⟨rfl, rfl, rfl⟩
  exact ⟨rfl, rfl, rfl⟩

/-- R143: after the link has taken a scan, PERMIT asserted stands on it. -/
theorem permitScan_lines {a b : State} (h : Lines a) (hl : b.link = a.link) (hr : b.rfPresent = a.rfPresent)
    (hm : b.mat.active = a.mat.active) : Lines b.permitScan := by
  by_cases hp : b.link.permit = true
  · have p := h.permit (hl ▸ hp)
    have hat : b.mat.active = none := hm.trans p.atRest
    obtain ⟨t, ht, _⟩ := p.terminal
    have lost : ∀ c, Lines (b.permitLost c) := fun c =>
      { driven := fun d hd => by
          rw [permitLost_mat, hat] at hd; exact absurd hd (by simp)
        permit := fun hq => absurd ((permitLost_permit b c).symm.trans hq) (by decide) }
    unfold State.permitScan
    split
    · rename_i e; rw [hl, ht] at e; exact absurd e (by simp)
    · rename_i u e
      split
      · rename_i hc
        exact
          { driven := fun d hd => by rw [hat] at hd; exact absurd hd (by simp)
            permit := fun _ =>
              { up := hl ▸ p.up, remote := hl ▸ p.remote, sound := hl ▸ p.sound, works := hl ▸ p.works, atRest := hat,
                terminal := ⟨u, e, hc⟩ } }
      · split
        · exact lost _
        · exact lost _
  · have hp' : b.link.permit = false := by simpa using hp
    have e : b.permitScan = b := by
      unfold State.permitScan State.permitLost
      repeat' split
      all_goals rfl
    rw [e]
    exact
      { driven := fun d hd hrun => ⟨hp', hr.trans (h.driven d (hm ▸ hd) hrun).2⟩
        permit := fun hq => absurd hq hp }

theorem takeScan_kept (a : State) (scan : Contacts) : KeptCore a (a.takeScan scan) := by
  unfold State.takeScan
  dsimp only
  have k1 := Kept.mapScan (Kept.refl ({ a with mat := { a.mat with rows := a.mat.rows.map (XRow.read scan), lastScan := some a.now } } : State))
    (a.mat.rows.map (XRow.read scan))
  have m1 := mapScan_mapOnly ({ a with mat := { a.mat with rows := a.mat.rows.map (XRow.read scan), lastScan := some a.now } } : State)
    (a.mat.rows.map (XRow.read scan))
  generalize State.mapScan _ _ = b at k1 m1 ⊢
  have k2 := (Kept.refl b).permitScan
  have l2 : Lines a → Lines b.permitScan := fun k =>
    permitScan_lines k m1.link m1.rf ((congrArg Matrix.active m1.mat).trans rfl)
  generalize b.permitScan = p at k2 l2 ⊢
  have k3 := Kept.tidy (Kept.emit ((Kept.refl p).scanDrive.scanJams p.scanDrive.mat.rows)
    (movedNotices a.mat.rows (p.scanDrive.scanJams p.scanDrive.mat.rows).mat
      ((ownHeld (p.scanDrive.scanJams p.scanDrive.mat.rows).map).map (·.1))))
  generalize State.tidy _ = q at k3 ⊢
  have kr := (Kept.refl q).retestClose
  have cr := closesAlone_retest q
  generalize q.retestClose = r at kr cr ⊢
  have k5 := (Kept.refl r).nextDrive
  have kk := ((k1.trans k2).trans k3).trans (kr.trans k5)
  exact
    { now := kk.now, image := kk.image, cfg := kk.cfg, rfPresent := kk.rfPresent, tripLine := kk.tripLine,
      freeCount := kk.freeCount, pending := kk.pending, log := kk.log, bus := kk.bus, map := kk.map, req := kk.req,
      store := kk.store, lines := fun k => (kr.trans k5).lines (k3.lines (l2 k)), closing := fun _ => k5.closing cr }

end Sys2Proof.Machine
end

