-- ==== Sys2Proof/Laws/KeptClaim.lean ====
section
/-! SUPPORT. What the claim engine keeps. -/

namespace Sys2Proof.Machine

/-- An update of the bus alone. -/
theorem Kept.setBus {s a : State} (h : Kept s a) {b : Bus} (hb : a.bus.Within → b.Within) :
    Kept s ({ a with bus := b } : State) :=
  h.lit rfl rfl rfl rfl rfl rfl id hb id id id (SameLink.refl _) (SameMatrix.refl _)

/-- An update of the claim engine alone. -/
theorem Kept.setClaim {s a : State} (h : Kept s a) (c : Claim) : Kept s ({ a with claim := c } : State) :=
  h.lit rfl rfl rfl rfl rfl rfl id id id id id (SameLink.refl _) (SameMatrix.refl _)

/-! ## Claim.lean -/

theorem Kept.placeFree {s a : State} (h : Kept s a) (t cls : Nat) : Kept s (a.placeFree t cls) :=
  h.setBus fun k => k.placeFree _

theorem Kept.handBooked {s a : State} (h : Kept s a) (o : Occurrence) (t : Nat) (how : HowTaken) : Kept s (a.handBooked o t how) := by
  refine h.trans ?_
  unfold State.handBooked
  all_goals apply_rules [Kept.refl, Kept.emit, Kept.upd]

theorem Kept.watch {s a : State} (h : Kept s a) (o : Occurrence) (t : Nat) : Kept s (a.watch o t) := by
  refine h.trans ?_
  unfold State.watch
  all_goals apply_rules [Kept.refl, Kept.upd]

theorem Kept.supersede {s a : State} (h : Kept s a) : Kept s a.supersede := by
  refine h.trans ?_
  unfold State.supersede
  try dsimp only
  repeat' split
  all_goals apply_rules [Kept.refl, Kept.removeOwn, Kept.placeFree, Kept.emit, Kept.upd]

theorem Kept.enterBooked {s a : State} (h : Kept s a) (o : Occurrence) (t : Nat) : Kept s (a.enterBooked o t).1 := by
  refine h.trans ?_
  unfold State.enterBooked
  have h0 : Kept a (if (ownBooked a.map).isSome then a.supersede else a) := by
    split
    · exact (Kept.refl a).supersede
    · exact Kept.refl a
  generalize (if (ownBooked a.map).isSome = true then a.supersede else a) = b at h0 ⊢
  have h1 := h0.enterOwnBooked t o.prog.cls a.claim.since a.claim.till
  dsimp only
  split
  · rename_i e; rw [e] at h1; exact h1.watch _ _
  · rename_i e; rw [e] at h1; exact h1

theorem Kept.takeExtended {s a : State} (h : Kept s a) (o : Occurrence) (t : Nat) (b : Booking) :
    Kept s (a.takeExtended o t b) := by
  refine h.trans ?_
  unfold State.takeExtended
  dsimp only
  refine Kept.handBooked ?_ _ _ _
  split
  · exact ((Kept.refl a).extendOwn _ _ _ _).watch _ _
  · exact (Kept.refl a).extendOwn _ _ _ _

theorem Kept.placeClaim {s a : State} (h : Kept s a) (o : Occurrence) (t : Nat) : Kept s (a.placeClaim o t) := by
  refine h.trans ?_
  unfold State.placeClaim
  dsimp only
  have hb : ∀ f b p, a.bus.placeClaim f = (b, p) → a.bus.Within → b.Within := fun f b p e k => by
    have := k.placeClaim f
    rw [e] at this; exact this
  split
  · split
    · rename_i e
      exact ((Kept.refl a).setBus (hb _ _ _ e)).setClaim _
    · exact (Kept.refl a).setClaim _
  · exact (Kept.refl a).setClaim _

theorem Kept.endWalk {s a : State} (h : Kept s a) : Kept s a.endWalk := by
  refine h.trans ?_
  unfold State.endWalk
  try dsimp only
  repeat' split
  all_goals apply_rules [Kept.refl, Kept.emit, Kept.upd]

theorem Kept.walkFrom {s a : State} (n : Nat) (h : Kept s a) : Kept s (a.walkFrom n) := by
  induction n generalizing a with
  | zero => exact h
  | succ n ih =>
    unfold State.walkFrom
    split
    · exact h
    · split
      · split
        · exact ih (h.setClaim _)
        · exact h.endWalk
      · dsimp only
        split
        · exact ih (h.setClaim _)
        · split
          · exact ih (h.setClaim _)
          · split
            · exact ih (h.setClaim _)
            · split
              · exact (h.setClaim _).takeExtended _ _ _
              · split
                · rename_i o _ _ t _ _ _ _ _ _ _
                  have h1 := (h.setClaim { a.claim with index := a.claim.index + 1 }).enterBooked o t
                  split
                  · rename_i e; rw [e] at h1; exact h1.handBooked _ _ _
                  · rename_i e; rw [e] at h1; exact ih ((h1.placeFree _ _).setClaim _)
                · exact (h.setClaim _).placeClaim _ _

theorem Kept.walk {s a : State} (h : Kept s a) : Kept s a.walk := by
  refine h.trans ?_
  unfold State.walk
  all_goals apply_rules [Kept.refl, Kept.walkFrom, Kept.upd]

theorem Kept.beginSearch {s a : State} (h : Kept s a) (o : Occurrence) (givenUp : List Nat) : Kept s (a.beginSearch o givenUp) := by
  refine h.trans ?_
  unfold State.beginSearch
  try dsimp only
  repeat' split
  all_goals apply_rules [Kept.refl, Kept.emit, Kept.walk, Kept.upd]

theorem Kept.askBack {s a : State} (h : Kept s a) (f : FollowUp) : Kept s (a.askBack f) := by
  refine h.trans ?_
  unfold State.askBack
  dsimp only
  exact Kept.emit (((Kept.refl a).setBus fun k => k.withdrawClaim).setClaim _) _

theorem Kept.freeClaim {s a : State} (h : Kept s a) : Kept s a.freeClaim := by
  refine h.trans ?_
  unfold State.freeClaim
  repeat' split
  all_goals apply_rules [Kept.refl, Kept.placeFree, Kept.upd]

theorem Kept.search {s a : State} (h : Kept s a) (o : Occurrence) (g : List Nat) : Kept s (a.search o g) := by
  refine h.trans ?_
  unfold State.search
  split
  · exact (Kept.refl a).emit _
  · split
    · exact (Kept.refl a).askBack _
    · exact (Kept.refl a).freeClaim.beginSearch _ _
    · exact (Kept.refl a).setClaim _
    all_goals exact (Kept.refl a).beginSearch _ _

theorem Kept.exhaust {s a : State} (h : Kept s a) (t : Nat) : Kept s (a.exhaust t) := by
  refine h.trans ?_
  unfold State.exhaust
  try dsimp only
  repeat' split
  all_goals apply_rules [Kept.refl, Kept.upd]

theorem Kept.resume {s a : State} (h : Kept s a) : Kept s a.resume := by
  refine h.trans ?_
  unfold State.resume
  repeat' split
  all_goals apply_rules [Kept.refl, Kept.walk, Kept.upd]

theorem Kept.cancelWatched {s a : State} (h : Kept s a) (k : OccKey) : Kept s (a.cancelWatched k) := by
  refine h.trans ?_
  unfold State.cancelWatched
  try dsimp only
  repeat' split
  all_goals apply_rules [Kept.refl, Kept.removeOwn, Kept.placeFree, Kept.upd]

theorem Kept.cancelContext {s a : State} (h : Kept s a) (k : OccKey) : Kept s (a.cancelContext k) := by
  refine h.trans ?_
  unfold State.cancelContext
  repeat' split
  all_goals apply_rules [Kept.refl, Kept.askBack, Kept.freeClaim, Kept.upd]

theorem Kept.cancelClaim {s a : State} (h : Kept s a) (k : OccKey) : Kept s (a.cancelClaim k) := by
  refine h.trans ?_
  unfold State.cancelClaim
  all_goals apply_rules [Kept.refl, Kept.cancelContext, Kept.cancelWatched, Kept.upd]

theorem Kept.loseClaim {s a : State} (h : Kept s a) : Kept s a.loseClaim := by
  refine h.trans ?_
  unfold State.loseClaim
  try dsimp only
  all_goals apply_rules [Kept.refl, Kept.freeClaim, Kept.walk, Kept.upd]

theorem Kept.followUp {s a : State} (h : Kept s a) : Kept s a.followUp := by
  refine h.trans ?_
  unfold State.followUp
  try dsimp only
  repeat' split
  all_goals apply_rules [Kept.refl, Kept.walk, Kept.search, Kept.beginSearch, Kept.upd]

theorem Kept.takeClaimSent {s a : State} (h : Kept s a) (start startsIn : Nat) : Kept s (a.takeClaimSent start startsIn) := by
  refine h.trans ?_
  unfold State.takeClaimSent
  try dsimp only
  repeat' split
  all_goals apply_rules [Kept.refl, Kept.loseClaim, Kept.freeClaim, Kept.followUp, Kept.upd]

theorem Kept.takeClaimDropped {s a : State} (h : Kept s a) : Kept s a.takeClaimDropped := by
  refine h.trans ?_
  unfold State.takeClaimDropped
  repeat' split
  all_goals apply_rules [Kept.refl, Kept.walk, Kept.followUp, Kept.upd]

theorem Kept.takeClaimWithdrawn {s a : State} (h : Kept s a) : Kept s a.takeClaimWithdrawn := by
  refine h.trans ?_
  unfold State.takeClaimWithdrawn
  try dsimp only
  repeat' split
  all_goals apply_rules [Kept.refl, Kept.walk, Kept.followUp, Kept.upd]

theorem Kept.endClaimWindow {s a : State} (h : Kept s a) : Kept s a.endClaimWindow := by
  refine h.trans ?_
  unfold State.endClaimWindow
  split
  · rename_i o t _ _
    have h1 := (Kept.refl a).enterBooked o t
    split
    · rename_i e; rw [e] at h1; exact h1.handBooked _ _ _
    · rename_i e; rw [e] at h1; exact h1.loseClaim
  · exact Kept.refl _

theorem Kept.loseWatched {s a : State} (h : Kept s a) (w : Watched) (cause : LostCause) : Kept s (a.loseWatched w cause) := by
  refine h.trans ?_
  unfold State.loseWatched
  try dsimp only
  all_goals apply_rules [Kept.refl, Kept.removeOwn, Kept.placeFree, Kept.emit, Kept.upd]

theorem Kept.watchSecond {s a : State} (h : Kept s a) : Kept s a.watchSecond := by
  refine h.trans ?_
  unfold State.watchSecond
  repeat' split
  all_goals apply_rules [Kept.refl, Kept.loseWatched, Kept.upd]

theorem Kept.takePreempted {s a : State} (h : Kept s a) (t cls : Nat) : Kept s (a.takePreempted t cls) := by
  refine h.trans ?_
  unfold State.takePreempted
  try dsimp only
  repeat' split
  all_goals apply_rules [Kept.refl, Kept.placeFree, Kept.emit, Kept.upd]

theorem Kept.claimDeny {s a : State} (h : Kept s a) (f : RxFrame) : Kept s (a.claimDeny f) := by
  refine h.trans ?_
  unfold State.claimDeny
  try dsimp only
  repeat' split
  all_goals apply_rules [Kept.refl, Kept.loseClaim, Kept.loseWatched, Kept.upd]

theorem Kept.claimClaim {s a : State} (h : Kept s a) (f : RxFrame) : Kept s (a.claimClaim f) := by
  refine h.trans ?_
  unfold State.claimClaim
  try dsimp only
  repeat' split
  all_goals apply_rules [Kept.refl, Kept.loseClaim, Kept.upd]

theorem Kept.claimFault {s a : State} (h : Kept s a) (t : Nat) : Kept s (a.claimFault t) := by
  refine h.trans ?_
  unfold State.claimFault
  repeat' split
  all_goals apply_rules [Kept.refl, Kept.askBack, Kept.upd]

theorem Kept.claimJoin {s a : State} (h : Kept s a) (new : JoinState) : Kept s (a.claimJoin new) := by
  refine h.trans ?_
  unfold State.claimJoin
  repeat' split
  all_goals apply_rules [Kept.refl, Kept.walk, Kept.upd]

theorem Kept.retryWalk {s a : State} (h : Kept s a) : Kept s a.retryWalk := by
  refine h.trans ?_
  unfold State.retryWalk
  try dsimp only
  repeat' split
  all_goals apply_rules [Kept.refl, Kept.emit, Kept.walk, Kept.upd]

end Sys2Proof.Machine
end

