-- ==== Sys2Proof/Laws/KeptStore.lean ====
section
/-! SUPPORT. What the schedule store and the request queue keep. -/

namespace Sys2Proof.Machine

/-- An update of the store alone. -/
theorem Kept.setStore {s a : State} (h : Kept s a) {d : Store} (hd : OneLive a.store → OneLive d) :
    Kept s ({ a with store := d } : State) :=
  h.lit rfl rfl rfl rfl rfl rfl id id id id hd (SameLink.refl _) (SameMatrix.refl _)

/-- An update of the requests alone. -/
theorem Kept.setReq {s a : State} (h : Kept s a) {q : Requests}
    (hq : a.req.queue.length ≤ requestCapacity → q.queue.length ≤ requestCapacity) :
    Kept s ({ a with req := q } : State) :=
  h.lit rfl rfl rfl rfl rfl rfl id id id hq id (SameLink.refl _) (SameMatrix.refl _)

theorem Store.bank_setBank (s : Store) (b c : Bank) (d : BankData) :
    (s.setBank b d).bank c = if c = b then d else s.bank c := by
  cases b <;> cases c <;> rfl

/-- R7 in terms of the banks. -/
theorem oneLive_iff (s : Store) : OneLive s ↔ ∀ b c, b ≠ c → (s.bank b).state = .live → (s.bank c).state ≠ .live := by
  unfold OneLive
  constructor
  · intro h b c hne hb hc
    cases b <;> cases c
    · exact hne rfl
    · exact h ⟨hb, hc⟩
    · exact h ⟨hc, hb⟩
    · exact hne rfl
  · intro h k
    exact h .a .b (by decide) k.1 k.2

/-- A bank that takes another state than LIVE. -/
theorem OneLive.setBank {s : Store} (h : OneLive s) (b : Bank) {d : BankData} (hd : d.state ≠ .live) :
    OneLive (s.setBank b d) := by
  unfold OneLive at *
  cases b
  · exact fun k => hd k.1
  · exact fun k => hd k.2

/-- A bank that becomes LIVE while the other is not. -/
theorem OneLive.raise {s : Store} (b : Bank) {d : BankData} (hd : (s.bank b.other).state ≠ .live) :
    OneLive (s.setBank b d) := by
  unfold OneLive
  cases b
  · exact fun k => hd k.2
  · exact fun k => hd k.1

/-! ## Schedule.lean -/

theorem Kept.issueWrite {s a : State} (h : Kept s a) (w : SerialWrite) (reply : Option Reply) : Kept s (a.issueWrite w reply) := by
  refine h.trans ?_
  unfold State.issueWrite
  all_goals apply_rules [Kept.refl, Kept.upd]

theorem Kept.writeHeader {s a : State} (h : Kept s a) (bank : Bank) (reply : Option Reply) : Kept s (a.writeHeader bank reply) := by
  refine h.trans ?_
  unfold State.writeHeader
  all_goals apply_rules [Kept.refl, Kept.issueWrite, Kept.upd]

theorem OneLive.changeOver {d : Store} (bk : Bank) (t : Nat) :
    (∀ o, d.spentBy bk t = some o → OneLive ((d.setState o .spent).setState bk .live))
      ∧ (d.spentBy bk t = none → OneLive (d.setState bk .live)) := by
  unfold Store.spentBy
  constructor
  · intro o ho
    split at ho
    · cases ho
      refine OneLive.raise bk ?_
      cases bk <;> simp [Store.setState, Bank.other, Store.setBank, Store.bank]
    · exact absurd ho (by simp)
  · intro hn
    split at hn
    · exact absurd hn (by simp)
    · rename_i e
      refine OneLive.raise bk ?_
      intro hl
      exact e (by simp [hl])

theorem Kept.changeOver {s a : State} (h : Kept s a) (bk : Bank) (t : Nat) : Kept s (a.changeOver bk t) := by
  refine h.trans ?_
  have k := OneLive.changeOver (d := a.store) bk t
  unfold State.changeOver
  split
  · rename_i o e
    exact (((((Kept.refl a).setStore fun _ => k.1 o e).writeHeader _ _).writeHeader _ _).writeLog _).emit _
  · rename_i e
    exact ((((Kept.refl a).setStore fun _ => k.2 e).writeHeader _ _).writeLog _).emit _

theorem Kept.changeoverTest {s a : State} (h : Kept s a) (t : Nat) : Kept s (a.changeoverTest t) := by
  refine h.trans ?_
  unfold State.changeoverTest
  repeat' split
  all_goals apply_rules [Kept.refl, Kept.changeOver, Kept.upd]

theorem Kept.storeMinute {s a : State} (h : Kept s a) (t : Nat) : Kept s (a.storeMinute t) := by
  unfold State.storeMinute
  exact (h.changeoverTest t).setStore fun k => k

theorem Kept.reply {s a : State} (h : Kept s a) (r : Reply) : Kept s (a.reply r) :=
  h.setBus fun k => k.placeReply _

theorem Kept.bankOpen {s a : State} (h : Kept s a) (p : List Byte) : Kept s (a.bankOpen p) := by
  refine h.trans ?_
  unfold State.bankOpen
  split
  · exact (Kept.refl a).reply _
  · rename_i bk _
    have h1 : Kept a ({ a with
        store := a.store.setBank bk { state := .loading, label := 0, instant := none, entries := [] } } : State) :=
      (Kept.refl a).setStore fun k => k.setBank bk (by simp)
    split
    · exact (Kept.refl a).reply _
    · exact (Kept.refl a).reply _
    · dsimp only
      split
      · exact (h1.writeHeader _ _).emit _
      · exact h1.writeHeader _ _

theorem Kept.entryPut {s a : State} (h : Kept s a) (p : List Byte) : Kept s (a.entryPut p) := by
  refine h.trans ?_
  unfold State.entryPut
  split
  · exact (Kept.refl a).reply _
  · rename_i bk _
    dsimp only
    split
    · exact (Kept.refl a).reply _
    · rename_i hst
      have hst' : (a.store.bank bk).state = .loading := by simpa using hst
      split
      · exact (Kept.refl a).reply _
      · exact (Kept.refl a).reply _
      · split
        · exact (Kept.refl a).reply _
        · refine Kept.issueWrite ?_ _ _
          exact (Kept.refl a).setStore fun k => k.setBank bk (by simp [hst'])

theorem Kept.bankClose {s a : State} (h : Kept s a) (p : List Byte) : Kept s (a.bankClose p) := by
  refine h.trans ?_
  unfold State.bankClose
  split
  · exact (Kept.refl a).reply _
  · rename_i bk _
    dsimp only
    split
    · exact (Kept.refl a).reply _
    · split
      · exact (Kept.refl a).reply _
      · split
        · exact (Kept.refl a).reply _
        · refine Kept.emit (Kept.writeHeader ?_ _ _) _
          exact (Kept.refl a).setStore fun k => k.setBank bk (by simp)

theorem Kept.setExtra {s a : State} (h : Kept s a) (slot : Nat) (x : Option Extra) : Kept s (a.setExtra slot x) :=
  h.setStore fun k => k

theorem Kept.storeExtra {s a : State} (h : Kept s a) (slot : Nat) (x : Extra) : Kept s (a.storeExtra slot x) := by
  refine h.trans ?_
  unfold State.storeExtra
  all_goals apply_rules [Kept.refl, Kept.setExtra, Kept.emit, Kept.upd]

theorem Kept.extraPut {s a : State} (h : Kept s a) (p : List Byte) : Kept s (a.extraPut p) := by
  refine h.trans ?_
  unfold State.extraPut
  try dsimp only
  repeat' split
  all_goals apply_rules [Kept.refl, Kept.reply, Kept.setExtra, Kept.emit, Kept.storeExtra, Kept.upd]

theorem Kept.extraDrop {s a : State} (h : Kept s a) (p : List Byte) : Kept s (a.extraDrop p) := by
  refine h.trans ?_
  unfold State.extraDrop
  try dsimp only
  repeat' split
  all_goals apply_rules [Kept.refl, Kept.reply, Kept.setExtra, Kept.emit, Kept.upd]

theorem Kept.entryGet {s a : State} (h : Kept s a) (p : List Byte) : Kept s (a.entryGet p) := by
  refine h.trans ?_
  unfold State.entryGet
  repeat' split
  all_goals apply_rules [Kept.refl, Kept.reply, Kept.upd]

theorem Kept.logGet {s a : State} (h : Kept s a) (p : List Byte) : Kept s (a.logGet p) := by
  refine h.trans ?_
  unfold State.logGet
  repeat' split
  all_goals apply_rules [Kept.refl, Kept.reply, Kept.upd]

theorem Kept.statusGet {s a : State} (h : Kept s a) : Kept s a.statusGet := by
  refine h.trans ?_
  unfold State.statusGet
  all_goals apply_rules [Kept.refl, Kept.reply, Kept.upd]

theorem discardHeads_length (l : List (List Byte)) : (discardHeads l).length ≤ l.length := by
  induction l with
  | nil => exact Nat.le.refl
  | cons p rest ih => unfold discardHeads; split <;> simp only [List.length_cons] <;> omega

theorem Kept.discardDisabled {s a : State} (h : Kept s a) : Kept s a.discardDisabled := by
  unfold State.discardDisabled
  split
  · exact h.setReq fun k => Nat.le_trans (discardHeads_length _) k
  · exact h

theorem Kept.takeRequest {s a : State} (h : Kept s a) (f : RxFrame) : Kept s (a.takeRequest f) := by
  unfold State.takeRequest
  split
  · refine Kept.discardDisabled (h.setReq fun _ => ?_)
    simp only [List.length_append, List.length_singleton]
    omega
  · exact h

theorem Kept.endRequest {s a : State} (h : Kept s a) : Kept s a.endRequest := by
  unfold State.endRequest
  refine Kept.discardDisabled (h.setReq fun k => ?_)
  simp only [List.length_drop]
  omega

theorem Kept.serve {s a : State} (h : Kept s a) (kind : Nat) (f : State → List Byte → State)
    (hf : ∀ b p, Kept b (f b p)) : Kept s (a.serve kind f) := by
  unfold State.serve
  split
  · refine Kept.trans ?_ (hf _ _)
    exact h.setReq fun k => k
  · exact h

theorem Kept.endWrite {s a : State} (h : Kept s a) (kept : Bool) : Kept s (a.endWrite kept) := by
  refine h.trans ?_
  unfold State.endWrite
  try dsimp only
  repeat' split
  all_goals apply_rules [Kept.refl, Kept.reply, Kept.upd]

end Sys2Proof.Machine
end

