-- ==== Sys2Proof/Laws/KeptSequencer.lean ====
section
/-! SUPPORT. What the entry sequencer keeps. -/

namespace Sys2Proof.Machine

/-- An update of the sequencer alone. -/
theorem Kept.setSeq {s a : State} (h : Kept s a) (q : Sequencer) : Kept s ({ a with seq := q } : State) :=
  h.lit rfl rfl rfl rfl rfl rfl id id id id id (SameLink.refl _) (SameMatrix.refl _)

/-! ## Sequencer.lean -/

theorem Kept.setCur {s a : State} (h : Kept s a) (c : Ctx) : Kept s (a.setCur c) := by
  refine h.trans ?_
  unfold State.setCur
  all_goals repeat' (with_reducible first | exact Kept.refl _ | apply Kept.setSeq)

theorem Kept.setNxt {s a : State} (h : Kept s a) (c : Ctx) : Kept s (a.setNxt c) := by
  refine h.trans ?_
  unfold State.setNxt
  all_goals repeat' (with_reducible first | exact Kept.refl _ | apply Kept.setSeq)

theorem Kept.writeEnd {s a : State} (h : Kept s a) (c : Ctx) (code : EndCode) : Kept s (a.writeEnd c code) := by
  refine h.trans ?_
  unfold State.writeEnd
  repeat' split
  all_goals repeat' (with_reducible first | exact Kept.refl _ | apply Kept.writeLog)

theorem Kept.writeOn {s a : State} (h : Kept s a) (c : Ctx) (level lateness : Nat) : Kept s (a.writeOn c level lateness) := by
  refine h.trans ?_
  unfold State.writeOn
  repeat' split
  all_goals repeat' (with_reducible first | exact Kept.refl _ | apply Kept.writeLog)

theorem Kept.yieldNext {s a : State} (h : Kept s a) : Kept s a.yieldNext := by
  refine h.trans ?_
  unfold State.yieldNext
  try dsimp only
  repeat' split
  all_goals repeat' (with_reducible first | exact Kept.refl _ | apply Kept.cancelClaim | apply Kept.setNxt)

theorem Kept.searchCur {s a : State} (h : Kept s a) : Kept s a.searchCur := by
  refine h.trans ?_
  unfold State.searchCur
  repeat' split
  all_goals repeat' (with_reducible first | exact Kept.refl _ | apply Kept.yieldNext | apply Kept.search)

theorem Kept.resumeCur {s a : State} (h : Kept s a) : Kept s a.resumeCur := by
  refine h.trans ?_
  unfold State.resumeCur
  repeat' split
  all_goals repeat' (with_reducible first | exact Kept.refl _ | apply Kept.resume | apply Kept.searchCur)

theorem Kept.reclaim {s a : State} (h : Kept s a) : Kept s a.reclaim := by
  refine h.trans ?_
  unfold State.reclaim
  all_goals repeat' (with_reducible first | exact Kept.refl _ | apply Kept.resumeCur | apply Kept.setCur)

theorem Kept.tryNextSearch {s a : State} (h : Kept s a) : Kept s a.tryNextSearch := by
  refine h.trans ?_
  unfold State.tryNextSearch
  repeat' split
  all_goals repeat' (with_reducible first | exact Kept.refl _ | apply Kept.search | apply Kept.setNxt)

theorem Kept.emptyNext {s a : State} (h : Kept s a) : Kept s a.emptyNext := by
  refine h.trans ?_
  unfold State.emptyNext
  repeat' split
  all_goals repeat' (with_reducible first | exact Kept.refl _ | apply Kept.cancelClaim | apply Kept.setNxt)

theorem Kept.handTerminal {s a : State} (h : Kept s a) (t : Nat) (c : Ctx) : Kept s (a.handTerminal t c) := by
  refine h.trans ?_
  unfold State.handTerminal
  repeat' split
  all_goals repeat' (with_reducible first | exact Kept.refl _ | apply Kept.extendOwn | apply Kept.removeOwn)

theorem Kept.startRelease {s a : State} (h : Kept s a) (t : Nat) (stage : ReleaseStage) (waitLink : Bool) : Kept s (a.startRelease t stage waitLink) := by
  refine h.trans ?_
  unfold State.startRelease
  all_goals repeat' (with_reducible first | exact Kept.refl _ | apply Kept.setCur)

theorem Kept.advanceRelease {s a : State} (h : Kept s a) (last : Bool) : Kept s (a.advanceRelease last) := by
  refine h.trans ?_
  unfold State.advanceRelease
  split
  · split
    · split
      · exact ((Kept.refl a).setCur _).handTerminal _ _
      · exact Kept.refl _
    · split
      · exact ((Kept.refl a).startRelease _ _ _).openTerminal _
      · exact Kept.refl _
  · exact Kept.refl _

theorem Kept.dropHeld {s a : State} (h : Kept s a) (t : Nat) : Kept s (a.dropHeld t) := by
  refine h.trans ?_
  unfold State.dropHeld
  repeat' split
  all_goals repeat' (with_reducible first | exact Kept.refl _ | apply Kept.removeOwn | apply Kept.placeFree)

theorem Kept.endRelease {s a : State} (h : Kept s a) (t : Nat) : Kept s (a.endRelease t) := by
  refine h.trans ?_
  unfold State.endRelease
  try dsimp only
  repeat' split
  all_goals repeat' (with_reducible first | exact Kept.refl _ | apply Kept.setCur | apply Kept.dropHeld | apply Kept.emit)

theorem Kept.stopWork {s a : State} (h : Kept s a) : Kept s a.stopWork := by
  refine h.trans ?_
  unfold State.stopWork
  try dsimp only
  repeat' split
  all_goals repeat' (with_reducible first | exact Kept.refl _ | apply Kept.cancelClaim | apply Kept.rampDown | apply Kept.cancelAdmission)

theorem Kept.clearCur {s a : State} (h : Kept s a) : Kept s a.clearCur := by
  refine h.trans ?_
  unfold State.clearCur
  try dsimp only
  repeat' split
  all_goals repeat' (with_reducible first | exact Kept.refl _ | apply Kept.stopWork | apply Kept.releaseAdmission | apply Kept.setCur | apply Kept.handTerminal | apply Kept.startRelease)

theorem Kept.beginCurrent {s a : State} (h : Kept s a) (x : Occurrence) : Kept s (a.beginCurrent x) := by
  refine h.trans ?_
  unfold State.beginCurrent
  try dsimp only
  repeat' split
  all_goals repeat' (with_reducible first | exact Kept.refl _ | apply Kept.setCur | apply Kept.setNxt | apply Kept.searchCur)

theorem Kept.beginIfAny {s a : State} (h : Kept s a) (x : Option Occurrence) : Kept s (a.beginIfAny x) := by
  refine h.trans ?_
  unfold State.beginIfAny
  repeat' split
  all_goals repeat' (with_reducible first | exact Kept.refl _ | apply Kept.beginCurrent)

theorem Kept.beginUnspent {s a : State} (h : Kept s a) (x : Option Occurrence) : Kept s (a.beginUnspent x) := by
  refine h.trans ?_
  unfold State.beginUnspent
  split
  all_goals repeat' (with_reducible first | exact Kept.refl _ | apply Kept.beginIfAny)

theorem Kept.admitCur {s a : State} (h : Kept s a) : Kept s a.admitCur := by
  refine h.trans ?_
  unfold State.admitCur
  repeat' split
  all_goals repeat' (with_reducible first | exact Kept.refl _ | apply Kept.requestStep)

theorem Kept.continueInto {s a : State} (h : Kept s a) : Kept s a.continueInto := by
  refine h.trans ?_
  unfold State.continueInto
  try dsimp only
  repeat' split
  all_goals repeat' (with_reducible first | exact Kept.refl _ | apply Kept.writeEnd | apply Kept.setCur | apply Kept.setNxt | apply Kept.writeOn | apply Kept.admitCur | apply Kept.lowerTo | apply Kept.stepDown)

theorem Kept.setEnding {s a : State} (h : Kept s a) (e : Option Ending) : Kept s (a.setEnding e) := h.setSeq _

theorem Kept.finishCurrent {s a : State} (h : Kept s a) (code : EndCode) (x : Option Occurrence) : Kept s (a.finishCurrent code x) := by
  refine h.trans ?_
  unfold State.finishCurrent
  try dsimp only
  repeat' split
  all_goals repeat' (with_reducible first | exact Kept.refl _ | apply Kept.setEnding | apply Kept.continueInto | apply Kept.writeEnd | apply Kept.clearCur | apply Kept.beginIfAny)

theorem Kept.awaitSearch {s a : State} (h : Kept s a) (code : EndCode) (k : OccKey) (x : Occurrence) :
    Kept s (a.awaitSearch code k x) := by
  refine h.trans ?_
  unfold State.awaitSearch
  try dsimp only
  repeat' split
  all_goals repeat' (with_reducible first | exact Kept.refl _ | apply Kept.emptyNext | apply Kept.setNxt | apply Kept.search | apply Kept.setEnding)

theorem Kept.endCurrent {s a : State} (h : Kept s a) (code : EndCode) (x : Option Occurrence) : Kept s (a.endCurrent code x) := by
  refine h.trans ?_
  unfold State.endCurrent
  repeat' split
  all_goals repeat' (with_reducible first | exact Kept.refl _ | apply Kept.awaitSearch | apply Kept.finishCurrent)

theorem Kept.makeEnd {s a : State} (h : Kept s a) (e : Ending) : Kept s (a.makeEnd e) := by
  refine h.trans ?_
  unfold State.makeEnd
  refine Kept.emit ?_ _
  split
  · exact (Kept.refl a).finishCurrent _ _
  · exact (Kept.refl a).setEnding _

theorem Kept.endOn {s a : State} (h : Kept s a) (k : OccKey) : Kept s (a.endOn k) := by
  refine h.trans ?_
  unfold State.endOn
  repeat' split
  all_goals repeat' (with_reducible first | exact Kept.refl _ | apply Kept.makeEnd)

theorem Kept.advanceEnding {s a : State} (h : Kept s a) : Kept s a.advanceEnding := by
  refine h.trans ?_
  unfold State.advanceEnding
  repeat' split
  all_goals repeat' (with_reducible first | exact Kept.refl _ | apply Kept.makeEnd)

theorem Kept.compareCurrent {s a : State} (h : Kept s a) (boundary : Bool) : Kept s (a.compareCurrent boundary) := by
  refine h.trans ?_
  unfold State.compareCurrent
  try dsimp only
  repeat' split
  all_goals repeat' (with_reducible first | exact Kept.refl _ | apply Kept.setEnding | apply Kept.setCur | apply Kept.beginUnspent | apply Kept.clearCur | apply Kept.writeEnd | apply Kept.endCurrent)

theorem Kept.extendAll {s a : State} (h : Kept s a) : Kept s a.extendAll := by
  refine h.trans ?_
  unfold State.extendAll
  try dsimp only
  repeat' split
  all_goals repeat' (with_reducible first | exact Kept.refl _ | apply Kept.extendOwn)

theorem Kept.reconvert {s a : State} (h : Kept s a) : Kept s a.reconvert := by
  refine h.trans ?_
  unfold State.reconvert
  try dsimp only
  all_goals repeat' (with_reducible first | exact Kept.refl _ | apply Kept.extendAll | apply Kept.setSeq)

theorem Kept.evaluate {s a : State} (h : Kept s a) (boundary step : Bool) : Kept s (a.evaluate boundary step) := by
  refine h.trans ?_
  unfold State.evaluate
  try dsimp only
  repeat' split
  all_goals repeat' (with_reducible first | exact Kept.refl _ | apply Kept.reconvert | apply Kept.compareCurrent | apply Kept.emit)

theorem Kept.arm {s a : State} (h : Kept s a) : Kept s a.arm := by
  refine h.trans ?_
  unfold State.arm
  try dsimp only
  repeat' split
  all_goals repeat' (with_reducible first | exact Kept.refl _ | apply Kept.evaluate | apply Kept.setSeq)

theorem Kept.reevaluate {s a : State} (h : Kept s a) (boundary step : Bool) : Kept s (a.reevaluate boundary step) := by
  refine h.trans ?_
  unfold State.reevaluate
  repeat' split
  all_goals repeat' (with_reducible first | exact Kept.refl _ | apply Kept.evaluate | apply Kept.arm)

theorem Kept.prepareNext {s a : State} (h : Kept s a) : Kept s a.prepareNext := by
  refine h.trans ?_
  unfold State.prepareNext
  try dsimp only
  repeat' split
  all_goals repeat' (with_reducible first | exact Kept.refl _ | apply Kept.emptyNext | apply Kept.setCur | apply Kept.searchCur | apply Kept.setNxt | apply Kept.emit)

theorem Kept.takeFoundTest {s a : State} (h : Kept s a) : Kept s a.takeFoundTest := by
  refine h.trans ?_
  unfold State.takeFoundTest
  try dsimp only
  repeat' split
  all_goals repeat' (with_reducible first | exact Kept.refl _ | apply Kept.startRelease | apply Kept.setSeq)

theorem Kept.offerEnds {s a : State} (h : Kept s a) : Kept s a.offerEnds := by
  refine h.trans ?_
  unfold State.offerEnds
  repeat' split
  all_goals repeat' (with_reducible first | exact Kept.refl _ | apply Kept.emit)

theorem Kept.seqBooked {s a : State} (h : Kept s a) (k : OccKey) (t : Nat) (how : HowTaken) (suspect : Bool) : Kept s (a.seqBooked k t how suspect) := by
  refine h.trans ?_
  unfold State.seqBooked
  try dsimp only
  repeat' split
  all_goals repeat' (with_reducible first | exact Kept.refl _ | apply Kept.setCur | apply Kept.offerEnds | apply Kept.setNxt)

theorem Kept.endSearch {s a : State} (h : Kept s a) (code : EndCode) (k : Option OccKey) : Kept s (a.endSearch code k) := by
  refine h.trans ?_
  unfold State.endSearch
  dsimp only
  split
  all_goals repeat' (with_reducible first | exact Kept.refl _ | apply Kept.offerEnds | apply Kept.writeEnd | apply Kept.releaseAdmission | apply Kept.setCur)

theorem Kept.seqExhausted {s a : State} (h : Kept s a) (k : OccKey) : Kept s (a.seqExhausted k) := by
  unfold State.seqExhausted
  repeat' split
  · exact h.endSearch _ _
  · exact h.setNxt _
  · exact h

theorem Kept.seqExpired {s a : State} (h : Kept s a) (k : OccKey) : Kept s (a.seqExpired k) := by
  unfold State.seqExpired
  repeat' split
  · exact h.endSearch _ _
  · exact h.setNxt _
  · exact h

theorem Kept.seqWaiting {s a : State} (h : Kept s a) (k : OccKey) : Kept s (a.seqWaiting k) := by
  refine h.trans ?_
  unfold State.seqWaiting
  repeat' split
  all_goals repeat' (with_reducible first | exact Kept.refl _ | apply Kept.offerEnds)

theorem Kept.seqLost {s a : State} (h : Kept s a) (t : Nat) (k : OccKey) : Kept s (a.seqLost t k) := by
  refine h.trans ?_
  unfold State.seqLost
  try dsimp only
  repeat' split
  all_goals repeat' (with_reducible first | exact Kept.refl _ | apply Kept.reclaim | apply Kept.setNxt | apply Kept.resume)

theorem Kept.closeCur {s a : State} (h : Kept s a) (t : Nat) : Kept s (a.closeCur t) := by
  refine h.trans ?_
  unfold State.closeCur
  all_goals repeat' (with_reducible first | exact Kept.refl _ | apply Kept.close | apply Kept.setCur)

theorem Kept.advanceAwait {s a : State} (h : Kept s a) (last : Bool) : Kept s (a.advanceAwait last) := by
  refine h.trans ?_
  unfold State.advanceAwait
  split
  · rename_i t _ _
    have h1 := (Kept.refl a).promote t
    split
    · exact Kept.refl _
    · split
      · exact (Kept.refl a).closeCur _
      · generalize a.promote t = p at h1 ⊢
        obtain ⟨b, f⟩ := p
        cases f
        · exact (Kept.refl a).reclaim
        · exact h1.closeCur _
  · exact Kept.refl _

theorem Kept.tuneCur {s a : State} (h : Kept s a) : Kept s a.tuneCur := by
  refine h.trans ?_
  unfold State.tuneCur
  repeat' split
  all_goals repeat' (with_reducible first | exact Kept.refl _ | apply Kept.tune | apply Kept.setCur)

theorem Kept.closeAgain {s a : State} (h : Kept s a) : Kept s a.closeAgain := by
  refine h.trans ?_
  unfold State.closeAgain
  repeat' split
  all_goals repeat' (with_reducible first | exact Kept.refl _ | apply Kept.closeCur)

theorem Kept.seqClosed {s a : State} (h : Kept s a) (t : Nat) : Kept s (a.seqClosed t) := by
  refine h.trans ?_
  unfold State.seqClosed
  repeat' split
  all_goals repeat' (with_reducible first | exact Kept.refl _ | apply Kept.tuneCur | apply Kept.closeAgain)

theorem Kept.closeFailed {s a : State} (h : Kept s a) (t : Nat) : Kept s (a.closeFailed t) := by
  refine h.trans ?_
  unfold State.closeFailed
  repeat' split
  all_goals repeat' (with_reducible first | exact Kept.refl _ | apply Kept.dropHeld | apply Kept.reclaim | apply Kept.closeAgain)

theorem Kept.seqOpened {s a : State} (h : Kept s a) (t : Nat) (reversal : Bool) : Kept s (a.seqOpened t reversal) := by
  refine h.trans ?_
  unfold State.seqOpened
  repeat' split
  all_goals repeat' (with_reducible first | exact Kept.refl _ | apply Kept.endRelease | apply Kept.closeAgain | apply Kept.closeFailed)

theorem Kept.seqMxWaiting {s a : State} (h : Kept s a) (t : Nat) : Kept s (a.seqMxWaiting t) := by
  refine h.trans ?_
  unfold State.seqMxWaiting
  repeat' split
  all_goals repeat' (with_reducible first | exact Kept.refl _ | apply Kept.setCur | apply Kept.closeAgain)

theorem Kept.seqBusy {s a : State} (h : Kept s a) (t : Nat) : Kept s (a.seqBusy t) := by
  refine h.trans ?_
  unfold State.seqBusy
  repeat' split
  all_goals repeat' (with_reducible first | exact Kept.refl _ | apply Kept.setCur)

theorem Kept.giveUp {s a : State} (h : Kept s a) (t : Nat) (cause : FaultCause) (stage : ReleaseStage) : Kept s (a.giveUp t cause stage) := by
  refine h.trans ?_
  unfold State.giveUp
  try dsimp only
  repeat' split
  all_goals repeat' (with_reducible first | exact Kept.refl _ | apply Kept.writeLog | apply Kept.releaseAdmission | apply Kept.setCur | apply Kept.startRelease | apply Kept.exhaust | apply Kept.reclaim)

theorem Kept.seqJammed {s a : State} (h : Kept s a) (t : Nat) : Kept s (a.seqJammed t) := by
  refine h.trans ?_
  unfold State.seqJammed
  repeat' split
  all_goals repeat' (with_reducible first | exact Kept.refl _ | apply Kept.startRelease | apply Kept.closeAgain | apply Kept.giveUp)

theorem Kept.seqCleared {s a : State} (h : Kept s a) (t : Nat) (p : Position) : Kept s (a.seqCleared t p) := by
  refine h.trans ?_
  unfold State.seqCleared
  repeat' split
  all_goals repeat' (with_reducible first | exact Kept.refl _ | apply Kept.endRelease | apply Kept.startRelease | apply Kept.openTerminal)

theorem Kept.seqMoved {s a : State} (h : Kept s a) (t : Nat) : Kept s (a.seqMoved t) := by
  refine h.trans ?_
  unfold State.seqMoved
  repeat' split
  all_goals repeat' (with_reducible first | exact Kept.refl _ | apply Kept.closeCur)

theorem Kept.onTuned {s a : State} (h : Kept s a) : Kept s a.onTuned := by
  refine h.trans ?_
  unfold State.onTuned
  try dsimp only
  repeat' split
  all_goals repeat' (with_reducible first | exact Kept.refl _ | apply Kept.rampUp | apply Kept.setCur | apply Kept.admitCur)

theorem Kept.seqTuned {s a : State} (h : Kept s a) (t : Option Nat) : Kept s (a.seqTuned t) := by
  refine h.trans ?_
  unfold State.seqTuned
  repeat' split
  all_goals repeat' (with_reducible first | exact Kept.refl _ | apply Kept.onTuned)

theorem Kept.rampTimeComes {s a : State} (h : Kept s a) : Kept s a.rampTimeComes := by
  refine h.trans ?_
  unfold State.rampTimeComes
  repeat' split
  all_goals repeat' (with_reducible first | exact Kept.refl _ | apply Kept.onTuned)

theorem Kept.seqAdmitted {s a : State} (h : Kept s a) (step : Nat) : Kept s (a.seqAdmitted step) := by
  refine h.trans ?_
  unfold State.seqAdmitted
  try dsimp only
  repeat' split
  all_goals repeat' (with_reducible first | exact Kept.refl _ | apply Kept.rampUp | apply Kept.setCur | apply Kept.stepDown)

theorem Kept.seqPwWaiting {s a : State} (h : Kept s a) : Kept s a.seqPwWaiting := by
  refine h.trans ?_
  unfold State.seqPwWaiting
  repeat' split
  all_goals repeat' (with_reducible first | exact Kept.refl _ | apply Kept.setCur | apply Kept.cancelAdmission)

theorem Kept.seqRamped {s a : State} (h : Kept s a) (level : Nat) : Kept s (a.seqRamped level) := by
  refine h.trans ?_
  unfold State.seqRamped
  try dsimp only
  repeat' split
  all_goals repeat' (with_reducible first | exact Kept.refl _ | apply Kept.setCur | apply Kept.writeOn)

theorem Kept.seqSuspect {s a : State} (h : Kept s a) (t : Nat) (on : Bool) : Kept s (a.seqSuspect t on) := by
  refine h.trans ?_
  unfold State.seqSuspect
  all_goals repeat' (with_reducible first | exact Kept.refl _ | apply Kept.setSeq)

theorem Kept.seqCapped {s a : State} (h : Kept s a) : Kept s a.seqCapped := by
  refine h.trans ?_
  unfold State.seqCapped
  all_goals repeat' (with_reducible first | exact Kept.refl _ | apply Kept.setCur)

theorem Kept.seqTxRefused {s a : State} (h : Kept s a) (kind : RetryKind) : Kept s (a.seqTxRefused kind) := by
  refine h.trans ?_
  unfold State.seqTxRefused
  repeat' split
  all_goals repeat' (with_reducible first | exact Kept.refl _ | apply Kept.tune | apply Kept.rampUp | apply Kept.setCur)

theorem Kept.retryNow {s a : State} (h : Kept s a) : Kept s a.retryNow := by
  refine h.trans ?_
  unfold State.retryNow
  try dsimp only
  repeat' split
  all_goals repeat' (with_reducible first | exact Kept.refl _ | apply Kept.tune | apply Kept.tuneCur | apply Kept.setCur | apply Kept.rampUp)

theorem Kept.noRetry {s a : State} (h : Kept s a) : Kept s a.noRetry := by
  refine h.trans ?_
  unfold State.noRetry
  all_goals repeat' (with_reducible first | exact Kept.refl _ | apply Kept.setCur)

theorem Kept.seqTrip {s a : State} (h : Kept s a) (number : Nat) (action : TripAction) (step : Nat) : Kept s (a.seqTrip number action step) := by
  refine h.trans ?_
  unfold State.seqTrip
  try dsimp only
  repeat' split
  all_goals repeat' (with_reducible first | exact Kept.refl _ | apply Kept.setCur | apply Kept.cancelAdmission)

theorem Kept.seqGiveUp {s a : State} (h : Kept s a) (t : Option Nat) (cause : FaultCause) : Kept s (a.seqGiveUp t cause) := by
  refine h.trans ?_
  unfold State.seqGiveUp
  repeat' split
  all_goals repeat' (with_reducible first | exact Kept.refl _ | apply Kept.giveUp)

theorem Kept.seqLinkLost {s a : State} (h : Kept s a) : Kept s a.seqLinkLost := by
  refine h.trans ?_
  unfold State.seqLinkLost
  try dsimp only
  repeat' split
  all_goals repeat' (with_reducible first | exact Kept.refl _ | apply Kept.writeEnd | apply Kept.releaseAdmission | apply Kept.setCur | apply Kept.startRelease)

theorem Kept.seqLinkBack {s a : State} (h : Kept s a) : Kept s a.seqLinkBack := by
  refine h.trans ?_
  unfold State.seqLinkBack
  try dsimp only
  repeat' split
  all_goals repeat' (with_reducible first | exact Kept.refl _ | apply Kept.setCur | apply Kept.tuneCur | apply Kept.emit | apply Kept.reevaluate)

theorem Kept.seqBreak {s a : State} (h : Kept s a) (k : Break) : Kept s (a.seqBreak k) := by
  refine h.trans ?_
  unfold State.seqBreak
  repeat' split
  all_goals repeat' (with_reducible first | exact Kept.refl _ | apply Kept.setCur)

theorem Kept.returnToTune {s a : State} (h : Kept s a) : Kept s a.returnToTune := by
  refine h.trans ?_
  unfold State.returnToTune
  try dsimp only
  repeat' split
  all_goals repeat' (with_reducible first | exact Kept.refl _ | apply Kept.setCur | apply Kept.tuneCur | apply Kept.closeCur)

theorem Kept.seqTxClear {s a : State} (h : Kept s a) : Kept s a.seqTxClear := by
  refine h.trans ?_
  unfold State.seqTxClear
  repeat' split
  all_goals repeat' (with_reducible first | exact Kept.refl _ | apply Kept.returnToTune | apply Kept.tuneCur)

theorem Kept.seqDetuned {s a : State} (h : Kept s a) : Kept s a.seqDetuned := by
  refine h.trans ?_
  unfold State.seqDetuned
  repeat' split
  all_goals repeat' (with_reducible first | exact Kept.refl _ | apply Kept.tuneCur | apply Kept.setCur)

theorem Kept.seqSettled {s a : State} (h : Kept s a) : Kept s a.seqSettled := by
  refine h.trans ?_
  unfold State.seqSettled
  try dsimp only
  repeat' split
  all_goals repeat' (with_reducible first | exact Kept.refl _ | apply Kept.setCur | apply Kept.closeCur | apply Kept.returnToTune)

theorem Kept.takeSettled {s a : State} (h : Kept s a) : Kept s a.takeSettled := by
  unfold State.takeSettled
  split
  · exact h.noRetry.tuneCur
  · exact h.noRetry.seqSettled

theorem Kept.seqLocal {s a : State} (h : Kept s a) : Kept s a.seqLocal := by
  refine h.trans ?_
  unfold State.seqLocal
  try dsimp only
  repeat' split
  all_goals repeat' (with_reducible first | exact Kept.refl _ | apply Kept.cancelClaim | apply Kept.writeEnd | apply Kept.setCur)

theorem Kept.seqRemote {s a : State} (h : Kept s a) : Kept s a.seqRemote := by
  refine h.trans ?_
  unfold State.seqRemote
  repeat' split
  all_goals repeat' (with_reducible first | exact Kept.refl _ | apply Kept.setCur | apply Kept.emit | apply Kept.reevaluate)

theorem Kept.takeReleaseKept {s a : State} (h : Kept s a) : Kept s a.takeReleaseKept := by
  refine h.trans ?_
  unfold State.takeReleaseKept
  repeat' split
  all_goals repeat' (with_reducible first | exact Kept.refl _ | apply Kept.startRelease)

theorem Kept.seqJoin {s a : State} (h : Kept s a) (new : JoinState) : Kept s (a.seqJoin new) := by
  refine h.trans ?_
  unfold State.seqJoin
  repeat' split
  all_goals repeat' (with_reducible first | exact Kept.refl _ | apply Kept.emit | apply Kept.reevaluate | apply Kept.setSeq)

theorem Kept.seqReleased {s a : State} (h : Kept s a) (t : Nat) : Kept s (a.seqReleased t) := by
  refine h.trans ?_
  unfold State.seqReleased
  all_goals repeat' (with_reducible first | exact Kept.refl _ | apply Kept.dropHeld)

theorem Kept.advance {s a : State} (h : Kept s a) (last : Bool) : Kept s (a.advance last) := by
  refine h.trans ?_
  unfold State.advance
  all_goals repeat' (with_reducible first | exact Kept.refl _ | apply Kept.advanceEnding | apply Kept.advanceRelease | apply Kept.advanceAwait | apply Kept.tryNextSearch)

end Sys2Proof.Machine
end

