-- ==== Sys2Proof/Laws/KeptHandout.lean ====
section
/-! SUPPORT. What the clock, each hand-out and the draining of hand-outs keep. -/

namespace Sys2Proof.Machine

/-- An update of the clock alone. -/
theorem Kept.setClockTo {s a : State} (h : Kept s a) (c : Clock) : Kept s ({ a with clock := c } : State) :=
  h.lit rfl rfl rfl rfl rfl rfl id id id id id (SameLink.refl _) (SameMatrix.refl _)

/-! ## Clock.lean -/

theorem Kept.raiseBoundary {s a : State} (h : Kept s a) (m : Nat) : Kept s (a.raiseBoundary m) := by
  unfold State.raiseBoundary
  refine Kept.storeMinute (Kept.emit ?_ _) m
  exact h.lit rfl rfl rfl rfl rfl rfl id id id id id (SameLink.refl _) (SameMatrix.refl _)

theorem Kept.noticeRemoval {s a : State} (h : Kept s a) (x : List (Option Extra)) :
    Kept s (a.noticeRemoval x) := by
  unfold State.noticeRemoval
  split
  · exact h.emit _
  · exact h

theorem Kept.boundaryIfDue {s a : State} (h : Kept s a) : Kept s a.boundaryIfDue := by
  refine h.trans ?_
  unfold State.boundaryIfDue
  repeat' split
  all_goals repeat' (with_reducible first | exact Kept.refl _ | apply Kept.raiseBoundary)

theorem Kept.stepSetting {s a : State} (h : Kept s a) (f : Nat) (step : Bool) (old : Nat) (diff : Int) :
    Kept s (a.stepSetting f step old diff) := by
  refine h.trans ?_
  unfold State.stepSetting
  exact (((((Kept.refl a).writeLogAt _ _ _).setClockTo _).emit _).storeMinute _).noticeRemoval _

theorem Kept.setClock {s a : State} (h : Kept s a) (f t : Nat) : Kept s (a.setClock f t) := by
  refine h.trans ?_
  have h1 := (Kept.refl a).setClockTo (a.clock.setTo f t)
  unfold State.setClock
  dsimp only
  split
  · exact h1.stepSetting _ _ _ _
  · exact h1.stepSetting _ _ _ _
  · exact h1.boundaryIfDue

theorem Kept.takeTime {s a : State} (h : Kept s a) (f : RxFrame) : Kept s (a.takeTime f) := by
  refine h.trans ?_
  unfold State.takeTime
  try dsimp only
  repeat' split
  all_goals repeat' (with_reducible first | exact Kept.refl _ | apply Kept.setClock)

theorem Kept.enterHoldover {s a : State} (h : Kept s a) : Kept s a.enterHoldover := h.setClockTo _

theorem Kept.endRange {s a : State} (h : Kept s a) : Kept s a.endRange := (h.setClockTo _).emit _

/-! ## Handout.lean -/

theorem Kept.matrixJoin {s a : State} (h : Kept s a) (new : JoinState) : Kept s (a.matrixJoin new) := by
  refine h.trans ?_
  unfold State.matrixJoin
  repeat' split
  all_goals repeat' (with_reducible first | exact Kept.refl _ | apply Kept.tidy)

theorem Kept.linkJoin {s a : State} (h : Kept s a) (new : JoinState) : Kept s (a.linkJoin new) := by
  refine h.trans ?_
  unfold State.linkJoin
  split
  · apply_rules [Kept.refl, Kept.upd]
  · exact Kept.refl _

theorem Kept.powerJoin {s a : State} (h : Kept s a) (new : JoinState) : Kept s (a.powerJoin new) := by
  refine h.trans ?_
  unfold State.powerJoin
  repeat' split
  all_goals repeat' (with_reducible first | exact Kept.refl _ | apply Kept.chooseIfWaiting)

theorem Kept.takeJoin {s a : State} (h : Kept s a) (new : JoinState) : Kept s (a.takeJoin new) := by
  refine h.trans ?_
  unfold State.takeJoin
  all_goals repeat' (with_reducible first | exact Kept.refl _ | apply Kept.claimJoin | apply Kept.powerJoin | apply Kept.seqJoin | apply Kept.matrixJoin | apply Kept.linkJoin | apply Kept.discardDisabled)

theorem Kept.takeFrame {s a : State} (h : Kept s a) (kind : FrameKind) (f : RxFrame) : Kept s (a.takeFrame kind f) := by
  cases kind
  · exact (h.mapDeny f).claimDeny f
  · exact h.mapFreeFrame f
  · exact (h.mapClaim f).claimClaim f
  · exact h.powerIntent f
  · exact (h.mapNotice f).powerNotice f
  · exact (h.mapFaultFrame f).claimFault _
  · exact h.takeTime f
  · exact h.takeRequest f

theorem Kept.takeSuspect {s a : State} (h : Kept s a) (t : Nat) (on : Bool) : Kept s (a.takeSuspect t on) := by
  refine h.trans ?_
  unfold State.takeSuspect
  all_goals repeat' (with_reducible first | exact Kept.refl _ | apply Kept.powerSuspect | apply Kept.linkSuspect | apply Kept.seqSuspect)

theorem Kept.tuneFailed {s a : State} (h : Kept s a) (t : Option Nat) :
    Kept s (if a.seq.cur.state == .tuning then a.noRetry.seqGiveUp t .tuneFailed else a.noRetry) := by
  split
  · exact h.noRetry.seqGiveUp _ _
  · exact h.noRetry

theorem Kept.take {s a : State} (h : Kept s a) (m : Handed) : Kept s (a.take m) := by
  cases m
  · exact h.takeJoin _
  · exact h.joinTail _ _ _
  · exact h.takeIsolation
  · exact h.takeFrame _ _
  · exact h.takeClaimSent _ _
  · exact h.takeClaimDropped
  · exact h.takeClaimWithdrawn
  · exact h.takePreempted _ _
  · exact h.takeIntentSent _
  · exact h.takeIntentLost
  · exact h.takeIntentLost
  · exact h.endRequest
  · exact h.permitHeld
  · exact h.takeSuspect _ _
  · exact h.matrixEntered _
  · exact h.powerLevel
  · exact h.takePowerLocal
  · exact h.takePowerRemote
  · exact h.takeStepLower _
  · exact h.chooseIfWaiting
  · exact (h.seqBooked _ _ _ _).endOn _
  · exact (h.seqWaiting _).endOn _
  · exact (h.seqExhausted _).endOn _
  · exact (h.seqExpired _).endOn _
  · exact (h.seqWaiting _).endOn _
  · exact h.seqLost _ _
  · exact h.seqClosed _
  · exact h.seqOpened _ _
  · exact h.seqReleased _
  · exact h.seqMxWaiting _
  · exact h.closeAgain
  · exact h.seqJammed _
  · exact h.seqCleared _ _
  · exact (h.permitLost _).seqMoved _
  · exact h.seqBusy _
  · exact h.closeFailed _
  · exact h.noRetry.seqTuned _
  · exact h.tuneFailed _
  · exact h.noRetry
  · exact h.noRetry.seqDetuned
  · exact h.noRetry.seqRamped _
  · exact h.noRetry.seqCapped
  · exact h.takeSettled
  · exact h.noRetry.seqTrip _ _ _
  · exact h.noRetry.seqGiveUp _ _
  · exact h.noRetry.seqBreak _
  · exact h.noRetry.seqLinkLost
  · exact h.noRetry.seqLinkBack
  · exact h.noRetry.seqLocal
  · exact h.noRetry.seqRemote
  · exact h.noRetry.seqBreak _
  · exact h.noRetry.seqTxClear
  · exact h.seqTxRefused _
  · exact h.seqAdmitted _
  · exact h.seqPwWaiting
  · exact h
  · exact h.reevaluate _ _
  · exact h.reevaluate _ _
  · exact h.storeExtra _ _
  · exact h.reply _
  · exact h.prepareNext
  · exact h.takeFoundTest
  · exact h.takeReleaseKept

/-- A hand-out waits, or has been taken off: the laws do not read it. -/
theorem Kept.setHanded {s a : State} (h : Kept s a) (m : List Handed) : Kept s ({ a with handed := m } : State) :=
  h.lit rfl rfl rfl rfl rfl rfl id id id id id (SameLink.refl _) (SameMatrix.refl _)

theorem Kept.drainFrom {s a : State} (n : Nat) (h : Kept s a) : Kept s (a.drainFrom n) := by
  induction n generalizing a with
  | zero => exact h
  | succ n ih =>
    unfold State.drainFrom
    split
    · exact h
    · exact ih (((((h.setHanded []).take _).advance _)).setHanded _)

theorem Kept.drain {s a : State} (h : Kept s a) : Kept s a.drain := by
  refine h.trans ?_
  unfold State.drain
  all_goals repeat' (with_reducible first | exact Kept.refl _ | apply Kept.drainFrom)

end Sys2Proof.Machine
end

