-- ==== Sys2Proof/Laws/PerInstr.lean ====
section
/-! SUPPORT. Statements made of every command, one lemma per constructor. -/

namespace Sys2Proof.Laws.Placed

/-- R41: the frame that a well-formed command carries has at most 16 bytes and started no later than the command. -/
def Statement (i : Instr) : Prop :=
  i.wellFormed = true → ∀ t f, i.time = some t → i.frame = some f → f.payload.length ≤ 16 ∧ f.start ≤ t

/-- A command that carries no frame. -/
theorem of_none {i : Instr} (h : i.frame = none) : Statement i := by
  intro _ t f _ hf
  rw [h] at hf; exact absurd hf (by simp)

/-- A command that carries a frame, and whose well-formedness is that of the frame. -/
theorem of_some {i : Instr} {u : Nat} {g : RxFrame} (ht : i.time = some u) (hf : i.frame = some g)
    (h : i.wellFormed = true → g.wf u = true) : Statement i := by
  intro hw t f ht' hf'
  cases ht.symm.trans ht'
  cases hf.symm.trans hf'
  simpa [RxFrame.wf] using h hw

theorem reset : Statement .reset :=
  of_none rfl

theorem handOver (at_ : Nat) (image : Option RawImage) (scan : Contacts) : Statement (.handOver at_ image scan) :=
  of_none rfl

theorem bankOpen (at_ : Nat) : Statement (.bankOpen at_) :=
  of_none rfl

theorem entryPut (at_ : Nat) : Statement (.entryPut at_) :=
  of_none rfl

theorem bankClose (at_ : Nat) : Statement (.bankClose at_) :=
  of_none rfl

theorem extraPut (at_ : Nat) : Statement (.extraPut at_) :=
  of_none rfl

theorem extraDrop (at_ : Nat) : Statement (.extraDrop at_) :=
  of_none rfl

theorem entryGet (at_ : Nat) : Statement (.entryGet at_) :=
  of_none rfl

theorem logGet (at_ : Nat) : Statement (.logGet at_) :=
  of_none rfl

theorem statusGet (at_ : Nat) : Statement (.statusGet at_) :=
  of_none rfl

theorem serialMemoryWriteEnd (at_ : Nat) (kept : Bool) : Statement (.serialMemoryWriteEnd at_ kept) :=
  of_none rfl

theorem busIdleOffer (at_ : Nat) : Statement (.busIdleOffer at_) :=
  of_none rfl

theorem arbitrationLost (at_ : Nat) : Statement (.arbitrationLost at_) :=
  of_none rfl

theorem attemptSucceeded (at_ : Nat) : Statement (.attemptSucceeded at_) :=
  of_none rfl

theorem attemptFailed (at_ : Nat) : Statement (.attemptFailed at_) :=
  of_none rfl

theorem frameCrcBad (at_ : Nat) : Statement (.frameCrcBad at_) :=
  of_none rfl

theorem denyReceived (at_ : Nat) (f : RxFrame) : Statement (.denyReceived at_ f) :=
  of_some rfl rfl id

theorem freeReceived (at_ : Nat) (f : RxFrame) : Statement (.freeReceived at_ f) :=
  of_some rfl rfl id

theorem claimReceived (at_ : Nat) (f : RxFrame) : Statement (.claimReceived at_ f) :=
  of_some rfl rfl id

theorem intentReceived (at_ : Nat) (f : RxFrame) : Statement (.intentReceived at_ f) :=
  of_some rfl rfl id

theorem noticeReceived (at_ : Nat) (f : RxFrame) : Statement (.noticeReceived at_ f) :=
  of_some rfl rfl id

theorem faultReceived (at_ : Nat) (f : RxFrame) : Statement (.faultReceived at_ f) :=
  of_some rfl rfl id

theorem timeReceived (at_ : Nat) (f : RxFrame) : Statement (.timeReceived at_ f) :=
  of_some rfl rfl id

theorem requestReceived (at_ : Nat) (f : RxFrame) : Statement (.requestReceived at_ f) :=
  of_some rfl rfl id

theorem otherFrameReceived (at_ : Nat) (logrec : Bool) (f : RxFrame) : Statement (.otherFrameReceived at_ logrec f) :=
  of_some rfl rfl id

theorem minuteBoundary (at_ : Nat) : Statement (.minuteBoundary at_) :=
  of_none rfl

theorem holdoverExpiry (at_ : Nat) : Statement (.holdoverExpiry at_) :=
  of_none rfl

theorem clockRangeEnd (at_ : Nat) : Statement (.clockRangeEnd at_) :=
  of_none rfl

theorem listeningTimerExpiry (at_ : Nat) : Statement (.listeningTimerExpiry at_) :=
  of_none rfl

theorem learningTimerExpiry (at_ : Nat) : Statement (.learningTimerExpiry at_) :=
  of_none rfl

theorem silenceDeadline (at_ : Nat) : Statement (.silenceDeadline at_) :=
  of_none rfl

theorem noticePeriod (at_ : Nat) : Statement (.noticePeriod at_) :=
  of_none rfl

theorem noticePendingDue (at_ : Nat) : Statement (.noticePendingDue at_) :=
  of_none rfl

theorem bookingAging (at_ : Nat) : Statement (.bookingAging at_) :=
  of_none rfl

theorem bookedExpiry (at_ : Nat) : Statement (.bookedExpiry at_) :=
  of_none rfl

theorem suspectExpiry (at_ : Nat) : Statement (.suspectExpiry at_) :=
  of_none rfl

theorem matrixScan (at_ : Nat) (scan : Contacts) : Statement (.matrixScan at_ scan) :=
  of_none rfl

theorem driveTimeout (at_ : Nat) : Statement (.driveTimeout at_) :=
  of_none rfl

theorem recoveryDriveTimeout (at_ : Nat) : Statement (.recoveryDriveTimeout at_) :=
  of_none rfl

theorem rfPresentActive (at_ : Nat) : Statement (.rfPresentActive at_) :=
  of_none rfl

theorem rfPresentInactive (at_ : Nat) : Statement (.rfPresentInactive at_) :=
  of_none rfl

theorem reportReceived (at_ : Nat) (bytes : List Byte) : Statement (.reportReceived at_ bytes) :=
  of_none rfl

theorem txRecordDiscarded (at_ : Nat) (bytes : List Byte) : Statement (.txRecordDiscarded at_ bytes) :=
  of_none rfl

theorem linkLossDeadline (at_ : Nat) : Statement (.linkLossDeadline at_) :=
  of_none rfl

theorem tuneDeadline (at_ : Nat) : Statement (.tuneDeadline at_) :=
  of_none rfl

theorem rampRungDue (at_ : Nat) : Statement (.rampRungDue at_) :=
  of_none rfl

theorem rampDownRungDue (at_ : Nat) : Statement (.rampDownRungDue at_) :=
  of_none rfl

theorem tripAsserted (at_ : Nat) : Statement (.tripAsserted at_) :=
  of_none rfl

theorem tripDeasserted (at_ : Nat) : Statement (.tripDeasserted at_) :=
  of_none rfl

theorem tripWindowExpiry (at_ : Nat) : Statement (.tripWindowExpiry at_) :=
  of_none rfl

theorem recycleTime (at_ : Nat) : Statement (.recycleTime at_) :=
  of_none rfl

theorem intentWindowEnd (at_ : Nat) : Statement (.intentWindowEnd at_) :=
  of_none rfl

theorem backoffEnd (at_ : Nat) : Statement (.backoffEnd at_) :=
  of_none rfl

theorem intentExpiry (at_ : Nat) : Statement (.intentExpiry at_) :=
  of_none rfl

theorem claimWindowEnd (at_ : Nat) : Statement (.claimWindowEnd at_) :=
  of_none rfl

theorem claimRetry (at_ : Nat) : Statement (.claimRetry at_) :=
  of_none rfl

theorem claimWatch (at_ : Nat) : Statement (.claimWatch at_) :=
  of_none rfl

theorem rampTime (at_ : Nat) : Statement (.rampTime at_) :=
  of_none rfl

theorem sequencerRetry (at_ : Nat) : Statement (.sequencerRetry at_) :=
  of_none rfl

theorem unknownKindFrameReceived (at_ : Nat) (kind : Fin 6) (f : RxFrame) : Statement (.unknownKindFrameReceived at_ kind f) :=
  of_some rfl rfl id

end Sys2Proof.Laws.Placed
end

