-- ==== Sys2Proof/Laws/Unarmed.lean ====
section
/-! SUPPORT. Hand-outs that change nothing: a list of them drains to the state as the command's rule left it. Each of
`Still.<hand-out>` says when the hand-out is one, with the sequencer as reset leaves it or the block it is for idle. -/

namespace Sys2Proof.Machine

/-- A hand-out that leaves the state as it is, with nothing more for the sequencer to do. -/
structure Still (s : State) (m : Handed) : Prop where
  take    : State.take { s with handed := [] } m = { s with handed := [] }
  advance : ∀ last, State.advance { s with handed := [] } last = { s with handed := [] }

theorem State.drainFrom_still {n : Nat} {s : State} (hl : s.handed.length ≤ n) (h : ∀ m ∈ s.handed, Still s m) :
    s.drainFrom n = { s with handed := [] } := by
  induction n generalizing s with
  | zero =>
    have e : s.handed = [] := List.length_eq_zero_iff.mp (Nat.le_zero.mp hl)
    unfold State.drainFrom
    rw [← e]
  | succ n ih =>
    cases e : s.handed with
    | nil =>
      unfold State.drainFrom
      simp only [e]
      rw [← e]
    | cons m rest =>
      have hm := h m (by rw [e]; exact List.mem_cons_self)
      rw [State.drainFrom_cons e, hm.take, hm.advance]
      have hr : ∀ k ∈ rest, Still s k := fun k hk => h k (by rw [e]; exact List.mem_cons_of_mem _ hk)
      have := ih (s := { s with handed := rest }) (by rw [e] at hl; simpa using hl)
        (fun k hk => ⟨(hr k hk).take, (hr k hk).advance⟩)
      simpa using this

/-- Hand-outs that change nothing, up to the number taken in one command. -/
theorem State.drain_still {s : State} (hl : s.handed.length ≤ 4096) (h : ∀ m ∈ s.handed, Still s m) :
    s.drain = { s with handed := [] } := State.drainFrom_still hl h

/-- With the sequencer as reset leaves it nothing follows a hand-out. -/
theorem State.advance_reset {s : State} (h : s.seq = Sequencer.reset) (last : Bool) :
    State.advance { s with handed := [] } last = { s with handed := [] } :=
  State.Calm.advance (last := last)
    { handed := Eq.refl _, ending := by simp [h, Sequencer.reset], release := by simp [h, Sequencer.reset, Ctx.reset],
      await := by simp [h, Sequencer.reset, Ctx.reset], search := by simp [h, Sequencer.reset, Ctx.reset] }

theorem State.setCur_reset {s : State} (h : s.seq = Sequencer.reset) : s.setCur Ctx.reset = s := by
  unfold State.setCur
  have e : ({ s.seq with cur := Ctx.reset } : Sequencer) = s.seq := by rw [h]; exact Eq.refl _
  rw [e]

theorem State.noRetry_reset {s : State} (h : s.seq = Sequencer.reset) : s.noRetry = s := by
  have e : ({ s.seq.cur with retry := none } : Ctx) = Ctx.reset := by rw [h]; exact Eq.refl _
  unfold State.noRetry
  rw [e, State.setCur_reset h]

theorem State.take_reset {s : State} (h : s.seq = Sequencer.reset) :
    State.noRetry { s with handed := [] } = { s with handed := [] } := State.noRetry_reset h

/-! ## To the power share unit -/

theorem Still.levelChanged {s : State} (h : s.seq = Sequencer.reset) (hl : s.psu.pendingLower = none)
    (hr : s.psu.releasePending = false) : Still s .levelChanged :=
  ⟨by simp [State.take, State.powerLevel, State.settleLower, State.settleRelease, hl, hr], State.advance_reset h⟩

theorem Still.noticePlaced {s : State} (h : s.seq = Sequencer.reset) (hp : s.psu.phase ≠ .wait) :
    Still s .noticePlaced :=
  ⟨by simp [State.take, State.chooseIfWaiting, hp], State.advance_reset h⟩

/-! ## To the sequencer -/

theorem Still.txTuned {s : State} (h : s.seq = Sequencer.reset) (t : Option Nat) : Still s (.txTuned t) :=
  ⟨by
    simp only [State.take, State.take_reset h]
    simp [State.seqTuned, h, Sequencer.reset, Ctx.reset], State.advance_reset h⟩

theorem Still.txTuneFailed {s : State} (h : s.seq = Sequencer.reset) (t : Option Nat) (l : Bool) :
    Still s (.txTuneFailed t l) :=
  ⟨by
    simp only [State.take, State.take_reset h]
    simp [h, Sequencer.reset, Ctx.reset], State.advance_reset h⟩

theorem Still.txRamped {s : State} (h : s.seq = Sequencer.reset) (a b : Nat) (c : Bool) : Still s (.txRamped a b c) :=
  ⟨by
    simp only [State.take, State.take_reset h]
    simp [State.seqRamped, h, Sequencer.reset, Ctx.reset], State.advance_reset h⟩

theorem Still.txSettled {s : State} (h : s.seq = Sequencer.reset) : Still s .txSettled :=
  ⟨by
    simp only [State.take, State.takeSettled, State.take_reset h]
    simp [State.seqSettled, Ctx.breakable, Ctx.tunesAtSettled, h, Sequencer.reset, Ctx.reset],
    State.advance_reset h⟩

theorem Still.txTrip {s : State} (h : s.seq = Sequencer.reset) (n : Nat) (a : TripAction) (k : Nat) :
    Still s (.txTrip n a k) :=
  ⟨by
    simp only [State.take, State.take_reset h]
    simp [State.seqTrip, h, Sequencer.reset, Ctx.reset], State.advance_reset h⟩

theorem Still.txTripExhausted {s : State} (h : s.seq = Sequencer.reset) (t : Option Nat) :
    Still s (.txTripExhausted t) :=
  ⟨by
    simp only [State.take, State.take_reset h]
    cases t <;> simp [State.seqGiveUp, Ctx.terminal, h, Sequencer.reset, Ctx.reset],
    State.advance_reset h⟩

theorem Still.txLinkLost {s : State} (h : s.seq = Sequencer.reset) (o : Operation) : Still s (.txLinkLost o) :=
  ⟨by
    simp only [State.take, State.take_reset h]
    simp [State.seqLinkLost, Ctx.breakable, h, Sequencer.reset, Ctx.reset],
    State.advance_reset h⟩

theorem Still.txPermitLost {s : State} (h : s.seq = Sequencer.reset) (c : PermitCause) : Still s (.txPermitLost c) :=
  ⟨by
    simp only [State.take, State.take_reset h]
    simp [State.seqBreak, Ctx.breakable, h, Sequencer.reset, Ctx.reset],
    State.advance_reset h⟩

theorem Still.pwAdmitted {s : State} (h : s.seq = Sequencer.reset) (a b c : Nat) : Still s (.pwAdmitted a b c) :=
  ⟨by simp [State.take, State.seqAdmitted, h, Sequencer.reset, Ctx.reset], State.advance_reset h⟩

theorem Still.booked {s : State} (h : s.seq = Sequencer.reset) (k : OccKey) (t i : Nat) (w : HowTaken) (b : Bool) :
    Still s (.booked k t i w b) :=
  ⟨by simp [State.take, State.seqBooked, State.endOn, Ctx.key, h, Sequencer.reset, Ctx.reset], State.advance_reset h⟩

theorem Still.expired {s : State} (h : s.seq = Sequencer.reset) (k : OccKey) : Still s (.expired k) :=
  ⟨by simp [State.take, State.seqExpired, State.endOn, Ctx.key, h, Sequencer.reset, Ctx.reset], State.advance_reset h⟩

theorem Still.lostBooking {s : State} (h : s.seq = Sequencer.reset) (t : Nat) (k : OccKey) (c : LostCause) :
    Still s (.lostBooking t k c) :=
  ⟨by simp [State.take, State.seqLost, Ctx.key, h, Sequencer.reset, Ctx.reset], State.advance_reset h⟩

theorem Still.mxJammed {s : State} (h : s.seq = Sequencer.reset) (hm : s.mat.releaseMark = none) (t : Nat)
    (d : Direction) : Still s (.mxJammed t d) :=
  ⟨by simp [State.take, State.seqJammed, State.releaseAt, State.switchingOn, State.closeAgain, Ctx.terminal, hm, h,
        Sequencer.reset, Ctx.reset], State.advance_reset h⟩

/-! ## Re-evaluations, entries and the own holding -/

theorem Still.reevaluate {s : State} (h : s.seq = Sequencer.reset) (b k : Bool) : Still s (.reevaluate b k) :=
  ⟨by simp [State.take, State.reevaluate, h, Sequencer.reset], State.advance_reset h⟩

theorem Still.storeNotice {s : State} (h : s.seq = Sequencer.reset) (n : StoreNotice) : Still s (.storeNotice n) :=
  ⟨by simp [State.take, State.reevaluate, h, Sequencer.reset], State.advance_reset h⟩

theorem Still.entered {s : State} (h : s.seq = Sequencer.reset) (hm : s.mat.active = none) (t : Nat) :
    Still s (.entered t) :=
  ⟨by simp [State.take, State.matrixEntered, hm], State.advance_reset h⟩

theorem Still.heldChanged {s : State} (h : s.seq = Sequencer.reset) (hp : s.link.permit = false) :
    Still s .heldChanged :=
  ⟨by simp [State.take, State.permitHeld, State.permitLost, hp], State.advance_reset h⟩

theorem Still.suspectEnd {s : State} (h : s.seq = Sequencer.reset) (hr : s.psu.request = none) (t : Nat) :
    Still s (.suspect t false) :=
  ⟨by
    have e : ∀ c : Ctx, c = Ctx.reset → c.capAt (some t) false = c := by
      intro c hc; subst hc; simp [Ctx.capAt, Ctx.reset]
    have e1 : ({ s.seq with cur := s.seq.cur.capAt (some t) false, nxt := s.seq.nxt.capAt (some t) false } : Sequencer)
        = s.seq := by
      rw [e s.seq.cur (by rw [h]; exact Eq.refl _), e s.seq.nxt (by rw [h]; exact Eq.refl _)]
    simp only [State.take, State.takeSuspect, State.powerSuspect, State.linkSuspect, State.seqSuspect, hr]
    cases hl : s.link.ramp <;> simp [e1, hl], State.advance_reset h⟩

end Sys2Proof.Machine
end

