-- ==== Sys2Proof/Tests/Slice0.lean ====
section
/-! SUPPORT. Tests: what WellFormed refuses, a witness for the hypotheses of each statement (`witness_<statement>`, one
for each clause, at boundary values), and small tests of commands (`test_<command>_<what>`) whose expected values are
worked out from the rule that each names. -/

namespace Sys2Proof.Tests

set_option Elab.async false

open Sys2Proof.Machine

/-! ## WellFormed refuses what cannot happen -/

def frame (sender cls start : Nat) (payload : List Byte) : RxFrame :=
  { start := start, cls := BitVec.ofNat 2 cls, sender := BitVec.ofNat 5 sender, payload := payload }

def noContacts : Contacts := { openMade := 0, closedMade := 0, senseMade := 0 }

def record (terminal : Nat) : RawReach :=
  { terminal := BitVec.ofNat 8 terminal, kind := 0, low := 2300, high := 26100, rating := 500, dedicated := 0 }

def unsummed (station records : Nat) : RawImage :=
  { station := BitVec.ofNat 8 station, rating := 500, fmin := 2300, fmax := 26100, standby := 20, efficiency := 60,
    limit := 2000, reserve := 100, lead := 120, tune := 90, reachCount := 2,
    reach := record 3 :: List.replicate (records - 1) (record 7), sum := 0 }

/-- An image with its sum (R191). -/
def image (station : Nat) : RawImage :=
  { unsummed station 40 with sum := crc16 (imageBytes (unsummed station 40)) }

/-- R41: a payload has at most 16 bytes. -/
theorem test_wf_payload : (Instr.freeReceived 9 (frame 4 0 9 (List.replicate 17 0))).wellFormed = false := by decide
/-- R57: a frame's start does not follow its end. -/
theorem test_wf_start : (Instr.freeReceived 9 (frame 4 0 10 [3])).wellFormed = false := by decide
/-- Section 11.5: the image has 40 reach records. -/
theorem test_wf_image : (Instr.handOver 9 (some (unsummed 5 39)) noContacts).wellFormed = false := by decide
/-- R140: a REPORT sums to 0 modulo 256. -/
theorem test_wf_sum : (Instr.reportReceived 9 [8, 0, 0, 0, 0, 0]).wellFormed = false := by decide
/-- R140: a REPORT has six bytes. -/
theorem test_wf_length : (Instr.reportReceived 9 [8, 0, 0, 0, 248]).wellFormed = false := by decide
/-- R140: a REPORT has kind 8. -/
theorem test_wf_kind : (Instr.reportReceived 9 [7, 0, 0, 0, 0, 249]).wellFormed = false := by decide
/-- R140: flag bits 7 to 4 of a REPORT are 0. -/
theorem test_wf_flags : (Instr.reportReceived 9 [8, 16, 0, 0, 0, 232]).wellFormed = false := by decide
/-- R140: a valid REPORT is not discarded. -/
theorem test_wf_discarded : (Instr.txRecordDiscarded 9 [8, 0, 0, 0, 0, 248]).wellFormed = false := by decide
/-- What can happen is well formed. -/
theorem test_wf_good :
    (Instr.freeReceived 9 (frame 4 0 9 [3])).wellFormed = true
      ∧ (Instr.handOver 9 (some (unsummed 5 40)) noContacts).wellFormed = true
      ∧ (Instr.reportReceived 9 [8, 0, 0, 0, 0, 248]).wellFormed = true := by decide

/-- No row of the table has bits, so that no word spells a command. -/
theorem test_no_word : decodeTableWord 8 0 = none := by decide

/-! ## States -/

/-- The state after a command. -/
def after (c : Instr) (s : State) : State :=
  match exec c s with
  | .next t => t
  | .fault _ => s
  | .refused _ => s

def row (n : Nat) (slots : List Booking) : TermRow :=
  { number := n, load := false, low := 2300, high := 26100, rating := 500, dedicated := 0, suspect := none, occRun := 0,
    freeRun := 0, slots := slots }

def point (n : Nat) (p : Position) : XRow :=
  { terminal := n, pos := some p, sense := some .free, drive := .idle, recovery := false, failed := .close }

/-- Station 5, joined, with the terminals 3 and 7, both open, at local time 100 s. -/
def base : State :=
  { State.reset with
    now := 100000, image := some .accepted,
    cfg :=
      { station := 5, rating := 500, fmin := 2300, fmax := 26100, standby := 20, efficiency := 60, limit := 2000,
        reserve := 100, lead := 120, tune := 90 },
    pres := { Presence.reset with join := .joined, silence := some 110000, noticeTimer := some 98000 },
    map := [row 3 [], row 7 []],
    mat := { Matrix.reset with rows := [point 3 .opened, point 7 .opened], scanFrom := some 50000 },
    link := { Link.reset with state := .up, lossDeadline := some 103000 },
    psu := { Power.reset with announced := 20, ceiling := 20 } }

def asking (p : List Byte) (s : State) : State := { s with req := { queue := [p], serving := false } }

/-- The clock stands at 2026-01-05 (a Monday) 10:00:00 at local time 100 s. -/
def clocked (s : State) : State :=
  { s with
    clock :=
      { state := .locked, refUtc := some (utcSecondOf 2026 1 5 10 0 0), refLocal := some 100000,
        lastTime := some 100000, lastMinute := some (instantOf 2026 1 5 599) } }

theorem unarmed (s : State)
    (h : (s.handed, s.seq, s.claim, s.psu.phase, s.psu.pendingLower, s.psu.releasePending)
      = ([], Sequencer.reset, Claim.reset, PowerPhase.none, none, false)) : s.Unarmed := by
  simp only [Prod.mk.injEq] at h
  exact { handed := h.1, seq := h.2.1, claim := h.2.2.1, power := h.2.2.2.1, lower := h.2.2.2.2.1, carry := h.2.2.2.2.2 }

theorem calm (s : State)
    (h : s.handed = [] ∧ s.seq.ending = none ∧ s.seq.cur.release = none ∧ s.seq.cur.state ≠ .awaitTerminal
      ∧ s.seq.nxt.deferred = false) :
    s.Calm := { handed := h.1, ending := h.2.1, release := h.2.2.1, await := h.2.2.2.1, search := h.2.2.2.2 }

/-- An armed sequencer that holds nothing, with nothing current and nothing next. -/
theorem content_idle (s : State)
    (h : (s.handed = [] ∧ s.seq.ending = none ∧ s.seq.cur.release = none ∧ s.seq.cur.state ≠ .awaitTerminal
        ∧ s.seq.nxt.deferred = false)
      ∧ s.seq.armed = true ∧ s.seq.foundOffer = false ∧ s.seq.cur.occ = none
      ∧ s.currentEntry.map (·.key) = s.seq.cur.spent ∧ s.nextEntry.map (·.key) = none ∧ s.seq.nxt.occ = none) :
    s.Content where
  calm := calm s h.1
  unarmed := fun e => by rw [h.2.1] at e; cases e
  found := fun _ => h.2.2.1
  current := fun _ _ => by unfold State.CurrentStands; simp only [h.2.2.2.1]; exact h.2.2.2.2.1
  next := fun _ => by unfold State.NextStands; rw [h.2.2.2.2.2.1]; simp [h.2.2.2.2.2.2]

/-- An armed sequencer that runs what is current, with nothing next. -/
theorem content_running (s : State) (o : Occurrence)
    (h : (s.handed = [] ∧ s.seq.ending = none ∧ s.seq.cur.release = none ∧ s.seq.cur.state ≠ .awaitTerminal
        ∧ s.seq.nxt.deferred = false)
      ∧ s.seq.armed = true ∧ s.seq.foundOffer = false ∧ s.seq.cur.occ = some o
      ∧ (s.currentEntry.map (·.key) = some o.key ∧ s.seq.cur.running = true)
      ∧ s.nextEntry.map (·.key) = none ∧ s.seq.nxt.occ = none) :
    s.Content where
  calm := calm s h.1
  unarmed := fun e => by rw [h.2.1] at e; cases e
  found := fun _ => h.2.2.1
  current := fun _ _ => by unfold State.CurrentStands; simp only [h.2.2.2.1]; exact Or.inl h.2.2.2.2.1
  next := fun _ => by unfold State.NextStands; rw [h.2.2.2.2.2.1]; simp [h.2.2.2.2.2.2]

theorem handled (s : State) (k : RxKind) (f : RxFrame)
    (h : f.payload.length = k.length ∧ passesChecks k f = true ∧ f.sender.toNat ≠ s.cfg.station
      ∧ s.image = some .accepted ∧ s.pres.join ≠ .disabled) : Handled s k f :=
  { length := h.1, checks := h.2.1, other := h.2.2.1, image := h.2.2.2.1, join := h.2.2.2.2 }

def heard (owner : Nat) (st : BookState) (since : Int) (till : Option Int) (at_ : Nat) : Booking :=
  { owner := owner, state := st, cls := 2, since := since, till := till, source := .heard, heard := some at_,
    found := false }

def own (st : BookState) (cls : Nat) (since : Int) (till : Option Int) : Booking :=
  { owner := 5, state := st, cls := cls, since := since, till := till, source := .own, heard := none, found := false }

def prog : Prog :=
  { start := 600, stop := 660, freq := 6000, mode := .am, carrier := 250, cls := 1, programme := 4, cands := [3, 7] }

def occ : Occurrence := { source := .bank .a 1, number := 1, prog := prog, start := 1000, stop := 1060 }

/-- An occurrence that runs while `occ` is prepared. -/
def before : Occurrence := { occ with source := .extra 2, number := 9, start := 900 }

/-- `occ` with one candidate. -/
def alone : Occurrence := { occ with prog := { prog with cands := [3] } }

def armed (cur nxt : Ctx) : Sequencer := { Sequencer.reset with armed := true, joinedOnce := true, cur := cur, nxt := nxt }

def onTerminal (t : Nat) : Taken := { terminal := t, how := .claimed, suspect := false }

/-- A context that runs an occurrence on a terminal. -/
def runs (o : Occurrence) (st : SeqState) (t : Nat) : Ctx :=
  { Ctx.reset with
    occ := some o, state := st, taken := some (onTerminal t), running := true, furthest := some st,
    lastTerm := some t }

/-- `before` is on the air on terminal 7, and `occ` is searched for. -/
def preparing : Sequencer :=
  armed { runs before .onAir 7 with onAir := some 0, admitted := some 100 }
    { Ctx.reset with occ := some occ, state := .claiming, furthest := some .claiming }

/-- An armed station with nothing current. -/
def idle : State := { clocked base with seq := armed Ctx.reset Ctx.reset }

/-- A station that runs entry 1 of its LIVE bank A, 10:00 to 11:00 on every day, on terminal 3. -/
def running : State :=
  { clocked base with
    store := { base.store with
      bankA := { BankData.reset with state := .live, entries := [{ number := 1, days := 127, prog := prog }] } },
    seq := armed
      (runs { occ with start := instantOf 2026 1 5 600, stop := instantOf 2026 1 5 660 } .claiming 3) Ctx.reset }

theorem running_content : running.Content :=
  content_running _ { occ with start := instantOf 2026 1 5 600, stop := instantOf 2026 1 5 660 } (by decide +kernel)

/-! ## The step, reset and start-up -/

theorem witness_IdleStepIsOneMillisecond : base.pending = [] := by decide

/-- R25: local time counts milliseconds; a command in front is taken and leaves the queue. -/
theorem test_step :
    step base = .next base.tick ∧ base.tick.now = 100001
      ∧ (step { base with pending := [.frameCrcBad 5, .reset] } = .next { base.atTime 5 with pending := [.reset] }) :=
  ⟨rfl, by decide, rfl⟩

/-- R68: a step that finds NOTICE due queues it. -/
theorem test_idle_notice : (base.tick).pending = [.noticePeriod 100001] := by decide +kernel

theorem witness_ConfigurationIsSettledAtTheHandOver :
    exec (.frameCrcBad 5) base = .next (base.atTime 5) ∧ Instr.frameCrcBad 5 ≠ .reset
      ∧ ∀ u i k, Instr.frameCrcBad 5 ≠ .handOver u i k := by
  exact ⟨rfl, by decide, fun _ _ _ h => Instr.noConfusion h⟩

/-- R17, R15: a reset ends a serial-memory write in an unknown condition and leaves the clock UNSET. -/
theorem test_reset :
    let s := { base with serial := { base.serial with
      writes := [{ what := .header .a (base.store.bankA.header .a), reply := none }] } }
    (after .reset s).serial.bankA.header.intact = false ∧ (after .reset s).serial.writes = []
      ∧ (after .reset s).now = 0 ∧ (after .reset s).pres.join = .listening := by decide +kernel

theorem witness_RejectedImageDisablesTheStation :
    State.reset.Unarmed ∧ State.reset.image = none ∧ State.reset.pres.join = .listening
      ∧ State.reset.log.ring.length ≤ 62 ∧ imageResult none ≠ .accepted ∧ imageResult (some (image 31)) = .station := by
  refine ⟨unarmed _ rfl, ?_⟩; decide +kernel

theorem witness_AcceptedImageIsTakenIntoForce :
    State.reset.Unarmed ∧ State.reset.image = none ∧ imageResult (some (image 30)) = .accepted
      ∧ State.reset.log.ring.length ≤ 60 := by
  refine ⟨unarmed _ rfl, ?_⟩; decide +kernel

/-- R192, R16, R134: an accepted hand-over writes START and JOIN around the BANKLOST records of a memory that was never
written; a crosspoint found CLOSED is held. -/
theorem test_handOver :
    let u := after (.handOver 50 (some (image 5)) { openMade := 128, closedMade := 8, senseMade := 8 }) State.reset
    u.log.ring.map (·.body) = [.start .accepted 5 2 0, .bankLost .a 1 none, .bankLost .b 1 none, .join .listening .listening .start]
      ∧ (ownHeld u.map).map (·.1) = some 3 ∧ u.mat.posOf 7 = some .opened := by decide +kernel

/-- An image with a reserve above the limit, a lead of 0, terminal 3 named again for a carrier rating of 0, and terminal 7
dedicated to station 9. -/
def outOfRange : RawImage :=
  let r := { unsummed 5 40 with
    reserve := 3000, lead := 0, reachCount := 3,
    reach := record 3 :: { record 7 with dedicated := 9 } :: List.replicate 38 { record 3 with rating := 0 } }
  { r with sum := crc16 (imageBytes r) }

/-- R191, R93, R134: the reserve comes down to the limit, a lead of 0 is 120 s, the rating is clamped and its record then
dropped: three values counted. Both crosspoints are found CLOSED: 3 is HELD and bears the release mark. -/
theorem test_handOver_settled :
    let u := after (.handOver 50 (some outOfRange) { openMade := 0, closedMade := 136, senseMade := 136 }) State.reset
    u.cfg.reserve = 2000 ∧ u.cfg.lead = 120
      ∧ (u.map.map fun r => (r.number, r.slots.map fun b => (b.owner, b.state))) = [(3, [(5, .held)]), (7, [(9, .dedicated)])]
      ∧ u.mat.releaseMark = some 3 ∧ (u.log.ring.map (·.body)).head? = some (.start .accepted 5 2 3) := by decide +kernel

/-- R192, R62: a rejected hand-over ends in DISABLED; START has sequence number 0 even after a clock setting. -/
theorem test_handOver_rejected :
    let u := after (.handOver 50 none noContacts) (State.reset.writeLogAt 5 false (.timeStep false 0 0))
    u.pres.join = .disabled ∧ u.log.ring.map (·.seq) = [0, 1, 2]
      ∧ u.log.ring.map (·.body)
        = [.start .sum 0 0 0, .timeStep false 0 0, .join .disabled .listening .config] := by decide +kernel

/-! ## Schedule requests -/

def openA : List Byte := [40, 0] ++ List.replicate 14 0

def putA : List Byte := [41, 0, 127, 127, 4, 2, 88, 2, 148, 23, 112, 16, 250, 3, 7, 255]

def loading : State :=
  { base with store := { base.store with bankA := { state := .loading, label := 0, instant := none, entries := [] } } }

theorem witness_BankOpenTakesABankNotInUse :
    base.handed = [] ∧ base.pres.join ≠ .disabled
      ∧ (asking openA base).req = { queue := openA :: [], serving := false } ∧ requestKind openA = 0
      ∧ bankOfCode (byteAt openA 2) = some .a ∧ base.store.bankA.state = .empty
      ∧ loading.store.bankA.state = .loading := by decide

theorem witness_BankOpenTakesABankNotInUse_ready :
    let s := { running with store := { running.store with bankB := { BankData.reset with state := .ready } } }
    (s.store.bank .b).state = .ready
      ∧ State.Content { s.atTime 0 with
          store := s.store.setBank .b { state := .loading, label := 0, instant := none, entries := [] } } :=
  ⟨by decide, content_running _ { occ with start := instantOf 2026 1 5 600, stop := instantOf 2026 1 5 660 }
    (by decide +kernel)⟩

/-- A request of a kind whose bank field is 2. -/
def badBank (kind : Nat) : List Byte := [BitVec.ofNat 8 (40 + kind), 2] ++ List.replicate 14 0

theorem witness_BankOpenTakesABankNotInUse_range :
    1 < byteAt (badBank 0) 2 ∧ requestKind (badBank 0) = 0 ∧ 1 < byteAt (badBank 1) 2 ∧ requestKind (badBank 1) = 1
      ∧ 1 < byteAt (badBank 2) 2 ∧ requestKind (badBank 2) = 2 ∧ bankOfCode (byteAt (badBank 5) 2) = none := by decide

/-- R9 to R11, R14, R48: a bank field above 1 is RANGE (2), with the field bank (1). -/
theorem test_badBank :
    (after (.bankOpen 0) (asking (badBank 0) base)).bus.reply = some { kind := 0, code := .range, data := [1, 0] }
      ∧ (after (.entryPut 0) (asking (badBank 1) base)).bus.reply = some { kind := 1, code := .range, data := [1, 0] }
      ∧ (after (.bankClose 0) (asking (badBank 2) base)).bus.reply = some { kind := 2, code := .range, data := [1, 0] }
      ∧ (after (.entryGet 0) (asking (badBank 5) base)).bus.reply = some { kind := 5, code := .range, data := [1, 0] } := by
  decide +kernel

/-- R9: the bank is LOADING and DONE waits on the write of its header. -/
theorem test_bankOpen :
    let u := after (.bankOpen 0) (asking openA base)
    u.store.bankA.state = .loading ∧ u.bus.reply = none ∧ u.serial.writes.length = 1 := by decide +kernel

theorem witness_EntryPutStoresACheckedRecord :
    (asking putA loading).req = { queue := putA :: [], serving := false } ∧ requestKind putA = 1
      ∧ bankOfCode (byteAt putA 2) = some .a ∧ (loading.store.bank .a).state = .loading
      ∧ entryFail loading.cfg loading.map (byteAt putA 3) (byteAt putA 4) (rawProgAt putA) = none
      ∧ modeOfCode (rawProgAt putA).mode = some .am
      ∧ firstOverlap { number := 127, days := 127, prog := (rawProgAt putA).toProg .am } [] = none
      ∧ firstOverlap { number := 127, days := 127, prog := (rawProgAt putA).toProg .am }
          [{ number := 1, days := 64, prog := prog }] = some 1
      ∧ entryFail base.cfg base.map 128 1 (rawProgAt putA) = some (.number, 0)
      ∧ (base.store.bank .a).state ≠ .loading := by decide +kernel

/-- R10: the record is held under its number with the fields of R48. -/
theorem test_entryPut :
    ((after (.entryPut 0) (asking putA loading)).store.bankA.entries)
      = [{ number := 127, days := 127,
           prog := { start := 600, stop := 660, freq := 6000, mode := .am, carrier := 250, cls := 1, programme := 4,
                     cands := [3, 7] } }] := by decide +kernel

/-- Count 0, label 255, instant 2026-01-31 23:59 (R11). -/
def closeA (count : Nat) : List Byte := [42, 0, BitVec.ofNat 8 count, 255, 26, 1, 31, 5, 159] ++ List.replicate 7 0

theorem witness_BankCloseMakesTheBankReady :
    State.Content { State.atTime { idle with store := loading.store } 0 with
        store := loading.store.setBank .a { loading.store.bank .a with
          state := .ready, label := 255, instant := some (instantOf 2026 1 31 1439) } }
      ∧ loading.pres.join ≠ .disabled ∧ requestKind (closeA 0) = 2
      ∧ bankOfCode (byteAt (closeA 0) 2) = some .a ∧ (loading.store.bank .a).state = .loading
      ∧ closeFail loading.store .a (closeA 0) = none ∧ byteAt (closeA 0) 3 = (loading.store.bank .a).entries.length
      ∧ closeFail loading.store .a (closeA 128) = none
      ∧ byteAt (closeA 128) 3 ≠ (loading.store.bank .a).entries.length
      ∧ closeFail loading.store .a (closeA 129) = some (.count, 0) ∧ (base.store.bank .a).state ≠ .loading := by
  refine ⟨content_idle _ (by decide +kernel), ?_⟩; decide +kernel

/-- R11: a count above 128 is refused RANGE (2), with the field count (14). -/
theorem test_bankClose :
    (after (.bankClose 0) (asking (closeA 0) loading)).store.bankA.state = .ready
      ∧ (after (.bankClose 0) (asking (closeA 129) loading)).bus.reply
        = some { kind := 2, code := .range, data := [14, 0] } := by decide +kernel

/-- Slot 7, extra 127 on 2026-01-31 (R48). -/
def putX : List Byte := [43, 255, 127, 26, 16, 2, 88, 2, 148, 23, 112, 16, 250, 3, 7, 255]

def extraX : List Byte := [43, 255, 127, 26, 20, 2, 88, 2, 148, 23, 112, 16, 250, 3, 7, 255]

theorem witness_ExtraPutStoresTheExtra :
    (asking putX idle).handed = [] ∧ idle.pres.join ≠ .disabled ∧ requestKind putX = 3
      ∧ (idle.atTime 0).instant = some (instantOf 2026 1 5 600)
      ∧ (modeOfCode (rawProgAt putX).mode).getD .am = .am
      ∧ extraFail base.cfg base.map (instantOf 2026 1 5 600) (extraOf putX .am) (rawProgAt putX) = none
      ∧ firstExtraOverlap (byteAt putX 2 / 32) (extraOf putX .am) base.store.extras = none
      ∧ byteAt putX 2 / 32 = 7 ∧ base.clock.state = .unset := by decide +kernel

/-- The extra of `putX` stands in slot 7, or in slot 6, of an armed station. -/
def withExtra (slot : Nat) : State :=
  { idle with store := { idle.store with extras := idle.store.extras.set slot (some (extraOf putX .am)) } }

theorem witness_ExtraPutStoresTheExtra_held :
    ((withExtra 7).store.extras.getD 7 none).isSome = true
      ∧ State.Content { (withExtra 7).atTime 0 with
          store := { (withExtra 7).store with extras := (withExtra 7).store.extras.set 7 none } }
      ∧ State.Content { (withExtra 7).atTime 0 with
          store := { (withExtra 7).store with
            extras := (withExtra 7).store.extras.set 7 (some (extraOf putX .am)) } }
      ∧ firstExtraOverlap 7 (extraOf putX .am) (withExtra 6).store.extras = some 6
      ∧ extraFail base.cfg base.map (instantOf 2026 2 5 600) (extraOf putX .am) (rawProgAt putX) = some (.stop, 0) := by
  refine ⟨by decide, content_idle _ (by decide +kernel), content_idle _ (by decide +kernel), ?_⟩; decide +kernel

/-- R12: an extra that overlaps another slot's is OVERLAP (3) with that slot; one that is over is RANGE, the field stop. -/
theorem test_extraPut_refused :
    (after (.extraPut 0) (asking putX (withExtra 6))).bus.reply = some { kind := 3, code := .overlap, data := [6] }
      ∧ (after (.extraPut 2678400000) (asking putX idle)).bus.reply
        = some { kind := 3, code := .range, data := [5, 0] } := by decide +kernel

/-- R12: the extra of 31 January takes slot 7 and DONE names the slot. -/
theorem test_extraPut :
    let u := after (.extraPut 0) (asking putX (clocked base))
    ((u.store.extras.getD 7 none).map fun x => (x.number, x.year, x.month, x.day)) = some (127, 2026, 1, 31)
      ∧ u.bus.reply = some { kind := 3, code := .done, data := [7] } := by decide +kernel

def dropX (slot : Nat) : List Byte := [44, BitVec.ofNat 8 slot] ++ List.replicate 14 0

theorem witness_ExtraDropEmptiesTheSlot :
    (asking (dropX 7) (withExtra 7)).handed = [] ∧ (withExtra 7).pres.join ≠ .disabled ∧ requestKind (dropX 7) = 4
      ∧ ((withExtra 7).store.extras.getD (byteAt (dropX 7) 2) none).isSome = true
      ∧ State.Content { (withExtra 7).atTime 0 with
          store := { (withExtra 7).store with extras := (withExtra 7).store.extras.set 7 none } }
      ∧ (base.store.extras.getD (byteAt (dropX 7) 2) none).isSome = false ∧ ¬ byteAt (dropX 8) 2 ≤ 7 := by
  refine ⟨by decide, by decide, by decide, by decide, content_idle _ (by decide +kernel), ?_⟩; decide

/-- R13: an empty slot is GONE; a slot above 7 is RANGE, the field slot (12). -/
theorem test_extraDrop :
    (after (.extraDrop 0) (asking (dropX 7) base)).bus.reply = some { kind := 4, code := .gone, data := [] }
      ∧ (after (.extraDrop 0) (asking (dropX 7) (withExtra 7))).bus.reply
        = some { kind := 4, code := .done, data := [7] }
      ∧ (after (.extraDrop 0) (asking (dropX 8) base)).bus.reply = some { kind := 4, code := .range, data := [12, 0] } := by
  decide +kernel

def getA (number : Nat) : List Byte := [45, 0, BitVec.ofNat 8 number] ++ List.replicate 13 0

theorem witness_EntryGetReadsTheBank :
    base.handed = [] ∧ base.pres.join ≠ .disabled
      ∧ (asking (getA 127) base).req = { queue := getA 127 :: [], serving := false } ∧ requestKind (getA 127) = 5
      ∧ bankOfCode (byteAt (getA 128) 2) = some .a := by decide

/-- R14, R48: the record put is read back as bytes 2 to 16 of its ENTRY-PUT. -/
theorem test_entryGet :
    let u := after (.entryPut 0) (asking putA loading)
    (after (.entryGet 0) (asking (getA 127) u)).bus.reply = some { kind := 5, code := .done, data := putA.drop 1 } := by
  decide +kernel

def logged : State := { base with log := base.log.write 100 true (.duplicate 5 .joined) }

theorem witness_LogGetReadsTheRing :
    logged.handed = [] ∧ logged.pres.join ≠ .disabled ∧ logged.log.Numbered
      ∧ requestKind ([46] ++ List.replicate 15 (0 : Byte)) = 6 := by
  refine ⟨by decide, by decide, ⟨by decide, ?_⟩, by decide⟩
  decide

/-- R185: a number that the ring does not hold is GONE. -/
theorem test_logGet :
    ((after (.logGet 0) (asking [46, 0, 0] logged)).bus.reply.map (·.code)) = some .done
      ∧ ((after (.logGet 0) (asking [46, 0, 1] logged)).bus.reply.map (·.code)) = some .gone := by decide +kernel

theorem witness_StatusGetAnswersTheHeldValues :
    base.handed = [] ∧ (asking [47] base).req = { queue := [47] :: [], serving := false } ∧ requestKind [47] = 7 := by
  decide

theorem witness_StatusGetAnswersTheHeldValues_source :
    running.seq.cur.occ.map (·.source) = some (.bank .a 1) ∧ preparing.cur.occ.map (·.source) = some (.extra 2)
      ∧ base.seq.cur.occ.map (·.source) = none := by decide

/-- R188, R48: JOINED is 3, the clock LOCKED 1, CLAIMING 1, bank A 1, entry 1, no held terminal 255, 20 kW announced, bank
A LIVE 3. -/
theorem test_statusGet :
    ((after (.statusGet 0) (asking [47] running)).bus.reply.map (·.data))
      = some [3, 1, 1, 1, 1, 255, 0, 20, 48, 0] := by decide +kernel

def writing : State := after (.bankOpen 0) (asking openA base)

def writingSlot : State := after (.entryPut 0) (asking putA loading)

theorem witness_WriteEndPlacesTheReply :
    (writing.handed = [] ∧ writing.serial.writes.length = 1)
      ∧ writingSlot.handed = [] ∧ writingSlot.serial.writes.length = 1 := by decide +kernel

/-- R9, R15: DONE with the state LOADING (1) is answered when the write has ended. -/
theorem test_serialMemoryWriteEnd :
    (after (.serialMemoryWriteEnd 0 true) writing).bus.reply = some { kind := 0, code := .done, data := [1] }
      ∧ (after (.serialMemoryWriteEnd 0 true) writing).serial.bankA.header.state = .loading := by decide +kernel

/-! ## The own frames on the bus -/

def learning (s : State) : State := { s with pres := { s.pres with join := .learning } }

/-- A CLAIM of class 1 and a FREE wait in their slots. -/
def waiting : State :=
  { base with
    bus := { base.bus with
      free := some { terminal := 7, cls := 3 }, freeCount := 15,
      claim := some { terminal := 3, cls := 1, since := 160, till := 220 } } }

theorem witness_LowestEligibleFrameIsOffered :
    (waiting.handed = [] ∧ waiting.bus.attempt = none
        ∧ ∃ o ∈ waiting.bus.offers waiting.cfg.station, eligible waiting.pres.join o.2 = true)
      ∧ base.handed = [] ∧ base.bus.attempt = none
      ∧ ∀ o ∈ base.bus.offers base.cfg.station, eligible base.pres.join o.2 = false := by decide

/-- R42, R49: the FREE (kind 1, class 3, station 5) goes before the CLAIM; R48: it carries its terminal. -/
theorem test_busIdleOffer :
    ((after (.busIdleOffer 0) waiting).bus.attempt.map fun a => (a.holder, a.ident, a.bytes))
      = some (.free, 1 * 128 + 3 * 32 + 5, [7]) := by decide +kernel

/-- R48, R39: a CLAIM carries starts-in 60 and lasts 60 at local second 100. -/
theorem test_busIdleOffer_claim :
    ((after (.busIdleOffer 0) { waiting with bus := { waiting.bus with free := none } }).bus.attempt.map fun a =>
      (a.ident, a.bytes)) = some (2 * 128 + 1 * 32 + 5, [3, 1, 0, 60, 0, 60]) := by decide +kernel

def sending : State := after (.busIdleOffer 0) waiting

def fifteen : Attempt := sending.bus.attempt.getD
  { holder := .reply, ident := 0, bytes := [], crc := 0, start := 0, startsIn := 0, leftJoined := false,
    superseded := false, removed := false }

theorem plain (b : Bus) (a : Attempt)
    (h : b.attempt = some a ∧ a.removed = false ∧ (a.holder = .deny ∨ a.holder = .free ∨ a.holder = .notice
      ∨ a.holder = .fault ∨ a.holder = .logrec)) : b.PlainAttempt a :=
  { attempt := h.1, stays := h.2.1, holder := h.2.2 }

theorem witness_AttemptEndsMoveTheFrame :
    sending.handed = [] ∧ sending.bus.PlainAttempt fifteen
      ∧ sending.bus.count fifteen.holder + 1 = 16 ∧ sending.bus.drops < 2 :=
  ⟨by decide +kernel, plain _ _ (by decide +kernel), by decide +kernel, by decide +kernel⟩

def early : State := { sending with bus := { sending.bus with freeCount := 14 } }

theorem witness_AttemptEndsMoveTheFrame_below :
    early.bus.PlainAttempt fifteen ∧ early.bus.count fifteen.holder + 1 < 16 := by
  exact ⟨plain _ _ (by decide +kernel), by decide +kernel⟩

/-- A NOTICE is tried and a newer one, of 40 kW, waits. -/
def noticing : State :=
  let s := after (.noticePeriod 0) base
  let u := after (.busIdleOffer 0) s
  { u with bus := u.bus.placeNotice { s.buildNotice with demand := 40 } }

theorem witness_AttemptEndsMoveTheFrame_newer :
    ∃ a, noticing.bus.PlainAttempt a ∧ a.holder = .notice ∧ noticing.bus.noticeNext.isSome = true := by
  exact ⟨noticing.bus.attempt.getD fifteen, ⟨rfl, by decide +kernel, by decide +kernel⟩, by decide +kernel⟩

/-- R50: the newer NOTICE takes the slot, whatever becomes of the one tried. -/
theorem test_newerNotice :
    ((after (.arbitrationLost 0) noticing).bus.notice.map (·.demand)) = some 40
      ∧ ((after (.attemptSucceeded 0) noticing).bus.notice.map (·.demand)) = some 40
      ∧ ((after (.attemptFailed 0) noticing).bus.notice.map (·.demand)) = some 40
      ∧ (after (.attemptFailed 0) noticing).bus.noticeCount = 1 ∧ (after (.attemptFailed 0) noticing).bus.noticeNext = none := by
  decide +kernel

/-- R43: the frame stands. R45: it leaves when sent, and when its sixteenth attempt fails. -/
theorem test_attempts :
    (after (.arbitrationLost 0) sending).bus.free = waiting.bus.free
      ∧ (after (.attemptSucceeded 0) sending).bus.free = none
      ∧ (after (.attemptFailed 0) sending).bus.free = none ∧ (after (.attemptFailed 0) sending).bus.drops = 1
      ∧ (after (.attemptFailed 0) early).bus.freeCount = 15 := by decide +kernel

/-- Station 5 prepares `occ`; its CLAIM of terminal 3 is tried for the sixteenth time. -/
def claimTried : State :=
  let s := { waiting with
    bus := { waiting.bus with free := none, claimCount := 15 }, seq := preparing,
    claim := { Claim.reset with
      phase := .placed, occ := some occ, since := 160, till := 220, marks := [.opened, .opened], index := 1,
      terminal := some 3 } }
  after (.busIdleOffer 0) s

/-- Its INTENT of the full step is tried for the sixteenth time, with the occurrence ADMITTING. -/
def intentTried : State :=
  let f : IntentFrame := { intended := 645, current := 20, cls := 1, withdrawal := false }
  let s := { base with
    bus := { base.bus with intent := some f, intentCount := 15 },
    seq := armed (runs occ .admitting 3) Ctx.reset,
    psu := { base.psu with
      phase := .placed, candidate := some 100,
      request := some { occ := occ.key, terminal := 3, carrier := 250, mode := .am, cls := 1 } } }
  after (.busIdleOffer 0) s

/-- Its REPLY is tried for the sixteenth time. -/
def replyTried : State :=
  let s := { running with
    bus := { running.bus with reply := some { kind := 4, code := .gone, data := [] }, replyCount := 15 },
    req := { queue := [dropX 0, openA], serving := true } }
  after (.busIdleOffer 0) s

def tried (s : State) : Attempt := s.bus.attempt.getD fifteen

theorem witness_OwnersTakeTheEndOfTheirFrames_claim :
    claimTried.Calm ∧ claimTried.bus.attempt = some (tried claimTried) ∧ (tried claimTried).removed = false
      ∧ (tried claimTried).leftJoined = false ∧ (tried claimTried).holder = .claim
      ∧ claimTried.bus.withdrawing = false ∧ claimTried.claim.phase = .placed ∧ claimTried.claim.crossing = []
      ∧ claimTried.bus.claimCount + 1 = 16 ∧ claimTried.bus.drops < 2 ∧ claimTried.claim.occ = some occ
      ∧ occ.prog.cands[claimTried.claim.index - 1]? = some 3
      ∧ claimTried.claim.marks[claimTried.claim.index - 1]? = some .opened
      ∧ isSuspect claimTried.map 3 (max claimTried.now 0 / 1000) = false ∧ (claimTried.atTime 0).usable occ 3 = true
      ∧ ownReaching claimTried.map 3 claimTried.claim.since = none
      ∧ ownDedicated claimTried.map claimTried.cfg.station 3 = false ∧ claimTried.pres.join = .joined := by
  refine ⟨calm _ (by decide +kernel), ?_⟩; decide +kernel

theorem witness_OwnersTakeTheEndOfTheirFrames_intent :
    intentTried.Calm ∧ intentTried.bus.attempt = some (tried intentTried) ∧ (tried intentTried).holder = .intent
      ∧ (tried intentTried).leftJoined = false ∧ (tried intentTried).superseded = false
      ∧ (intentTried.bus.intent.map (·.withdrawal)) = some false ∧ intentTried.bus.intentNext = none
      ∧ intentTried.psu.phase = .placed ∧ intentTried.bus.intentCount + 1 = 16 ∧ intentTried.bus.drops < 2
      ∧ intentTried.psu.request.isSome = true ∧ intentTried.psu.admitted = none ∧ intentTried.pres.join = .joined
      ∧ 100 ≤ intentTried.psu.effectiveCap
      ∧ othersCommitted intentTried.psu.table + totalDemand intentTried.cfg 250 100 .am
        ≤ intentTried.cfg.limit - intentTried.cfg.reserve := by
  refine ⟨calm _ (by decide +kernel), ?_⟩; decide +kernel

theorem witness_OwnersTakeTheEndOfTheirFrames_reply :
    replyTried.Calm ∧ (tried replyTried).removed = false ∧ (tried replyTried).holder = .reply
      ∧ replyTried.pres.join ≠ .disabled ∧ replyTried.bus.replyCount + 1 = 16 ∧ replyTried.bus.drops < 2 := by
  refine ⟨calm _ (by decide +kernel), ?_⟩; decide +kernel

/-- R109: the window is 400 ms from the notice; a dropped claim is placed again. R163: the intent window is 250 ms. R186:
the served request leaves the queue. -/
theorem test_ownersTake :
    (after (.attemptSucceeded 100010) claimTried).claim.windowEnd = some 100410
      ∧ ((after (.attemptFailed 0) claimTried).bus.claim.map (·.terminal)) = some 3
      ∧ (after (.attemptFailed 0) claimTried).bus.claimCount = 0
      ∧ (after (.attemptSucceeded 100010) intentTried).psu.windowEnd = some 100260
      ∧ ((after (.attemptFailed 0) intentTried).bus.intent.map (·.intended)) = some 645
      ∧ (after (.attemptSucceeded 0) replyTried).req = { queue := [openA], serving := false } := by decide +kernel

/-- Two frames have been dropped in a row when the FREE is tried for the sixteenth time. -/
def thirdDrop : State := { sending with bus := { sending.bus with drops := 2 }, seq := running.seq }

theorem witness_ThirdDropInARowIsolates :
    thirdDrop.Calm ∧ thirdDrop.bus.PlainAttempt fifteen ∧ thirdDrop.bus.count fifteen.holder + 1 = 16
      ∧ 2 ≤ thirdDrop.bus.drops ∧ thirdDrop.pres.join = .joined ∧ thirdDrop.claim.phase ≠ .placed
      ∧ thirdDrop.claim.phase ≠ .withdrawing ∧ thirdDrop.psu.phase ≠ .placed ∧ thirdDrop.psu.phase ≠ .wait := by
  refine ⟨calm _ (by decide +kernel), plain _ _ (by decide +kernel), ?_⟩; decide +kernel

/-- R46, R73: the third drop isolates. -/
theorem test_thirdDrop :
    (after (.attemptFailed 0) thirdDrop).pres.join = .isolated
      ∧ ((after (.attemptFailed 0) thirdDrop).log.ring.getLast?.map (·.body)) = some (.join .isolated .joined .drops) := by
  decide +kernel

/-! ## Received frames -/

theorem witness_DiscardedInputChangesNothing : base.handed = [] := by decide

theorem witness_OtherFramesAreHeardTraffic :
    base.handed = [] ∧ base.image = some .accepted ∧ (List.replicate 15 (0 : Byte)).length = 15
      ∧ base.pres.join = .joined
      ∧ ({ base with pres := { base.pres with join := .disabled } } : State).pres.join = .disabled := by decide

/-- An armed station that is ISOLATED. -/
def isolated : State :=
  { base with
    seq := preparing, pres := { base.pres with join := .isolated, silence := none }, alert := { base.alert with isolated := true } }

theorem witness_OtherFramesAreHeardTraffic_isolated :
    isolated.Calm ∧ isolated.pres.join = .isolated ∧ isolated.psu.phase ≠ .wait
      ∧ ∀ x ∈ isolated.mat.rows, x.pos = some .opened := ⟨calm _ (by decide), by decide⟩

/-- R75: a frame heard in ISOLATED brings LEARNING and clears the ALERT cause. -/
theorem test_otherFrameReceived_isolated :
    let u := after (.otherFrameReceived 101000 true (frame 4 3 100500 (List.replicate 15 0))) isolated
    u.pres.join = .learning ∧ u.pres.learning = some 109000 ∧ u.alert.isolated = false := by decide +kernel

/-- R44, R58, R140: what is discarded changes nothing. R60, R72: a LOGREC moves the silence deadline. -/
theorem test_discarded :
    after (.frameCrcBad 0) base = base ∧ after (.unknownKindFrameReceived 0 5 (frame 4 0 0 [])) base = base
      ∧ after (.txRecordDiscarded 0 [1]) base = base
      ∧ (after (.otherFrameReceived 101000 true (frame 4 3 100500 (List.replicate 15 0))) base).pres.silence
        = some 110500 := by decide +kernel

/-- Station 4 holds terminal 3 and has booked it, and a booking of station 9 stands there. -/
def known : State :=
  { base with
    map := [row 3 [heard 4 .held 90 none 99, heard 9 .booked 150 (some 200) 99, heard 4 .booked 300 (some 400) 99],
      row 7 []] }

def freeFrame : RxFrame := frame 4 2 100000 [3]

/-- The same map at a station that has been armed. -/
def knownArmed : State := { known with seq := preparing }

theorem witness_FreeRemovesTheHeardBookings :
    known.Unarmed ∧ Handled known .free freeFrame ∧ knownArmed.Calm ∧ knownArmed.pres.join ≠ .isolated
      ∧ Handled knownArmed .free freeFrame :=
  ⟨unarmed _ rfl, handled _ _ _ (by decide), calm _ (by decide), by decide, handled _ _ _ (by decide)⟩

/-- R84: both bookings of station 4 leave, that of station 9 stays. -/
theorem test_freeReceived :
    ((after (.freeReceived 100000 freeFrame) known).map.map fun r => r.slots.map (·.owner)) = [[9], []] := by
  decide +kernel

/-- Joined, 120 kW, holding terminal 7 with class 1 for 60 s more, and terminal 3 booked with class 3 in 10 s, open-ended
(R48). -/
def noticeFrame : RxFrame := frame 4 1 100000 [3, 0, 0, 120, 7, 1, 0, 60, 3, 3, 0, 10, 255, 255]

theorem witness_NoticeReplacesTheSendersBookings :
    knownArmed.Calm ∧ Handled knownArmed .notice noticeFrame ∧ knownArmed.pres.join = .joined
      ∧ knownArmed.mat.active = none ∧ knownArmed.psu.phase ≠ .wait ∧ RowsDistinct knownArmed.map
      ∧ byteAt noticeFrame.payload 5 = 7 ∧ byteAt noticeFrame.payload 6 ≤ 3
      ∧ byteAt noticeFrame.payload 9 = 3 ∧ byteAt noticeFrame.payload 10 ≤ 3 := by
  refine ⟨calm _ (by decide), handled _ _ _ (by decide), by decide, by decide, by decide, ?_, ?_⟩
  · unfold RowsDistinct; decide
  · decide

/-- Four other stations have booked terminal 3, the last of them for 400 s. -/
def crowd : List Booking :=
  [heard 6 .booked 150 (some 200) 99, heard 7 .booked 200 (some 250) 99, heard 8 .booked 300 (some 350) 99,
    heard 9 .booked 400 (some 450) 99]

def crowded : State := { knownArmed with map := [row 3 crowd, row 7 []] }

/-- The terminals that the frame names, one of them with four bookings of others; and a NOTICE with the own number. -/
theorem witness_NoticeReplacesTheSendersBookings_room :
    SlotsOrdered crowded.map ∧ RowsDistinct crowded.map ∧ crowded.Calm ∧ Handled crowded .notice noticeFrame
      ∧ crowd.length = 4 ∧ crowd.all (fun b => b.owner != 4) = true ∧ byteAt noticeFrame.payload 9 = 3 := by
  refine ⟨?_, ?_, calm _ (by decide), handled _ _ _ (by decide), by decide⟩
  · unfold SlotsOrdered; decide
  · unfold RowsDistinct; decide

def ownNotice : RxFrame := { noticeFrame with sender := 5 }

theorem witness_NoticeReplacesTheSendersBookings_duplicate :
    ownNotice.payload.length = 14 ∧ passesChecks .notice ownNotice = true
      ∧ ownNotice.sender.toNat = base.cfg.station ∧ base.image = some .accepted ∧ base.handed = []
      ∧ base.pres.join = .joined ∧ base.pres.duplicate = false
      ∧ ({ base with pres := { base.pres with duplicate := true } } : State).pres.duplicate = true
      ∧ State.Unarmed { base with pres := { base.pres with join := .listening } } := by
  refine ⟨by decide, by decide, by decide, by decide, by decide, by decide, by decide, by decide, unarmed _ rfl⟩

/-- R82, R78: with four slots taken the booking of station 4 for 110 s takes the place of the one for 400 s. R70: the first
NOTICE with the own number gives DUPLICATE, and in LISTENING disables the station. -/
theorem test_noticeReceived_room :
    ((after (.noticeReceived 100000 noticeFrame) crowded).map.map fun r => r.slots.map (·.owner)) = [[4, 6, 7, 8], [4]]
      ∧ (after (.noticeReceived 100000 ownNotice) base).log.ring.map (·.body) = [.duplicate 5 .joined]
      ∧ (after (.noticeReceived 100000 ownNotice) base).alert.duplicate = true
      ∧ (after (.noticeReceived 100000 ownNotice)
          { base with pres := { base.pres with join := .listening } }).log.ring.map (·.body)
        = [.duplicate 5 .listening, .join .disabled .listening .duplicate] := by decide +kernel

/-- R82, R158: station 4 now holds terminal 7 until 160 s, has booked terminal 3 from 110 s, and its demand is 120 kW. -/
theorem test_noticeReceived :
    let u := after (.noticeReceived 100000 noticeFrame) knownArmed
    (u.map.map fun r => r.slots.map fun b => (b.owner, b.state, b.since, b.till))
        = [[(4, BookState.booked, 110, none), (9, .booked, 150, some 200)], [(4, .held, 100, some 160)]]
      ∧ ((u.psu.table.getD 3 { current := none, intent := none }).current) = some 120 := by decide +kernel

/-- The station holds terminal 3 until 200 s. -/
def holding : State := { base with map := [row 3 [own .held 1 90 (some 200)], row 7 []] }

/-- Station 4 claims a terminal with class 2, in 60 s, for 60 s (R48). -/
def claimFrame (t : Nat) : RxFrame := frame 4 2 100000 [BitVec.ofNat 8 t, 2, 0, 60, 0, 60]

/-- The same with `before` on the air on terminal 3. -/
def holdingArmed : State := { holding with seq := armed (runs before .onAir 3) Ctx.reset }

theorem witness_HeldTerminalIsDenied :
    holdingArmed.Calm ∧ Handled holdingArmed .claim (claimFrame 3) ∧ holdingArmed.pres.join = .joined
      ∧ holdingArmed.claim.terminal ≠ some (byteAt (claimFrame 3).payload 1)
      ∧ rowOf holding.map 3 = some (row 3 [own .held 1 90 (some 200)])
      ∧ ownDedicated holding.map holding.cfg.station 3 = false
      ∧ (row 3 [own .held 1 90 (some 200)]).slots.find? (fun b => b.source == .own && b.state == .held)
        = some (own .held 1 90 (some 200))
      ∧ spansOverlap 90 (some 200) 160 (some 220) = true := by
  refine ⟨calm _ (by decide), handled _ _ _ (by decide), ?_⟩; decide

/-- Terminal 3 has a STALE booking from the last second before the end of the claim of `claimFrame`, with an until that R86
gave and that lies behind. -/
def staleLate : Booking := { heard 0 .stale 219 (some 150) 99 with cls := 0 }

def staleArmed : State := { holdingArmed with map := [row 3 [own .held 1 90 (some 160), staleLate], row 7 []] }

theorem witness_HeldTerminalIsDenied_stale :
    staleArmed.Calm ∧ Handled staleArmed .claim (claimFrame 3) ∧ staleArmed.claim.terminal ≠ some 3
      ∧ rowOf staleArmed.map 3 = some (row 3 [own .held 1 90 (some 160), staleLate])
      ∧ ownDedicated staleArmed.map staleArmed.cfg.station 3 = false
      ∧ spansOverlap 90 (some 160) 160 (some 220) = false
      ∧ [own .held 1 90 (some 160), staleLate].filter (·.state == .stale) = [staleLate]
      ∧ (claimBooking (claimFrame 3).payload 4 100).2.till = some 220 ∧ staleLate.since < 220 := by
  refine ⟨calm _ (by decide), handled _ _ _ (by decide), ?_⟩; decide

/-- R94: the claim ends after the from of the STALE booking, whose until is no end of it; R95: the DENY carries that until. -/
theorem test_claimReceived_stale :
    (after (.claimReceived 100000 (claimFrame 3)) staleArmed).bus.denyQ
        = [{ claimant := 4, terminal := 3, reason := .stale, cls := 0, till := some 150 }]
      ∧ (after (.claimReceived 100000 (claimFrame 3)) staleArmed).map = staleArmed.map := by decide +kernel

theorem witness_UnansweredClaimIsBooked :
    knownArmed.Calm ∧ Handled knownArmed .claim (claimFrame 7) ∧ knownArmed.mat.active = none
      ∧ knownArmed.claim.terminal ≠ some 7 ∧ RowsDistinct knownArmed.map ∧ SlotsOrdered knownArmed.map
      ∧ rowOf knownArmed.map 7 = some (row 7 []) ∧ (∀ b ∈ (row 7 []).slots, b.source ≠ .own) := by
  refine ⟨calm _ (by decide), handled _ _ _ (by decide), by decide, by decide, ?_, ?_, by decide⟩
  · unfold RowsDistinct; decide
  · unfold SlotsOrdered; decide

theorem witness_UnansweredClaimIsBooked_full :
    crowded.Calm ∧ Handled crowded .claim (claimFrame 3) ∧ RowsDistinct crowded.map ∧ SlotsOrdered crowded.map
      ∧ rowOf crowded.map 3 = some (row 3 crowd)
      ∧ (∀ b ∈ crowd, b.source ≠ .own ∧ b.state ≠ .stale ∧ b.state ≠ .dedicated)
      ∧ 4 ≤ (crowd.filter fun b => ! (b.owner == 4 && b.source == .heard && b.state == .booked)).length := by
  refine ⟨calm _ (by decide), handled _ _ _ (by decide), ?_, ?_, by decide⟩
  · unfold RowsDistinct; decide
  · unfold SlotsOrdered; decide

/-- R78: a claim for 160 s takes the place of the booking for 400 s; one of station 9, in place of its own one there,
needs no eviction. -/
theorem test_claimReceived_full :
    ((after (.claimReceived 100000 (claimFrame 3)) crowded).map.map fun r => r.slots.map (·.owner)) = [[6, 4, 7, 8], []]
      ∧ ((after (.claimReceived 100000 (frame 9 2 100000 [3, 2, 0, 60, 0, 60])) crowded).map.map fun r =>
          r.slots.map (·.owner)) = [[6, 9, 7, 8], []] := by decide +kernel

/-- R94, R95: DENY HELD with the class of the booking; R83: a claim that is not denied is entered. -/
theorem test_claimReceived :
    (after (.claimReceived 100000 (claimFrame 3)) holding).bus.denyQ
        = [{ claimant := 4, terminal := 3, reason := .held, cls := 1, till := some 200 }]
      ∧ ((after (.claimReceived 100000 (claimFrame 3)) base).map.map fun r => r.slots.map fun b => (b.since, b.till))
        = [[(160, some 220)], []] := by decide +kernel

/-- Station 4 answers station 9: it holds terminal 3 for 60 s more (R48). -/
def denyFrame : RxFrame := frame 4 1 100000 [9, 3, 0, 0, 60]

theorem witness_DenyTeachesTheHolding :
    knownArmed.Calm ∧ Handled knownArmed .deny denyFrame ∧ knownArmed.pres.join = .joined
      ∧ knownArmed.mat.active = none ∧ byteAt denyFrame.payload 3 = 0
      ∧ byteAt denyFrame.payload 1 ≠ knownArmed.cfg.station ∧ knownArmed.claim.phase ≠ .window
      ∧ knownArmed.claim.watched = none ∧ (rowOf knownArmed.map (byteAt denyFrame.payload 2)).isSome = true
      ∧ RowsDistinct knownArmed.map ∧ SlotsOrdered knownArmed.map ∧ Handled crowded .deny denyFrame := by
  refine ⟨calm _ (by decide), handled _ _ _ (by decide), by decide, by decide, by decide, by decide, by decide,
    by decide, by decide, ?_, ?_, handled _ _ _ (by decide)⟩
  · unfold RowsDistinct; decide
  · unfold SlotsOrdered; decide

/-- R85: the HELD booking of station 4 becomes the one of the identifier's class, until 160 s; its BOOKED one stays. R78:
among four bookings it takes the place of the last. -/
theorem test_denyReceived :
    ((after (.denyReceived 100000 denyFrame) knownArmed).map.map fun r => r.slots.map fun b =>
        (b.owner, b.state, b.cls, b.till))
      = [[(4, BookState.held, 1, some 160), (9, .booked, 2, some 200), (4, .booked, 2, some 400)], []]
      ∧ ((after (.denyReceived 100000 denyFrame) crowded).map.map fun r => r.slots.map (·.owner)) = [[4, 6, 7, 8], []] := by
  decide +kernel

def faultFrame (minutes : Nat) : RxFrame := frame 4 0 100000 [3, 1, BitVec.ofNat 8 minutes]

theorem witness_FaultMarksTheTerminalSuspect :
    knownArmed.Calm ∧ Handled knownArmed .fault (faultFrame 255) ∧ isOwnTerminal knownArmed.map 3 = false
      ∧ knownArmed.claim.terminal ≠ some 3 :=
  ⟨calm _ (by decide), handled _ _ _ (by decide), by decide⟩

/-- R79: suspect until 100 + 60 × 30 s, and longer by a second FAULT, never shorter. -/
theorem test_faultReceived :
    let u := after (.faultReceived 100000 (faultFrame 30)) base
    (u.map.map (·.suspect)) = [some 1900, none]
      ∧ ((after (.faultReceived 100000 (faultFrame 1)) u).map.map (·.suspect)) = [some 1900, none] := by decide +kernel

def intentFrame : RxFrame := frame 4 2 100000 [2, 88, 0, 20, 2]

theorem witness_IntentIsRecorded :
    knownArmed.Calm ∧ Handled knownArmed .intent intentFrame ∧ knownArmed.psu.phase ≠ .wait :=
  ⟨calm _ (by decide), handled _ _ _ (by decide), by decide⟩

/-- R158: 600 kW intended from 20 kW, EARLIER. -/
theorem test_intentReceived :
    (after (.intentReceived 100000 intentFrame) base).psu.table.getD 3 { current := none, intent := none }
      = { current := some 20, intent := some { intended := 600, cls := 2, earlier := true, arrival := 100000 } } := by
  decide +kernel

/-- 2099-12-31 23:59:60 (R48). -/
def timeFrame : RxFrame := frame 0 0 100250 [8, 51, 12, 31, 23, 59, 60]

theorem witness_FirstTimeFrameSetsTheClock :
    base.Unarmed ∧ timeFrame.payload.length = 7 ∧ base.image = some .accepted ∧ base.pres.join ≠ .isolated
      ∧ base.clock.state = .unset ∧ (timeFields timeFrame.payload).valid = true := by
  refine ⟨unarmed _ rfl, ?_⟩; decide +kernel

/-- 2026-01-05 10:00 and so many seconds, started at 100 s. -/
def clockFrame (second : Nat) : RxFrame := frame 0 0 100000 [7, 234, 1, 5, 10, 0, BitVec.ofNat 8 second]

/-- The state that a frame 11 s ahead leaves to the sequencer of `running`. -/
def stepped : State :=
  let s := running.atTime 100000
  { s with
    clock := { state := .locked, refUtc := some (utcSecondOf 2026 1 5 10 0 11), refLocal := some 100000,
               lastTime := some 100000, lastMinute := some (instantOf 2026 1 5 600) },
    store := (s.storeMinute (instantOf 2026 1 5 600)).store }

/-- The same with no difference and the minute not announced. -/
def carried : State := { running.atTime 100000 with
  clock := { running.clock with lastMinute := some (instantOf 2026 1 5 600) } }

theorem witness_FirstTimeFrameSetsTheClock_set :
    (stepped.reconvert.Content ∧ running.seq.armed = true ∧ running.clock.state ≠ .unset
        ∧ running.clock.refUtc = some (utcSecondOf 2026 1 5 10 0 0) ∧ running.clock.refLocal = some 100000
        ∧ (timeFields (clockFrame 11).payload).valid = true
        ∧ utcSecondOf 2026 1 5 10 0 0 + (100000 - 100000) / 1000 + 10 < (timeFields (clockFrame 11).payload).utc)
      ∧ ((timeFields (clockFrame 10).payload).utc ≤ utcSecondOf 2026 1 5 10 0 0 + (100000 - 100000) / 1000 + 10
        ∧ running.clock.lastMinute = some (instantOf 2026 1 5 599)
        ∧ instantOf 2026 1 5 599 < ((timeFields (clockFrame 10).payload).utc + (max running.now 0 - 100000) / 1000) / 60
        ∧ State.Content { carried with store := (carried.storeMinute (instantOf 2026 1 5 600)).store })
      ∧ carried.Calm
      ∧ ((timeFields (clockFrame 10).payload).utc + (max carried.now 0 - 100000) / 1000) / 60 = instantOf 2026 1 5 600 := by
  let o : Occurrence := { occ with start := instantOf 2026 1 5 600, stop := instantOf 2026 1 5 660 }
  refine ⟨⟨content_running _ o (by decide +kernel), ?_⟩, ⟨?_, ?_, ?_, content_running _ o (by decide +kernel)⟩,
    calm _ (by decide +kernel), ?_⟩ <;> decide +kernel

/-- R29, R30: 11 s ahead is a STEP, and the stop, 3 600 s after 10:00:00, comes 11 s sooner; 10 s ahead is SMALL, and the
minute it raises is announced. -/
theorem test_timeReceived_set :
    ((after (.timeReceived 100000 (clockFrame 11)) running).log.ring.map (·.body))
        = [.timeStep true (utcSecondOf 2026 1 5 10 0 0) 11]
      ∧ (after (.timeReceived 100000 (clockFrame 11)) running).seq.cur.stopSec = 100 + 3600 - 11
      ∧ (after (.timeReceived 100000 (clockFrame 10)) running).log.ring = []
      ∧ (after (.timeReceived 100000 (clockFrame 10)) running).clock.lastMinute = some (instantOf 2026 1 5 600) := by
  decide +kernel

/-- R28, section 2.2: second 60 is held as 59, the last second of the calendar. -/
theorem test_timeReceived :
    (after (.timeReceived 100260 timeFrame) base).clock.refUtc = some 3155759999
      ∧ (after (.timeReceived 100260 timeFrame) base).clock.refLocal = some 100250 := by decide +kernel

def requestFrame : RxFrame := frame 0 3 100000 openA

theorem witness_RequestJoinsTheQueue :
    knownArmed.Calm ∧ requestFrame.payload.length = 16 ∧ byteAt openA 1 / 8 = knownArmed.cfg.station
      ∧ ({ base with req := { queue := List.replicate 7 openA, serving := true } } : State).req.queue.length < 8 := by
  refine ⟨calm _ (by decide), ?_⟩; decide

/-- R186: the queue holds at most 8. -/
theorem test_requestReceived :
    (after (.requestReceived 100000 requestFrame) base).req.queue = [openA]
      ∧ (after (.requestReceived 100000 requestFrame)
          { base with req := { queue := List.replicate 8 openA, serving := true } }).req.queue.length = 8 := by
  decide +kernel

/-! ## Station clock -/

/-- Bank A is LIVE and bank B READY for 2026-01-05 10:00, at an armed station. -/
def season : State :=
  { idle with
    store := { base.store with
      bankA := { BankData.reset with state := .live },
      bankB := { BankData.reset with state := .ready, label := 2, instant := some (instantOf 2026 1 5 600) } } }

theorem witness_MinuteBoundaryMakesTheChangeover :
    (season.atTime 0).minuteDue = true ∧ (season.atTime 0).instant = some (instantOf 2026 1 5 600)
      ∧ State.Content { season.atTime 0 with
          store := ((season.atTime 0).storeMinute (instantOf 2026 1 5 600)).store }
      ∧ season.store.dueBank (instantOf 2026 1 5 600) = some .b
      ∧ (season.store.bank Bank.b.other).state = .live ∧ base.store.dueBank (instantOf 2026 1 5 600) = none := by
  refine ⟨by decide +kernel, by decide +kernel, content_idle _ (by decide +kernel), ?_⟩; decide +kernel

/-- R18: at the boundary bank B is LIVE and bank A SPENT. -/
theorem test_minuteBoundary :
    let u := after (.minuteBoundary 0) season
    u.store.bankA.state = .spent ∧ u.store.bankB.state = .live
      ∧ u.log.ring.map (·.body) = [.changeover .b 2 (some .a)] := by decide +kernel

/-- R18: of two READY banks the one with the later instant becomes LIVE, and the record names the other. -/
theorem test_minuteBoundary_bothReady :
    let u := after (.minuteBoundary 0) { season with store := { season.store with
      bankA := { season.store.bankB with label := 1, instant := some (instantOf 2026 1 5 599) } } }
    u.store.bankA.state = .spent ∧ u.log.ring.map (·.body) = [.changeover .b 2 (some .a)]
      ∧ u.serial.writes.length = 2 := by decide +kernel

/-- The clock's reference is the last second of the calendar. -/
def atRangeEnd : State := { clocked base with clock := { (clocked base).clock with refUtc := some 3155759999 } }

theorem witness_ClockHoldsOverAndEnds :
    ((clocked base).handed = [] ∧ (clocked base).clock.state = .locked
        ∧ (clocked base).clock.lastTime = some 100000 ∧ 100000 + 60000 ≤ max (clocked base).now 160000)
      ∧ atRangeEnd.Unarmed ∧ (atRangeEnd.atTime 101000).utc = some 3155760000 := by
  refine ⟨by decide +kernel, unarmed _ rfl, by decide +kernel⟩

/-- At the end of the calendar nothing is current, the next context holds `occ`, and its search waits for its retry. -/
def armedAtRangeEnd : State :=
  { atRangeEnd with
    seq := armed { Ctx.reset with spent := some before.key } { Ctx.reset with occ := some occ, state := .claiming },
    claim := { Claim.reset with occ := some occ, phase := .retryWait, retry := some 130000 } }

theorem witness_ClockHoldsOverAndEnds_armed :
    armedAtRangeEnd.Calm ∧ armedAtRangeEnd.seq.armed = true ∧ armedAtRangeEnd.seq.foundOffer = false
      ∧ (armedAtRangeEnd.atTime 101000).utc = some 3155760000 ∧ armedAtRangeEnd.seq.cur.occ = none
      ∧ armedAtRangeEnd.seq.nxt.occ = some occ ∧ armedAtRangeEnd.claim.occ = some occ
      ∧ armedAtRangeEnd.claim.phase = .retryWait ∧ armedAtRangeEnd.claim.watched = none
      ∧ (armed Ctx.reset Ctx.reset).nxt = Ctx.reset := by
  refine ⟨calm _ (by decide), ?_⟩; decide +kernel

/-- R33, R173: the next context is emptied and its search cancelled. -/
theorem test_clockRangeEnd_armed :
    (after (.clockRangeEnd 101000) armedAtRangeEnd).seq = armed Ctx.reset Ctx.reset
      ∧ (after (.clockRangeEnd 101000) armedAtRangeEnd).claim = Claim.reset := by decide +kernel

/-- R32, R33: neither happens a millisecond before its time. -/
theorem test_clock :
    (after (.holdoverExpiry 159999) (clocked base)).clock.state = .locked
      ∧ (after (.holdoverExpiry 160000) (clocked base)).clock.state = .holdover
      ∧ (after (.clockRangeEnd 100999) atRangeEnd).clock.state = .locked
      ∧ (after (.clockRangeEnd 101000) atRangeEnd).clock.state = .unset := by decide +kernel

/-! ## Joining and presence -/

def joining (j : JoinState) : State :=
  { base with
    pres := { base.pres with join := j, listening := some 103000, learning := some 108000, silence := some 110000 } }

theorem witness_JoinTimersMoveTheStation :
    (joining .listening).Unarmed ∧ (joining .learning).Unarmed
      ∧ State.Calm { joining .joined with seq := preparing } ∧ (joining .joined).claim.phase ≠ .placed
      ∧ (joining .joined).claim.phase ≠ .withdrawing ∧ (joining .joined).psu.phase ≠ .placed
      ∧ (joining .joined).psu.phase ≠ .wait
      ∧ 103000 ≤ max (joining .listening).now 103000 ∧ (joining .learning).clock.state = .unset
      ∧ 108000 ≤ max (joining .learning).now 108000 ∧ 110000 ≤ max (joining .joined).now 110000 :=
  ⟨unarmed _ rfl, unarmed _ rfl, calm _ (by decide), by decide⟩

/-- R64, R65, R72. -/
theorem test_joinTimers :
    (after (.listeningTimerExpiry 103000) (joining .listening)).pres.join = .learning
      ∧ (after (.learningTimerExpiry 108000) (joining .learning)).pres.join = .joined
      ∧ (after (.silenceDeadline 109999) (joining .joined)).pres.join = .joined
      ∧ (after (.silenceDeadline 110000) (joining .joined)).alert.isolated = true := by decide +kernel

def pendingNotice : State := { base with pres := { base.pres with noticePending := true } }

theorem witness_NoticeIsPlacedOnTime :
    pendingNotice.Calm ∧ pendingNotice.psu.phase ≠ .wait ∧ pendingNotice.pres.join = .joined
      ∧ pendingNotice.pres.noticeTimer = some 98000 ∧ 98000 + 2000 ≤ max pendingNotice.now 0
      ∧ pendingNotice.pres.noticePending = true := by
  refine ⟨calm _ (by decide), ?_⟩; decide

/-- R67, R68. -/
theorem test_notice :
    ((after (.noticePeriod 0) base).bus.notice.map (·.demand)) = some 20
      ∧ (after (.noticePeriod 0) base).pres.noticeTimer = some 100000
      ∧ (after (.noticePendingDue 0) pendingNotice).pres.noticePending = false := by decide +kernel

/-! ## The booking map's times -/

def marked : State :=
  { known with map := known.map.map fun r => { r with suspect := some 110 } }

theorem witness_MapTimesRunOut :
    marked.handed = [] ∧ marked.pres.join ≠ .disabled ∧ marked.Unarmed ∧ marked.psu.request = none
      ∧ marked.map.length ≤ 40 := by
  refine ⟨by decide, by decide, unarmed _ rfl, ?_⟩; decide

/-- `before` is on the air on terminal 7, HELD and suspect until 110 s, with its admission at 50 %. -/
def markedOwn : State :=
  { base with
    map := [row 3 [], { row 7 [own .held 1 90 (some 200)] with suspect := some 110 }],
    seq := armed { runs before .onAir 7 with cap := 50, taken := some { onTerminal 7 with suspect := true } } Ctx.reset,
    psu := { base.psu with
      request := some { occ := before.key, terminal := 7, carrier := 250, mode := .am, cls := 1 }, admitted := some 50,
      suspectCap := some 50 } }

theorem witness_MapTimesRunOut_own :
    markedOwn.Calm ∧ markedOwn.pres.join ≠ .disabled ∧ markedOwn.map.length ≤ 40 ∧ markedOwn.psu.phase ≠ .wait
      ∧ (∀ a, markedOwn.psu.admitted = some a → a ≤ min markedOwn.psu.requestCap (min markedOwn.psu.tripCap 100))
      ∧ isOwnTerminal markedOwn.map 7 = true
      ∧ (∀ r ∈ marked.map, isOwnTerminal marked.map r.number = false) := by
  refine ⟨calm _ (by decide), by decide, by decide, by decide, ?_, by decide, by decide⟩
  intro a h
  have e : some 50 = some a := h
  cases e
  decide

/-- R80, R165, R175: the caps are raised at 110 s, and no step and no level. -/
theorem test_suspectExpiry_own :
    let u := after (.suspectExpiry 110000) markedOwn
    u.psu.suspectCap = none ∧ u.psu.admitted = some 50 ∧ u.seq.cur.cap = 100
      ∧ (u.seq.cur.taken.map (·.suspect)) = some false ∧ u.link.level = markedOwn.link.level
      ∧ (after (.suspectExpiry 109999) markedOwn).psu.suspectCap = some 50 := by decide +kernel

/-- R87: at 106 s, 7 s after the owners were heard, the HELD booking turns STALE and the BOOKED ones leave. R88: at
200 s the booking of station 9 has ended. R80: at 110 s the marks end. -/
theorem test_mapTimes :
    ((after (.bookingAging 106000) known).map.map fun r => r.slots.map fun b => (b.owner, b.state))
        = [[(4, BookState.stale)], []]
      ∧ ((after (.bookingAging 105999) known).map = known.map)
      ∧ ((after (.bookedExpiry 200000) known).map.map fun r => r.slots.map (·.owner)) = [[4, 4], []]
      ∧ ((after (.suspectExpiry 110000) marked).map.map (·.suspect)) = [none, none]
      ∧ ((after (.suspectExpiry 109999) marked).map.map (·.suspect)) = [some 110, some 110] := by decide +kernel

/-! ## Switch matrix interface -/

theorem witness_ScanIsRead :
    base.image = some .accepted ∧ base.pres.join ≠ .disabled ∧ base.mat.scanFrom = some 50000
      ∧ 50000 < max base.now 0 ∧ (max base.now 0 - 50000) % 100 = 0 ∧ base.mat.lastScan ≠ some (max base.now 0)
      ∧ base.handed = [] ∧ (max base.now 100099 - 50000) % 100 ≠ 0 := by decide

/-- Terminal 3 has been occupied by another row for two scans; terminal 7, with a STALE booking, free for nineteen. -/
def counting : State :=
  { base with
    map := [{ row 3 [heard 9 .booked 150 (some 200) 99] with occRun := 2 },
      { row 7 [heard 4 .stale 90 none 99] with freeRun := 19 }] }

/-- Both crosspoints are OPEN and the column of terminal 3 is occupied; or terminal 3 is CLOSED. -/
def bothOpen : Contacts := { openMade := 136, closedMade := 0, senseMade := 8 }
def closed3 : Contacts := { openMade := 128, closedMade := 8, senseMade := 8 }

theorem witness_ScanIsRead_quiet :
    counting.Calm ∧ counting.link.permit = false ∧ counting.mat.openWork = [] ∧ counting.mat.pendingClose = none
      ∧ counting.mat.active = none ∧ (counting.mat.rows.map (·.terminal)).Nodup ∧ RowsDistinct counting.map
      ∧ SlotsOrdered counting.map ∧ ownHeld counting.map = none
      ∧ ∀ x ∈ counting.mat.rows, x.drive ≠ .jammed ∧ bothOpen.openMade.getLsbD x.terminal = true
        ∧ bothOpen.closedMade.getLsbD x.terminal = false := by
  refine ⟨calm _ (by decide), by decide, by decide, by decide, by decide, by decide, ?_, ?_, by decide, by decide⟩
  · unfold RowsDistinct; decide
  · unfold SlotsOrdered; decide

/-- R89, R90, R92: the third occupied scan enters the phantom, from local second 100; the twentieth free one clears. -/
theorem test_matrixScan_runs :
    ((after (.matrixScan 0 bothOpen) counting).map.map fun r =>
        (r.occRun, r.freeRun, r.slots.map fun b => (b.owner, b.state, b.since)))
      = [(3, 0, [(0, BookState.stale, 100), (9, .booked, 150)]), (0, 20, [])] := by decide +kernel

/-- A drive of terminal 3 runs since 99 s, with terminal 3 held, and a context. -/
def arriving (dir : Direction) (p : Purpose) (cur : Ctx) : State :=
  { base with
    map := [row 3 [own .held 1 90 (some 200)], row 7 []],
    seq := armed cur Ctx.reset,
    mat := { base.mat with
      rows := [{ point 3 .between with drive := if dir = .openUp then .opening else .closing }, point 7 .opened],
      active := some
        { terminal := 3, direction := dir, purpose := p, travel := 0, running := some 99000, stop := some 200,
          openWaits := false } } }

/-- `occ` is searched for while terminal 3 is released; or waits for terminal 3 to close. -/
def givingBack : State :=
  arriving .openUp .requested
    { Ctx.reset with
      occ := some occ, state := .claiming, running := true,
      release := some { terminal := 3, stage := .opening, waitLink := false } }
def switching : State := arriving .close .requested (runs occ .switching 3)

theorem witness_ScanIsRead_drives :
    (∀ s ∈ [arriving .openUp .tidy (runs before .onAir 7), givingBack, switching],
        s.handed = [] ∧ s.seq.ending = none ∧ s.seq.cur.state ≠ .awaitTerminal ∧ s.seq.nxt.deferred = false
          ∧ s.seq.cur.closeAgain = false ∧ (s.mat.active.map (·.terminal)) = some 3
          ∧ 3 ∈ s.mat.rows.map (·.terminal) ∧ s.mat.scanFrom = some 50000 ∧ s.link.permit = false
          ∧ s.mat.openWork = [] ∧ s.mat.pendingClose = none ∧ (ownHeld s.map).map (·.1) = some 3
          ∧ (s.mat.rows.filter fun x => x.terminal != 3).map (·.drive) = [.idle])
      ∧ givingBack.seq.cur.state ≠ .idle
      ∧ givingBack.seq.cur.release = some { terminal := 3, stage := .opening, waitLink := false }
      ∧ (∀ r ∈ givingBack.map, ∀ c ∈ r.slots, c.source = .own → c.state = .held → r.number = 3)
      ∧ switching.seq.cur.release = none ∧ switching.seq.cur.state = .switching ∧ switching.seq.cur.occ = some occ
      ∧ switching.seq.cur.terminal = some 3 ∧ switching.link.state = .up ∧ switching.link.localFlag = false
      ∧ switching.link.faultCode = 0 ∧ switching.link.op = .none := by decide

/-- R125, R175: CLOSED brings the Tune. R177: OPENED ends the release. -/
theorem test_matrixScan_drives :
    (after (.matrixScan 0 closed3) switching).link.op = .tuning
      ∧ (after (.matrixScan 0 closed3) switching).mat.driveOf 3 = .idle
      ∧ ownHeld (after (.matrixScan 0 bothOpen) givingBack).map = none
      ∧ ((after (.matrixScan 0 bothOpen) givingBack).bus.free.map fun f => (f.terminal, f.cls)) = some (3, 1)
      ∧ (after (.matrixScan 0 bothOpen) givingBack).seq.cur.release = none := by decide +kernel

theorem witness_ReadingsChangeOnlyByScan :
    exec (.bookingAging 0) base = .next (after (.bookingAging 0) base) ∧ Instr.bookingAging 0 ≠ .reset
      ∧ (∀ u i k, Instr.bookingAging 0 ≠ .handOver u i k) ∧ ∀ u k, Instr.bookingAging 0 ≠ .matrixScan u k :=
  ⟨rfl, by decide, fun _ _ _ h => Instr.noConfusion h, fun _ _ h => Instr.noConfusion h⟩

/-- R122: both contacts made reads BETWEEN; R133: the untidy crosspoint is opened. 99 ms later no scan falls. -/
theorem test_matrixScan :
    let u := after (.matrixScan 0 { openMade := 136, closedMade := 8, senseMade := 8 }) base
    u.mat.posOf 3 = some .between ∧ u.mat.posOf 7 = some .opened
      ∧ (u.mat.active.map fun d => (d.terminal, d.direction, d.purpose)) = some (3, .openUp, .tidy)
      ∧ (after (.matrixScan 100099 { openMade := 136, closedMade := 8, senseMade := 8 }) base).mat.posOf 3 = some .opened := by
  decide +kernel

/-- An opening of terminal 3 runs since 92 s. -/
def driving (p : Purpose) : State :=
  { base with
    mat := { Matrix.reset with
      rows := [{ point 3 .between with drive := if p = .recovery then .jammed else .opening }, point 7 .opened],
      active := some
        { terminal := 3, direction := .openUp, purpose := p, travel := 0, running := some 92000, stop := none,
          openWaits := false } } }

theorem witness_OverdueDriveFails :
    (8000 ≤ 0 + (max (driving .tidy).now 0 - 92000)) ∧ (driving .tidy).Unarmed ∧ (driving .tidy).link.permit = false
      ∧ (driving .tidy).mat.releaseMark = none ∧ (∀ x ∈ (driving .tidy).mat.rows, x.recovery = false)
      ∧ (∀ x ∈ (driving .tidy).mat.rows, x.drive ≠ .jammed) ∧ (driving .tidy).bus.fault = none
      ∧ (driving .recovery).handed = [] ∧ (driving .recovery).mat.openWork = []
      ∧ (driving .recovery).mat.pendingClose = none := by
  refine ⟨by decide, unarmed _ rfl, ?_⟩; decide

/-- R131: the crosspoint is JAMMED and the RECOVERY drive starts. R132: one that fails leaves it JAMMED. -/
theorem test_driveTimeouts :
    let u := after (.driveTimeout 0) (driving .requested)
    u.mat.driveOf 3 = .jammed ∧ (u.mat.active.map (·.purpose)) = some .recovery ∧ u.alert.jammed = true
      ∧ (after (.recoveryDriveTimeout 0) (driving .recovery)).mat.active = none
      ∧ (after (.recoveryDriveTimeout 0) (driving .recovery)).mat.driveOf 3 = .jammed := by decide +kernel

/-- The close of terminal 3 that C waits for, or its reversal, runs since 92 s; `left` are the candidates. -/
def closing (dir : Direction) (p : Purpose) (left : List Nat) : State :=
  let o : Occurrence := { occ with prog := { prog with cands := left } }
  { driving p with
    map := [row 3 [own .held 1 90 (some 220)], row 7 []],
    mat := { (driving p).mat with active := (driving p).mat.active.map fun d => { d with direction := dir } },
    seq := armed (runs o .switching 3) Ctx.reset,
    claim := { Claim.reset with
      phase := .booked, occ := some o, since := 160, till := 220, marks := left.map fun _ => .opened, index := 1 } }

/-- The opening of a release runs since 92 s. -/
def releasing : State :=
  { closing .openUp .requested [3] with
    seq := armed { Ctx.reset with release := some { terminal := 3, stage := .opening, waitLink := false } } Ctx.reset,
    claim := Claim.reset }

theorem witness_OverdueDriveFails_close :
    let s := closing .close .requested [3]
    let v := closing .openUp .reversal [3, 7]
    s.Calm ∧ v.Calm ∧ s.seq.foundOffer = false ∧ s.seq.cur.state = .switching ∧ s.seq.cur.terminal = some 3
      ∧ s.seq.nxt.terminal ≠ some 3 ∧ s.psu.phase = .none ∧ s.link.level = 0 ∧ s.link.op = .none
      ∧ s.claim.phase = .booked ∧ s.claim.marks = [.opened] ∧ s.claim.pass = .normal
      ∧ s.seq.cur.onAir = none ∧ s.seq.cur.running = true ∧ s.seq.cur.early (s.atTime 0).instant = false
      ∧ s.seq.cur.furthest = some .switching ∧ s.link.permit = false ∧ s.bus.fault = none
      ∧ v.claim.marks = [.opened, .opened] ∧ isSuspect v.map 7 (max v.now 0 / 1000) = false
      ∧ (v.atTime 0).usable { occ with prog := { prog with cands := [3, 7] } } 7 = true
      ∧ ownReaching v.map 7 v.claim.since = none ∧ ownDedicated v.map v.cfg.station 7 = false
      ∧ v.pres.join = .joined ∧ v.bus.claim = none := by
  refine ⟨calm _ (by decide), calm _ (by decide), ?_⟩; decide +kernel

theorem witness_OverdueDriveFails_release :
    releasing.handed = [] ∧ releasing.seq.ending = none ∧ releasing.seq.nxt.deferred = false
      ∧ releasing.seq.cur.release = some { terminal := 3, stage := .opening, waitLink := false }
      ∧ releasing.seq.cur.closeAgain = false ∧ releasing.seq.cur.terminal ≠ some 3
      ∧ releasing.psu.request = none ∧ releasing.link.op = .none
      ∧ (releasing.mat.active.map fun d => (d.terminal, d.purpose)) = some (3, .requested) := by decide +kernel

/-- R174, R179: the terminal is given up, with no FREE. R177: the release waits in CLEARING. -/
theorem test_driveTimeout_armed :
    let u := after (.driveTimeout 0) (closing .close .requested [3])
    u.log.ring.map (·.body) = [.jammed 3 0 .close none, .terminalFault (.bank .a 1) 1 3 .jammed,
        .entryMissed (.bank .a 1) 1 .lost .switching]
      ∧ (u.seq.cur.release.map (·.stage)) = some .clearing ∧ u.bus.free = none
      ∧ ((after (.driveTimeout 0) (closing .openUp .reversal [3, 7])).bus.claim.map (·.terminal)) = some 7
      ∧ ((after (.driveTimeout 0) releasing).seq.cur.release.map (·.stage)) = some .clearing := by decide +kernel

def suspended : State := after (.rfPresentActive 95000) (driving .tidy)

def settling : State :=
  { base with rfPresent := true, link := { base.link with op := .settling, opTerminal := some 3 } }

theorem witness_RfPresentSuspendsAndResumes :
    (driving .tidy).handed = [] ∧ settling.Unarmed ∧ settling.link.op = .settling ∧ settling.mat.active = none
      ∧ suspended.link.op ≠ .settling ∧ suspended.link.permit = false
      ∧ (suspended.mat.active.map fun d => (d.running, d.direction)) = some (none, .openUp) := by
  refine ⟨by decide +kernel, unarmed _ rfl, ?_⟩; decide +kernel

/-- R124, R136: 8 000 ms of travel had passed at 100 s, which is held short of the limit, and none passes while RF is
present. R148: SETTLING ends. -/
theorem test_rfPresent :
    (suspended.mat.active.map (·.travel)) = some 7999
      ∧ ((after (.rfPresentInactive 120000) suspended).mat.active.map fun d => (d.travel, d.running))
        = some (7999, some 120000)
      ∧ (after (.rfPresentInactive 0) settling).link.op = .none := by decide +kernel

/-! ## Transmitter link -/

/-- Tuned, RF present (flags 5), 0 kW, no fault: 8 + 5 + 243 = 256. -/
def reportBytes : List Byte := [8, 5, 0, 0, 0, 243]

/-- The station holds terminal 3, closed, and tunes on it for `occ`, its last candidate. -/
def tuning : State :=
  { holding with
    mat := { Matrix.reset with rows := [point 3 .closed, point 7 .opened] },
    link := { base.link with
      permit := true, op := .tuning, opTerminal := some 3, seenClear := true, tuneDeadline := some 190000 },
    claim := { Claim.reset with phase := .booked, occ := some alone, marks := [.opened], index := 1, since := 160, till := 220 },
    seq := armed { runs alone .tuning 3 with rampTime := 150000 } Ctx.reset }

/-- The same with terminal 7 as its second candidate. -/
def tuningOfTwo : State :=
  { tuning with
    claim := { tuning.claim with occ := some occ, marks := [.opened, .opened] },
    seq := armed { runs occ .tuning 3 with rampTime := 150000, running := false } Ctx.reset }

theorem witness_ReportIsTaken :
    (base.image = some .accepted ∧ base.pres.join ≠ .disabled ∧ reportBytes.length = 6 ∧ byteAt reportBytes 1 = 8
        ∧ (reportBytes.map BitVec.toNat).sum % 256 = 0 ∧ byteAt reportBytes 2 < 16
        ∧ byteAt reportBytes 5 = base.link.faultCode ∧ base.link.localFlag = (byteAt reportBytes 2 / 8 % 2 == 1))
      ∧ base.handed = [] ∧ base.link.state = .up ∧ base.link.op = .none ∧ tuning.Calm ∧ tuning.link.state = .up
      ∧ tuning.seq.cur.state = .tuning ∧ tuning.seq.cur.occ = some alone ∧ tuning.seq.cur.terminal = some 3
      ∧ tuning.link.opTerminal = some 3 ∧ tuning.seq.cur.heldStep = false
      ∧ ((max tuning.now 0 : Nat) : Int) < tuning.seq.cur.rampTime ∧ tuning.link.report = none
      ∧ tuning.link.op = .tuning ∧ tuning.link.seenClear = true ∧ byteAt reportBytes 2 % 2 = 1 := by
  refine ⟨by decide, by decide, by decide, by decide, calm _ (by decide), ?_⟩; decide

/-- R140, R145: the loss deadline moves and the tuning ends. -/
theorem test_reportReceived :
    (after (.reportReceived 0 reportBytes) base).link.lossDeadline = some 103000
      ∧ (after (.reportReceived 0 reportBytes) tuning).link.op = .tuned
      ∧ (after (.reportReceived 101000 reportBytes) { base with link := Link.reset }).link.state = .up := by
  decide +kernel

/-- R152: under local control PERMIT falls and the demand is that of the full carrier: 20 + 500 × 1.5 / 0.6. -/
theorem test_reportReceived_local :
    let u := after (.reportReceived 0 [8, 8, 0, 0, 0, 240]) tuning
    u.link.permit = false ∧ u.link.localFlag = true ∧ u.psu.announced = 1270 := by decide +kernel

/-- On the air on terminal 3 at 250 kW. -/
def broadcasting : State :=
  { tuning with
    link := { tuning.link with op := .steady, level := 250, ramp := some ⟨250, 100, 250⟩, tuneDeadline := none },
    seq := armed { runs alone .onAir 3 with onAir := some 0, admitted := some 100, stands := true } Ctx.reset }

/-- A REPORT with flags and a fault code. -/
def reportWith (flags fault : Nat) : List Byte :=
  [8, BitVec.ofNat 8 flags, 0, 0, BitVec.ofNat 8 fault, BitVec.ofNat 8 (512 - 8 - flags - fault)]

/-- The transmitter is tuned on terminal 3. -/
def tunedUp : State := { tuning with link := { tuning.link with op := .tuned, tuneDeadline := none } }

/-- The tuning was broken off, by the loss of the link or by a transmitter fault. -/
def broken (state : LinkState) (code : Nat) (k : Break) : State :=
  { tuning with
    link := { base.link with state := state, faultCode := code },
    seq := armed { runs alone .tuning 3 with brk := some k } Ctx.reset }

/-- `running`, with terminal 3 closed and held, its link lost; in TUNING it waits for the link. -/
def linkLost (st : SeqState) : State :=
  { running with
    map := tuning.map, mat := tuning.mat, link := { base.link with state := .lost },
    seq := { running.seq with
      cur := { running.seq.cur with state := st, brk := if st = .tuning then some .link else none } } }

theorem witness_ReportIsTaken_tune :
    tuning.Calm ∧ tuning.link.seenClear = true ∧ (reportWith 2 0).length = 6 ∧ byteAt (reportWith 2 0) 2 = 2
      ∧ (((reportWith 2 0).map BitVec.toNat).sum % 256 = 0)
      ∧ tunedUp.Calm ∧ tunedUp.link.op = .tuned ∧ tunedUp.seq.cur.state = .tuning ∧ tunedUp.seq.cur.occ = some alone
      ∧ tunedUp.seq.cur.terminal = some 3 ∧ tunedUp.link.report = none ∧ tunedUp.Switched 3
      ∧ State.Calm { tunedUp with mat := base.mat } ∧ ({ tunedUp with mat := base.mat } : State).mat.onlyClosed 3 = false := by
  refine ⟨calm _ (by decide), by decide, by decide, by decide, by decide, calm _ (by decide), by decide, by decide,
    by decide, by decide, by decide, ⟨by decide, by decide, by decide⟩, calm _ (by decide), by decide⟩

theorem witness_ReportIsTaken_back :
    let o : Occurrence := { occ with start := instantOf 2026 1 5 600, stop := instantOf 2026 1 5 660 }
    ((linkLost .claiming).atTime 0).Content ∧ (linkLost .claiming).link.state = .lost
      ∧ (linkLost .claiming).link.op = .none ∧ (linkLost .claiming).seq.cur.state ≠ .tuning
      ∧ (linkLost .claiming).seq.cur.brk = none
      ∧ ((linkLost .tuning).atTime 0).Content ∧ (linkLost .tuning).seq.cur.brk = some .link
      ∧ (linkLost .tuning).seq.cur.occ = some o ∧ (linkLost .tuning).seq.cur.terminal = some 3
      ∧ (linkLost .tuning).Switched 3 := by
  let o : Occurrence := { occ with start := instantOf 2026 1 5 600, stop := instantOf 2026 1 5 660 }
  exact ⟨content_running _ o (by decide +kernel), by decide, by decide, by decide, by decide,
    content_running _ o (by decide +kernel), by decide, by decide, by decide, ⟨by decide, by decide, by decide⟩⟩

/-- Under local control, with terminal 3 held and RF present, or with nothing held. -/
def underLocal (held : Bool) : State :=
  { idle with
    map := if held then tuning.map else base.map, rfPresent := held,
    link := { base.link with localFlag := true }, psu := { base.psu with localMark := true, announced := 1270 },
    seq := armed { Ctx.reset with state := .localHold } Ctx.reset }

theorem witness_ReportIsTaken_local :
    base.Unarmed ∧ base.link.localFlag = false ∧ byteAt (reportWith 8 0) 2 / 8 % 2 = 1
      ∧ (((reportWith 8 0).map BitVec.toNat).sum % 256 = 0)
      ∧ broadcasting.Calm ∧ broadcasting.seq.armed = true ∧ broadcasting.seq.cur.occ = some alone
      ∧ broadcasting.seq.cur.running = true ∧ broadcasting.seq.cur.taken = some (onTerminal 3)
      ∧ broadcasting.seq.cur.onAir = some 0 ∧ broadcasting.seq.cur.state = .onAir ∧ broadcasting.psu.phase = .none
      ∧ broadcasting.psu.pendingLower = none ∧ broadcasting.psu.releasePending = false
      ∧ State.Unarmed { underLocal false with seq := Sequencer.reset } ∧ (underLocal true).link.localFlag = true
      ∧ (underLocal true).link.level = 0 ∧ (underLocal true).psu.admitted = none
      ∧ (underLocal true).seq.cur.state = .localHold ∧ (underLocal true).seq.cur.taken = none
      ∧ (ownHeld (underLocal true).map).map (·.1) = some 3 ∧ (underLocal true).rfPresent = true
      ∧ (underLocal true).seq.nxt.terminal ≠ some 3 ∧ ownHeld (underLocal false).map = none
      ∧ State.Content { (underLocal true).atTime 0 with
          seq := { (underLocal true).seq with cur := { (underLocal true).seq.cur with state := .idle, retry := none } } } := by
  refine ⟨unarmed _ rfl, by decide, by decide, by decide, calm _ (by decide), by decide, by decide, by decide, by decide,
    by decide, by decide, by decide, by decide, by decide, unarmed _ rfl, by decide, by decide, by decide, by decide,
    by decide, by decide, by decide, by decide, by decide, content_idle _ (by decide +kernel)⟩

theorem witness_ReportIsTaken_fault :
    base.Unarmed ∧ base.link.faultCode = 0 ∧ byteAt (reportWith 0 255) 5 = 255
      ∧ (((reportWith 0 255).map BitVec.toNat).sum % 256 = 0) ∧ broadcasting.Calm
      ∧ broadcasting.seq.cur.occ.isSome = true ∧ broadcasting.seq.cur.state = .onAir
      ∧ State.Unarmed { base with link := { base.link with faultCode := 1 } }
      ∧ (broken .up 1 .txFault).Calm ∧ (broken .up 1 .txFault).link.faultCode ≠ 0 ∧ (broken .up 1 .txFault).link.op = .none
      ∧ (broken .up 1 .txFault).seq.cur.state = .tuning ∧ (broken .up 1 .txFault).seq.cur.brk = some .txFault
      ∧ (broken .up 1 .txFault).seq.cur.occ = some alone ∧ (broken .up 1 .txFault).seq.cur.terminal = some 3
      ∧ (broken .up 1 .txFault).Switched 3 := by
  refine ⟨unarmed _ rfl, by decide, by decide, by decide, calm _ (by decide), by decide, by decide, unarmed _ rfl,
    calm _ (by decide), by decide, by decide, by decide, by decide, by decide, by decide, ⟨by decide, by decide, by decide⟩⟩

/-- R145: DETUNED tunes again, tune-failed gives up. R141, R153: LINK-BACK and TX-CLEAR tune again. R181: LOCAL ends the
occurrence on the air. R153: a fault issues LEVEL 0 and RF off. -/
theorem test_reportReceived_cases :
    (after (.reportReceived 0 (reportWith 0 0)) tunedUp).link.tuneDeadline = some 190000
      ∧ ((after (.reportReceived 0 (reportWith 2 0)) tuning).log.ring.map (·.body)).head?
        = some (.terminalFault (.bank .a 1) 1 3 .tuneFailed)
      ∧ (after (.reportReceived 0 (reportWith 0 0)) (linkLost .tuning)).link.permit = true
      ∧ (after (.reportReceived 0 (reportWith 0 0)) (broken .up 1 .txFault)).link.op = .tuning
      ∧ ((after (.reportReceived 0 (reportWith 8 0)) broadcasting).log.ring.getLast?.map (·.body))
        = some (.entryOff (.bank .a 1) 1 .local_ (some 3) (some 100) 0 0)
      ∧ ((after (.reportReceived 0 (reportWith 0 0)) (underLocal true)).seq.cur.release.map (·.stage)) = some .settle
      ∧ ((after (.reportReceived 0 (reportWith 0 255)) broadcasting).link.out.map (·.record)) = [.level 0, .rf false] := by
  decide +kernel

theorem witness_LinkLossDropsPermit :
    base.Unarmed ∧ base.link.lossDeadline = some 103000 ∧ 103000 ≤ max base.now 103000
      ∧ tuning.Calm ∧ tuning.link.lossDeadline = some 103000 ∧ tuning.seq.cur.occ.isSome = true
      ∧ tuning.seq.cur.state = .tuning ∧ tuning.seq.cur.onAir = none ∧ tuning.seq.cur.brk = none
      ∧ tuning.psu.pendingLower = none ∧ tuning.psu.releasePending = false ∧ tuning.link.permit = true
      ∧ broadcasting.Calm ∧ broadcasting.link.lossDeadline = some 103000 ∧ broadcasting.seq.cur.occ.isSome = true
      ∧ broadcasting.seq.cur.state = .onAir ∧ broadcasting.seq.cur.onAir.isSome = true
      ∧ broadcasting.seq.cur.taken = some (onTerminal 3) ∧ broadcasting.link.permit = true := by
  refine ⟨unarmed _ rfl, by decide, by decide, calm _ (by decide), by decide, by decide, by decide, by decide, by decide,
    by decide, by decide, by decide, calm _ (by decide), ?_⟩
  decide

/-- R141, R180: the occurrence on the air ends LOST, and its terminal waits for the link. -/
theorem test_linkLoss_onAir :
    let u := after (.linkLossDeadline 103000) broadcasting
    u.link.permit = false ∧ u.link.level = 0 ∧ (u.seq.cur.release.map fun r => (r.terminal, r.waitLink)) = some (3, true)
      ∧ (u.log.ring.getLast?.map (·.body)) = some (.entryOff (.bank .a 1) 1 .lost (some 3) (some 100) 0 0) := by
  decide +kernel

theorem witness_TuneLimitEndsTheTuning :
    tuning.Calm ∧ tuning.seq.foundOffer = false ∧ tuning.link.op = .tuning ∧ tuning.link.opTerminal = some 3
      ∧ tuning.link.tuneDeadline = some 190000 ∧ 190000 ≤ max tuning.now 190000 ∧ tuning.seq.cur.state = .tuning
      ∧ tuning.seq.cur.occ = some alone ∧ tuning.seq.cur.taken = some (onTerminal 3) ∧ tuning.seq.cur.onAir = none
      ∧ tuning.seq.nxt.terminal ≠ some 3 ∧ tuning.psu.phase = .none ∧ tuning.claim.phase = .booked
      ∧ tuning.claim.occ = some alone ∧ tuning.claim.index = 1 ∧ tuning.claim.skipped = false
      ∧ tuning.claim.pass = .normal ∧ tuning.mat.row 3 = some (point 3 .closed) ∧ tuning.mat.active = none
      ∧ tuning.mat.pendingClose = none ∧ tuning.mat.openWork = [] ∧ alone.prog.cands = [3]
      ∧ tuning.claim.marks = [.opened] ∧ tuning.seq.cur.running = true
      ∧ tuning.seq.cur.early (tuning.atTime 190000).instant = false ∧ tuning.seq.cur.furthest = some .tuning := by
  refine ⟨calm _ (by decide), ?_⟩; decide

theorem witness_TuneLimitEndsTheTuning_next :
    let s := tuningOfTwo
    s.Calm ∧ s.seq.foundOffer = false ∧ s.seq.cur.occ = some occ ∧ s.seq.cur.taken = some (onTerminal 3)
      ∧ s.seq.cur.running = false ∧ s.claim.occ = some occ ∧ occ.prog.cands = 3 :: 7 :: []
      ∧ s.claim.marks = .opened :: .opened :: [] ∧ isSuspect s.map 7 (max s.now 190000 / 1000) = false
      ∧ (s.atTime 190000).usable occ 7 = true ∧ ownReaching s.map 7 s.claim.since = none
      ∧ ownDedicated s.map s.cfg.station 7 = false ∧ s.pres.join = .joined ∧ s.bus.claim = none := by
  refine ⟨calm _ (by decide), ?_⟩; decide +kernel

/-- R145, R179: the terminal is given up; with no candidate left the occurrence has ended LOST, else the next is claimed. -/
theorem test_tuneLimit :
    let u := after (.tuneDeadline 190000) tuning
    u.log.ring.map (·.body)
        = [.terminalFault (.bank .a 1) 1 3 .tuneFailed, .entryMissed (.bank .a 1) 1 .lost .tuning]
      ∧ u.seq.cur.spent = some alone.key ∧ u.mat.openWork.map (·.terminal) = [3]
      ∧ ((after (.tuneDeadline 190000) tuningOfTwo).bus.claim.map (·.terminal)) = some 7
      ∧ (after (.tuneDeadline 190000) tuningOfTwo).seq.cur.givenUp = [3] := by decide +kernel

/-- R141, R145. -/
theorem test_deadlines :
    (after (.linkLossDeadline 103000) tuning).link.state = .lost
      ∧ (after (.linkLossDeadline 103000) tuning).link.permit = false
      ∧ (after (.linkLossDeadline 102999) tuning) = tuning.atTime 102999
      ∧ (after (.tuneDeadline 190000) tuning).link.op = .none
      ∧ (after (.tuneDeadline 189999) tuning).link.op = .tuning := by decide +kernel

/-- On terminal 3 with PERMIT, at 125 kW of 250, RAMPING in a ramp-up and ENDING in a ramp-down. -/
def ramping (op : Operation) (plan : List PlanItem) : State :=
  { tuning with
    link := { base.link with
      permit := true, op := op, opTerminal := some 3, level := 125, ramp := some ⟨250, 100, 250⟩, plan := plan,
      ladder := some { occ := occ.key, terminal := 3, count := 0, last := none } },
    psu := { base.psu with admitted := some 100, basis := some { carrier := 250, mode := .am }, announced := 645 },
    seq := armed
      (if op = .rampDown then
        { Ctx.reset with state := .ending, release := some { terminal := 3, stage := .settle, waitLink := false } }
       else { runs alone .ramping 3 with admitted := some 100, stands := true }) Ctx.reset }

theorem ending (s : State) (x : Nat)
    (h : s.handed = [] ∧ s.seq.ending = none ∧ s.seq.cur.state = .ending ∧ s.seq.cur.occ = none ∧ s.seq.cur.taken = none
      ∧ s.seq.cur.release = some { terminal := x, stage := .settle, waitLink := false } ∧ s.seq.nxt.terminal ≠ some x
      ∧ s.seq.nxt.deferred = false
      ∧ (s.mat.row x).all (fun y => decide (y.pos ≠ some .opened ∧ y.drive ≠ .jammed)) = true) : s.Ending where
  handed := h.1
  ending := h.2.1
  state := h.2.2.1
  occ := h.2.2.2.1
  taken := h.2.2.2.2.1
  release := fun r hr => by
    rw [h.2.2.2.2.2.1] at hr
    cases hr
    refine ⟨rfl, rfl, h.2.2.2.2.2.2.1, fun y hy => ?_⟩
    have g := h.2.2.2.2.2.2.2.2
    rw [hy] at g
    exact of_decide_eq_true g
  search := h.2.2.2.2.2.2.2.1

/-- A ramp-down whose Release waits for a level of 0. -/
def rampingDown (plan : List PlanItem) : State :=
  { ramping .rampDown plan with psu := { (ramping .rampDown plan).psu with releasePending := true } }

theorem witness_RungsMoveTheLevel :
    (ramping .rampUp [⟨101000, .level 250⟩]).Calm ∧ (ramping .rampUp [⟨101000, .level 150⟩, ⟨102000, .level 250⟩]).Calm
      ∧ (rampingDown [⟨101000, .rfOff⟩]).Ending
      ∧ (rampingDown [⟨101000, .level 0⟩, ⟨101500, .rfOff⟩]).Ending
      ∧ base.pres.join ≠ .disabled ∧ base.link.state ≠ .lost ∧ base.link.localFlag = false
      ∧ (ramping .rampUp []).psu.pendingLower = none ∧ (ramping .rampUp []).psu.releasePending = false
      ∧ (ramping .rampUp []).seq.cur.state = .ramping ∧ (ramping .rampUp []).seq.cur.occ = some alone
      ∧ (ramping .rampUp []).seq.cur.onAir = none
      ∧ (ramping .rampUp [⟨101000, .level 250⟩]).link.ramp = some ⟨250, 100, 250⟩
      ∧ (ramping .rampUp [⟨101000, .level 250⟩]).link.plan = [⟨101000, .level 250⟩]
      ∧ (rampingDown []).psu.releasePending = true ∧ (rampingDown []).link.level ≠ 0
      ∧ 101000 ≤ max (ramping .rampUp []).now 101000 :=
  ⟨calm _ (by decide), calm _ (by decide), ending _ 3 (by decide), ending _ 3 (by decide), by decide⟩

/-- R165, R177: at a level of 0 the admission ends; with no RF present the RF off that ends the ramp-down leaves C IDLE
and terminal 3 to be opened. -/
theorem test_rampDown_ends :
    let u := after (.rampDownRungDue 101000) (rampingDown [⟨101000, .level 0⟩, ⟨101500, .rfOff⟩])
    let v := after (.rampDownRungDue 101500) u
    u.psu.admitted = none ∧ u.psu.announced = 20 ∧ u.seq.cur.state = .ending ∧ v.seq.cur.state = .idle
      ∧ v.link.op = .none ∧ (v.seq.cur.release.map (·.stage)) = some .opening ∧ v.mat.openWork.map (·.terminal) = [3] := by
  decide +kernel

/-- R147: the last rung ends the ramp at 250 kW. R148: the last rung down ends in NONE with PERMIT off. -/
theorem test_rungs :
    let u := after (.rampRungDue 101000) (ramping .rampUp [⟨101000, .level 250⟩])
    u.link.level = 250 ∧ u.link.op = .steady ∧ u.seq.cur.state = .onAir
      ∧ (u.log.ring.map (·.body)) = [.entryOn (.bank .a 1) 1 (some 3) (some 100) 250 0]
      ∧ (after (.rampRungDue 100999) (ramping .rampUp [⟨101000, .level 250⟩])).link.level = 125
      ∧ (after (.rampDownRungDue 101000) (ramping .rampDown [⟨101000, .level 62⟩])).link.level = 62
      ∧ (after (.rampDownRungDue 101000) (ramping .rampDown [⟨101000, .rfOff⟩])).link.permit = false := by decide +kernel

/-- The state before the trip with a count of counted trips, the last at local time `last`. -/
def tripped (count : Nat) (last : Option Nat) : State :=
  { ramping .steady [] with
    rfPresent := true,
    link := { (ramping .steady []).link with ladder := some { occ := occ.key, terminal := 3, count := count, last := last } },
    seq := broadcasting.seq }

theorem witness_TripInARampIsCounted :
    let s := tripped 3 (some 99000)
    (tripped 0 none).Calm ∧ (tripped 2 (some 99000)).Calm ∧ s.Calm ∧ s.seq.foundOffer = false
      ∧ s.tripLine = false ∧ s.image ≠ none ∧ s.link.op = .steady ∧ s.link.localFlag = false
      ∧ s.link.ramp = some ⟨250, 100, 250⟩ ∧ s.seq.cur.occ = some alone ∧ s.seq.cur.state = .onAir
      ∧ s.psu.phase = .none ∧ s.rfPresent = true ∧ s.seq.cur.taken = some (onTerminal 3)
      ∧ s.seq.cur.onAir = some 0 ∧ s.seq.cur.running = true ∧ alone.prog.cands = [3] ∧ s.claim.phase = .booked
      ∧ s.claim.occ = some alone ∧ s.claim.index = 1 ∧ s.claim.skipped = false ∧ s.claim.marks = [.opened]
      ∧ ¬ 0 + 120000 < max (tripped 2 (some 0)).now 120000 ∧ 0 + 120000 < max (tripped 2 (some 0)).now 120001 :=
  ⟨calm _ (by decide), calm _ (by decide), calm _ (by decide), by decide⟩

/-- R150, R179: the fourth trip gives the last candidate up, and the occurrence has ended LOST. -/
theorem test_tripAsserted_fourth :
    let u := after (.tripAsserted 0) (tripped 3 (some 99000))
    u.log.ring.map (·.body)
        = [.trip (some 3) 4 .exhausted 125 0, .terminalFault (.bank .a 1) 1 3 .trips,
            .entryOff (.bank .a 1) 1 .lost (some 3) (some 100) 4 0]
      ∧ (u.bus.fault.map fun f => (f.terminal, f.minutes)) = some (3, 30) ∧ u.seq.cur.spent = some alone.key
      ∧ u.link.op = .settling := by decide +kernel

theorem witness_TripOutsideARampIsRecorded :
    base.tripLine = false ∧ base.image ≠ none ∧ base.handed = [] ∧ base.link.op = .none
      ∧ (rampingDown [⟨101000, .rfOff⟩]).Ending ∧ (rampingDown [⟨101000, .rfOff⟩]).link.op = .rampDown
      ∧ (rampingDown [⟨101000, .rfOff⟩]).psu.pendingLower = none := by
  refine ⟨by decide, by decide, by decide, by decide, ending _ 3 (by decide), by decide⟩

/-- R149, R150: the first trip recycles, the third one step lower (71), the fourth ends the operation. R151: outside a
ramp only a record is written. -/
theorem test_tripAsserted :
    (after (.tripAsserted 0) (tripped 0 none)).link.op = .recycle
      ∧ ((after (.tripAsserted 0) (tripped 2 (some 99000))).link.ramp.map (·.step)) = some 71
      ∧ (after (.tripAsserted 0) (tripped 3 (some 99000))).link.permit = false
      ∧ (after (.tripAsserted 0) base).log.ring.map (·.body) = [.trip none 0 .none 0 0]
      ∧ (after (.tripAsserted 0) base).tripLine = true := by decide +kernel

/-- R154: at 120 000 ms, before the window's end is taken, the count goes on; later it is 1. -/
theorem test_tripAsserted_window :
    ((after (.tripAsserted 120000) (tripped 2 (some 0))).link.ladder.map (·.count)) = some 3
      ∧ ((after (.tripAsserted 120001) (tripped 2 (some 0))).link.ladder.map (·.count)) = some 1 := by decide +kernel

def recycling : State := after (.tripAsserted 0) { tripped 0 none with rfPresent := false }

theorem witness_RecycleRampStarts :
    recycling.Calm ∧ recycling.seq.cur.state = .recycling ∧ recycling.psu.pendingLower = none
      ∧ recycling.psu.releasePending = false ∧ recycling.pres.join ≠ .disabled ∧ recycling.link.state ≠ .lost
      ∧ recycling.link.localFlag = false ∧ recycling.link.level = 0 ∧ recycling.link.op = .recycle
      ∧ recycling.link.ramp = some ⟨250, 100, 250⟩ ∧ recycling.link.recycleAt = some 105000
      ∧ ({ recycling with tripLine := false } : State).tripLine = false ∧ max recycling.now 0 < 105000 := by
  refine ⟨calm _ (by decide +kernel), ?_⟩; decide +kernel

/-- R150, R147: the ramp waits for TRIP, then starts with the first tenth of 250 kW. -/
theorem test_recycle :
    (after (.recycleTime 105000) recycling).link.op = .recycle
      ∧ (after (.tripDeasserted 105000) recycling).link.level = 25
      ∧ (after (.tripDeasserted 105000) recycling).link.plan.length = 9
      ∧ (after (.tripDeasserted 104999) recycling).link.level = 0
      ∧ (after (.recycleTime 105000) (after (.tripDeasserted 104999) recycling)).link.level = 25 := by decide +kernel

theorem witness_TripWindowClearsTheCount :
    (tripped 3 (some 99000)).handed = [] ∧ 99000 + 120000 ≤ max (tripped 3 (some 99000)).now 219000 := by decide

/-- R149. -/
theorem test_tripWindowExpiry :
    ((after (.tripWindowExpiry 219000) (tripped 3 (some 99000))).link.ladder.map (·.count)) = some 0
      ∧ ((after (.tripWindowExpiry 218999) (tripped 3 (some 99000))).link.ladder.map (·.count)) = some 3 := by
  decide +kernel

/-! ## Power share unit -/

def asked : AdmitReq := { occ := occ.key, terminal := 3, carrier := 250, mode := .am, cls := 1 }

/-- An own INTENT of 250 kW of carrier in its window, beside another station's demand and intent. -/
def window (current : Nat) : State :=
  { base with
    psu := { base.psu with
      table := base.psu.table.modify 3 fun _ =>
        { current := some current, intent := some { intended := current + 100, cls := 2, earlier := true, arrival := 90000 } },
      phase := .window, request := some asked, candidate := some 100, ownStart := some 99750,
      windowEnd := some 100000 },
    seq := armed (runs occ .admitting 3) Ctx.reset }

def backing : State :=
  { window 0 with psu := { (window 0).psu with phase := .backoff, backoffEnd := some 100000, windowEnd := none } }

theorem witness_IntentTimesRunOut :
    ((window 0).Calm ∧ (window 0).seq.cur.state = .admitting ∧ (window 0).seq.cur.occ.isSome = true
        ∧ (window 0).seq.cur.former = none ∧ (window 0).link.level = 0 ∧ (window 0).psu.phase = .window
        ∧ (window 0).psu.windowEnd = some 100000 ∧ (window 0).psu.request = some asked
        ∧ (window 0).psu.candidate = some 100 ∧ (window 0).psu.localMark = false
        ∧ (window 0).psu.releasePending = false)
      ∧ 1255 + totalDemand base.cfg 250 100 .am = base.cfg.limit - base.cfg.reserve
      ∧ base.cfg.limit - base.cfg.reserve < 1256 + totalDemand base.cfg 250 100 .am
      ∧ backing.psu.phase = .backoff ∧ backing.psu.backoffEnd = some 100000 ∧ backing.psu.admitted = none
      ∧ backing.pres.join = .joined ∧ 100 ≤ backing.psu.effectiveCap
      ∧ othersCommitted backing.psu.table + totalDemand backing.cfg 250 100 .am ≤ backing.cfg.limit - backing.cfg.reserve
      ∧ (window 0).psu.phase ≠ .wait := by
  refine ⟨⟨calm _ (by decide), by decide⟩, ?_⟩; decide +kernel

/-- R164: an intent of a worse class does not count; 1 255 + 645 kW is the budget of 1 900. R163: 645 kW is announced
again. R159: an intent lives 15 000 ms. -/
theorem test_intentTimes :
    (after (.intentWindowEnd 0) (window 1255)).psu.admitted = some 100
      ∧ (after (.intentWindowEnd 0) (window 1255)).seq.cur.state = .ramping
      ∧ (after (.intentWindowEnd 0) (window 1256)).psu.ownStart = some 99750
      ∧ (after (.intentWindowEnd 0) (window 1256)).psu.phase = .backoff
      ∧ (after (.intentWindowEnd 0) (window 1256)).psu.backoffEnd = some 102000
      ∧ ((after (.backoffEnd 0) backing).bus.intent.map (·.intended)) = some 645
      ∧ ((after (.intentExpiry 105000) (window 7)).psu.table.getD 3 { current := none, intent := none }).intent = none
      ∧ (after (.intentExpiry 104999) (window 7)).psu.table = (window 7).psu.table := by decide +kernel

/-! ## Claim engine -/

def searching : Claim :=
  { Claim.reset with
    occ := some occ, since := 160, till := 220, marks := [.opened, .lost], index := 1, terminal := some 3,
    ownStart := some 99600, ownStartsIn := 60, windowEnd := some 100000, phase := .window }

def claiming : State := { base with claim := searching, seq := preparing }

theorem witness_UnlostClaimIsBooked :
    claiming.Calm ∧ claiming.seq.nxt.occ = some occ ∧ claiming.seq.cur.key ≠ some occ.key ∧ claiming.claim.phase = .window
      ∧ claiming.claim.windowEnd = some 100000 ∧ claiming.claim.occ = some occ ∧ claiming.claim.terminal = some 3
      ∧ ownBooked claiming.map = none ∧ rowOf claiming.map 3 = some (row 3 []) ∧ (row 3 []).slots.length < 4
      ∧ (claiming.map.map (·.number)).Nodup ∧ claiming.mat.active = none := by
  refine ⟨calm _ (by decide), ?_⟩; decide

/-- R113: the booking has the claim's span. -/
theorem test_claimWindowEnd :
    ((ownBooked (after (.claimWindowEnd 0) claiming).map).map fun k => (k.1, k.2.cls, k.2.since, k.2.till))
      = some (3, 1, 160, some 220)
      ∧ ((after (.claimWindowEnd 0) claiming).seq.nxt.taken.map (·.terminal)) = some 3 := by decide +kernel

def retrying : State :=
  { base with
    seq := preparing,
    claim := { searching with
      phase := .retryWait, retry := some 100000, marks := [.lost, .exhausted], terminal := none, ownStart := none,
      windowEnd := none, index := 2 } }

theorem witness_RetryWalksAgain :
    retrying.Calm ∧ retrying.seq.foundOffer = false ∧ retrying.seq.nxt.key = some occ.key
      ∧ retrying.claim.phase = .retryWait
      ∧ retrying.claim.retry = some 100000 ∧ retrying.claim.occ = some occ
      ∧ retrying.claim.till ≤ ((max retrying.now 220000 / 1000 : Nat) : Int)
      ∧ ((max retrying.now 219999 / 1000 : Nat) : Int) < retrying.claim.till ∧ occ.prog.cands = [3, 7]
      ∧ retrying.claim.marks[0]? = some .lost ∧ isSuspect retrying.map 3 (max retrying.now 219999 / 1000) = false
      ∧ (retrying.atTime 0).usable occ 3 = true ∧ ownReaching retrying.map 3 retrying.claim.since = none
      ∧ ownDedicated retrying.map retrying.cfg.station 3 = false ∧ retrying.pres.join = .joined
      ∧ retrying.bus.claim = none := by
  refine ⟨calm _ (by decide), ?_⟩; decide +kernel

/-- R107: the LOST candidate is claimed again; an occurrence that has ended is given up. -/
theorem test_claimRetry :
    ((after (.claimRetry 0) retrying).bus.claim.map fun f => (f.terminal, f.cls, f.since, f.till))
        = some (3, 1, 160, 220)
      ∧ (after (.claimRetry 220000) retrying).claim.phase = .idle
      ∧ (after (.claimRetry 220000) retrying).seq.nxt = Ctx.reset := by decide +kernel

/-- The current context runs `occ` and has no terminal; a STEP back has moved its stop second to 300. -/
def retryingCur (stop : Int) (mark : Option Nat) : State :=
  { retrying with
    seq := armed { Ctx.reset with
      occ := some occ, state := .claiming, running := true, stopSec := stop, furthest := some .switching, onAir := mark,
      lastTerm := some 3 } Ctx.reset }

theorem witness_RetryWalksAgain_current :
    (retryingCur 220 none).Calm ∧ (retryingCur 220 none).seq.foundOffer = false
      ∧ (retryingCur 220 none).claim.phase = .retryWait ∧ (retryingCur 220 none).claim.occ = some occ
      ∧ (retryingCur 220 none).claim.till ≤ ((max (retryingCur 220 none).now 220000 / 1000 : Nat) : Int)
      ∧ (retryingCur 220 none).seq.cur.occ = some occ ∧ (retryingCur 220 none).seq.cur.state = .claiming
      ∧ (retryingCur 220 none).psu.phase = .none ∧ (retryingCur 220 none).link.level = 0
      ∧ (retryingCur 220 none).seq.cur.running = true
      ∧ (retryingCur 220 none).seq.cur.early ((retryingCur 220 none).atTime 220000).instant = false
      ∧ (retryingCur 220 none).seq.cur.furthest = some .switching
      ∧ (retryingCur 220 (some 0)).Calm ∧ (retryingCur 220 (some 0)).seq.cur.onAir.isSome = true := by
  refine ⟨calm _ (by decide), ?_, ?_, ?_, ?_, ?_, ?_, ?_, ?_, ?_, ?_, ?_, calm _ (by decide), ?_⟩ <;> decide +kernel

/-- R179: EXPIRED ends C's occurrence: COMPLETED at the stop second 220, CUT while it lies ahead. -/
theorem test_claimRetry_current :
    (after (.claimRetry 220000) (retryingCur 220 none)).seq.cur = Ctx.reset
      ∧ ((after (.claimRetry 220000) (retryingCur 220 none)).log.ring.getLast?.map (·.body))
        = some (.entryMissed occ.source occ.number .completed .switching)
      ∧ ((after (.claimRetry 220000) (retryingCur 221 (some 0))).log.ring.getLast?.map (·.body))
        = some (.entryOff occ.source occ.number .cut (some 3) none 0 0) := by decide +kernel

def watching : State :=
  { base with
    map := [row 3 [heard 4 .held 90 (some 170) 99, own .booked 1 160 (some 220)], row 7 []],
    claim := { Claim.reset with
      phase := .booked, occ := some occ, since := 160, till := 220, marks := [.lost, .opened], index := 2,
      watched := some { terminal := 3, occ := occ } },
    seq := { preparing with
      nxt := { preparing.nxt with state := .awaitTerminal, taken := some (onTerminal 3) } } }

theorem witness_OvertakenBookingIsGivenUp :
    watching.Calm ∧ watching.seq.nxt.occ = some occ ∧ watching.seq.cur.key ≠ some occ.key
      ∧ watching.claim.phase = .booked ∧ watching.claim.occ = some occ ∧ watching.claim.index = occ.prog.cands.length
      ∧ watching.claim.marks.length = occ.prog.cands.length ∧ watching.claim.skipped = false
      ∧ watching.claim.watched = some { terminal := 3, occ := occ }
      ∧ ownBooked watching.map = some (3, own .booked 1 160 (some 220))
      ∧ (rowOf watching.map 3).isSome = true ∧ heard 4 .held 90 (some 170) 99 ∈ (watching.map.flatMap (·.slots))
      ∧ spansOverlap 90 (some 170) (max 160 ((max watching.now 169999 / 1000 : Nat) : Int)) (some 220) = true
      ∧ spansOverlap 90 (some 170) (max 160 ((max watching.now 170000 / 1000 : Nat) : Int)) (some 220) = false := by
  refine ⟨calm _ (by decide), ?_⟩; decide

/-- A STALE booking of another station that R86 gave an until before the watched span. -/
theorem witness_OvertakenBookingIsGivenUp_stale :
    spansOverlap 90 (some 150) (max 160 (100 : Int)) (some 220) = false
      ∧ spansOverlap 90 (if (heard 4 .stale 90 (some 150) 99).state = .stale then none else some 150)
        (max 160 (100 : Int)) (some 220) = true := by decide

/-- R94, R98, R115: that STALE booking overtakes the watched booking all the same. -/
theorem test_claimWatch_stale :
    ((after (.claimWatch 100000) { watching with
        map := [row 3 [heard 4 .stale 90 (some 150) 99, own .booked 1 160 (some 220)], row 7 []] }).bus.free.map
      fun f => (f.terminal, f.cls)) = some (3, 1) := by decide +kernel

/-- R115: while the holding meets the booking it is given up with FREE. -/
theorem test_claimWatch :
    ((after (.claimWatch 169999) watching).bus.free.map fun f => (f.terminal, f.cls)) = some (3, 1)
      ∧ (after (.claimWatch 169999) watching).claim.watched = none
      ∧ (after (.claimWatch 169999) watching).claim.retry = some 199999
      ∧ (after (.claimWatch 169999) watching).seq.nxt.state = .claiming
      ∧ (after (.claimWatch 170000) watching).map = watching.map := by decide +kernel

/-! ## Entry sequencer -/

/-- C waits in TUNING on terminal 3, closed and held. -/
def waitingToRamp (op : Operation) (retry : Option Retry) : State :=
  { holding with
    mat := { Matrix.reset with rows := [point 3 .closed, point 7 .opened] },
    link := { base.link with op := op, opTerminal := if op = .none then none else some 3 },
    seq := { Sequencer.reset with
      armed := true, joinedOnce := true,
      cur := { Ctx.reset with
        occ := some occ, state := .tuning, taken := some { terminal := 3, how := .claimed, suspect := false },
        rampTime := 100000, retry := retry, furthest := some .tuning } } }

theorem witness_RampTimeAsksForPower :
    let s := waitingToRamp .tuned none
    s.handed = [] ∧ s.seq.cur.state = .tuning ∧ s.seq.cur.occ = some occ
      ∧ s.seq.cur.taken = some { terminal := 3, how := .claimed, suspect := false } ∧ s.link.op = .tuned
      ∧ s.link.opTerminal = some 3 ∧ s.seq.cur.heldStep = false ∧ s.seq.cur.rampTime ≤ ((max s.now 0 : Nat) : Int)
      ∧ s.seq.cur.cap = 100 ∧ s.psu.localMark = false ∧ s.psu.phase = .none ∧ s.psu.admitted = none
      ∧ s.psu.lastAdmit = none ∧ isSuspect s.map 3 (max s.now 0 / 1000) = false ∧ s.pres.join = .joined
      ∧ othersCommitted s.psu.table + totalDemand s.cfg occ.prog.carrier 100 occ.prog.mode
        ≤ s.cfg.limit - s.cfg.reserve := by decide +kernel

theorem witness_RampTimeAsksForPower_again :
    let s := waitingToRamp .tuned none
    ({ s with psu := { s.psu with lastAdmit := some (occ.key, 3) } } : State).psu.tripCap = 100
      ∧ ({ s with psu := { s.psu with lastAdmit := some (occ.key, 7), tripCap := 71 } } : State).psu.lastAdmit
        ≠ some (occ.key, 3) := by decide

/-- R175, R163: 20 + 250 × 1.5 / 0.6 kW are announced. -/
theorem test_rampTime :
    let u := after (.rampTime 0) (waitingToRamp .tuned none)
    u.seq.cur.state = .admitting ∧ (u.bus.intent.map (·.intended)) = some 645 := by decide +kernel

def retryTune : State := waitingToRamp .none (some { kind := .tune, due := 100000 })

theorem witness_RefusedTuneIsHandedAgain :
    retryTune.Calm ∧ retryTune.seq.cur.state = .tuning ∧ retryTune.seq.cur.retry = some { kind := .tune, due := 100000 }
      ∧ retryTune.link.state = .up ∧ retryTune.link.localFlag = false ∧ retryTune.link.faultCode = 0
      ∧ retryTune.link.op = .none ∧ retryTune.pres.join ≠ .disabled ∧ retryTune.mat.onlyClosed 3 = true
      ∧ retryTune.mat.active = none ∧ (ownHeld retryTune.map).map (·.1) = some 3
      ∧ ({ retryTune with link := Link.reset } : State).link.state ≠ .up := by
  refine ⟨calm _ (by decide), ?_⟩; decide

/-- R175, 10.11: a refused Tune is handed again at SETTLED itself, before its 1 000 ms have passed. -/
theorem test_settled_tunes :
    let s := waitingToRamp .settling (some { kind := .tune, due := 101000 })
    (after (.rfPresentInactive 0) { s with rfPresent := true }).link.op = .tuning
      ∧ (after (.rfPresentInactive 0) { s with rfPresent := true }).seq.cur.retry = none := by decide +kernel

/-- R161: a step that is held and no longer fits is not taken; the highest that fits is, and without one the unit waits. -/
theorem test_chooseStep :
    let s (others : Nat) : State := { base with psu := { base.psu with
      request := some { occ := occ.key, terminal := 3, carrier := 250, mode := .am, cls := 1 }, phase := .choose,
      admitted := some 100, announced := 645, table := changeRec base.psu.table 4 fun _ => { current := some others, intent := none } } }
    (s 1300).chooseStep.handed = [.pwAdmitted 71 645 177] ∧ (s 1880).chooseStep.psu.phase = .wait := by decide +kernel

/-- R144, R137: TUNE 6 000 kHz AM is 01 17 70 00 and a check byte; PERMIT is on and 90 s are allowed. -/
theorem test_sequencerRetry :
    let u := after (.sequencerRetry 0) retryTune
    u.link.permit = true ∧ u.link.tuneDeadline = some 190000
      ∧ (u.link.out.map fun r => r.record.bytes) = [[1, 23, 112, 0, 120], [2, 4, 250]]
      ∧ (after (.sequencerRetry 99999) { retryTune with now := 99999 }).link.permit = false := by decide +kernel

/-! ## Calendar, and the laws -/

/-- R34, R35: 2000-01-01 was a Saturday; 2000 is a leap year; the last instant. -/
theorem test_calendar :
    dayNumber 2000 1 1 = 0 ∧ weekday 0 = 5 ∧ dayNumber 2000 3 1 = 60 ∧ instantOf 2099 12 31 1439 = 52595999
      ∧ dateOfInstant 52595999 = { year := 2099, month := 12, day := 31, hour := 23, minute := 59 } := by decide +kernel

theorem witness_CalendarTurnsBothWays : validDate 2096 2 29 = true ∧ 1439 < 1440 := by decide

theorem witness_ActivityAgreesWithTheWeek :
    let e : Entry := { number := 1, days := 64, prog := { prog with start := 1380, stop := 60 } }
    e.prog.start < 1440 ∧ e.prog.stop < 1440 ∧ activeAt e 0 59 = true ∧ activeAt e 0 60 = false
      ∧ activeAt e 6 1380 = true := by decide

/-! ## On the air, and after it -/

theorem onTheAir (s : State) (o : Occurrence) (k : Taken)
    (h : (s.handed = [] ∧ s.seq.ending = none ∧ s.seq.cur.release = none ∧ s.seq.cur.state ≠ .awaitTerminal
        ∧ s.seq.nxt.deferred = false)
      ∧ s.seq.armed = true ∧ s.seq.foundOffer = false ∧ s.seq.cur.occ = some o ∧ s.seq.cur.taken = some k
      ∧ s.seq.cur.running = true ∧ s.seq.cur.state = .onAir ∧ s.seq.cur.onAir.isSome = true
      ∧ s.seq.cur.offSince = none ∧ s.seq.cur.spent = none ∧ (ownHeld s.map).map (·.1) = some k.terminal
      ∧ s.pres.join ≠ .disabled ∧ s.link.state ≠ .lost ∧ s.link.localFlag = false ∧ s.link.op = .steady
      ∧ s.link.level ≠ 0 ∧ s.psu.phase = .none ∧ s.psu.pendingLower = none ∧ s.psu.releasePending = false) :
    s.OnAir o k := by
  obtain ⟨h0, h1, h2, h3, h4, h5, h6, h7, h8, h9, h10, h11, h12, h13, h14, h15, h16, h17, h18⟩ := h
  exact ⟨calm s h0, h1, h2, h3, h4, h5, h6, h7, h8, h9, h10, h11, h12, h13, h14, h15, h16, h17, h18⟩

def entryOf (number start stop : Nat) (cands : List Nat) : Entry :=
  { number := number, days := 127, prog := { prog with start := start, stop := stop, cands := cands } }

/-- The occurrence of such an entry of bank A on 2026-01-05. -/
def today (number start stop : Nat) (cands : List Nat) : Occurrence :=
  { source := .bank .a number, number := number, prog := (entryOf number start stop cands).prog,
    start := instantOf 2026 1 5 start, stop := instantOf 2026 1 5 stop }

/-- 10:00 on 2026-01-05: an occurrence is on the air on terminal 3 at 250 kW, a next context stands, and the LIVE bank A
holds some entries. -/
def airing (o : Occurrence) (nxt : Ctx) (entries : List Entry) : State :=
  { clocked broadcasting with
    seq := armed { runs o .onAir 3 with onAir := some 0, admitted := some 100, stands := true } nxt,
    store := { base.store with bankA := { BankData.reset with state := .live, entries := entries } } }

/-- The same state at the time and with the store that a minute boundary leaves to the sequencer. -/
def stored (s : State) : State :=
  { s.atTime 0 with store := ((s.atTime 0).storeMinute (instantOf 2026 1 5 600)).store }

/-- The extra of 31 January, and a station with it on the air on that day. -/
def extraOcc : Occurrence :=
  { source := .extra 7, number := 127, prog := (extraOf putX .am).prog, start := instantOf 2026 1 31 600,
    stop := instantOf 2026 1 31 660 }

def airingExtra : State :=
  let s := airing extraOcc Ctx.reset []
  { s with
    store := (withExtra 7).store, clock := { s.clock with refUtc := some (utcSecondOf 2026 1 31 10 0 0) },
    req := { queue := [dropX 7], serving := false } }

theorem witness_ExtraDropEmptiesTheSlot_onAir :
    let dropped : State := { airingExtra.atTime 0 with
      store := { airingExtra.store with extras := airingExtra.store.extras.set 7 none } }
    airingExtra.OnAir extraOcc (onTerminal 3) ∧ airingExtra.currentEntry.map (·.key) = some extraOcc.key
      ∧ (airingExtra.store.extras.getD (byteAt (dropX 7) 2) none).isSome = true ∧ byteAt (dropX 7) 2 ≤ 7
      ∧ airingExtra.seq.nxt = Ctx.reset ∧ airingExtra.link.ramp = some ⟨250, 100, 250⟩
      ∧ dropped.currentEntry = none ∧ dropped.nextEntry = none := by
  refine ⟨onTheAir _ _ _ (by decide +kernel), ?_⟩; decide +kernel

theorem witness_FirstTimeFrameSetsTheClock_cut :
    let s := airing (today 1 600 660 [3]) Ctx.reset []
    let left : State := { s.atTime 100000 with
      clock := stepped.clock, store := ((s.atTime 100000).storeMinute (instantOf 2026 1 5 600)).store }
    s.OnAir (today 1 600 660 [3]) (onTerminal 3) ∧ s.image = some .accepted ∧ s.pres.join ≠ .isolated
      ∧ s.clock.refUtc = some (utcSecondOf 2026 1 5 10 0 0) ∧ s.clock.refLocal = some 100000
      ∧ s.link.ramp = some ⟨250, 100, 250⟩
      ∧ left.reconvert.currentEntry = none ∧ left.reconvert.nextEntry = none := by
  refine ⟨onTheAir _ _ _ (by decide +kernel), ?_⟩; decide +kernel

/-- R13, R171, R177, R178: the dropped extra and the entry that is gone after a STEP are cut: LEVEL at three quarters. -/
theorem test_cuts :
    let u := after (.extraDrop 0) airingExtra
    let v := after (.timeReceived 100000 (clockFrame 11)) (airing (today 1 600 660 [3]) Ctx.reset [])
    u.log.ring.map (·.body) = [.entryOff (.extra 7) 127 .cut (some 3) (some 100) 0 0]
      ∧ u.bus.reply = some { kind := 4, code := .done, data := [7] }
      ∧ u.link.op = .rampDown ∧ u.link.level = 187 ∧ u.seq.cur.state = .ending
      ∧ v.log.ring.map (·.body)
        = [.timeStep true (utcSecondOf 2026 1 5 10 0 0) 11, .entryOff (.bank .a 1) 1 .cut (some 3) (some 100) 0 0]
      ∧ v.link.op = .rampDown ∧ v.link.level = 187 := by decide +kernel

theorem witness_MinuteBoundaryMakesTheChangeover_ends :
    let s := airing (today 1 540 600 [3]) Ctx.reset []
    let cut := airing (today 1 600 601 [3]) Ctx.reset []
    s.OnAir (today 1 540 600 [3]) (onTerminal 3) ∧ cut.OnAir (today 1 600 601 [3]) (onTerminal 3)
      ∧ (s.atTime 0).minuteDue = true ∧ (s.atTime 0).instant = some (instantOf 2026 1 5 600)
      ∧ (today 1 540 600 [3]).stop ≤ instantOf 2026 1 5 600 ∧ ¬ (today 1 600 601 [3]).stop ≤ instantOf 2026 1 5 600
      ∧ (stored s).currentEntry = none ∧ (stored s).nextEntry = none ∧ s.link.ramp = some ⟨250, 100, 250⟩ := by
  refine ⟨onTheAir _ _ _ (by decide +kernel), onTheAir _ _ _ (by decide +kernel), ?_⟩; decide +kernel

theorem witness_ClockHoldsOverAndEnds_onAir :
    let s := airing (today 1 540 600 [3]) Ctx.reset []
    let e : State := { s with clock := atRangeEnd.clock }
    e.OnAir (today 1 540 600 [3]) (onTerminal 3) ∧ (e.atTime 101000).utc = some 3155760000
      ∧ e.seq.nxt = Ctx.reset ∧ e.link.ramp = some ⟨250, 100, 250⟩ := by
  refine ⟨onTheAir _ _ _ (by decide +kernel), ?_⟩; decide +kernel

/-- R33, R171: the occurrence on the air ends CUT. -/
theorem test_clockRangeEnd_onAir :
    let u := after (.clockRangeEnd 101000) { airing (today 1 540 600 [3]) Ctx.reset [] with clock := atRangeEnd.clock }
    u.log.ring.map (fun r => (r.unset, r.stamp, r.body))
        = [(true, 101, .entryOff (.bank .a 1) 1 .cut (some 3) (some 100) 0 0)]
      ∧ u.link.op = .rampDown := by decide +kernel

/-- Entry 2 follows entry 1 at 10:00 on the same terminal. -/
def continuing : State :=
  airing (today 1 540 600 [3])
    { Ctx.reset with
      occ := some (today 2 600 660 [3]), state := .awaitTerminal,
      taken := some { terminal := 3, how := .extended, suspect := false } }
    [entryOf 1 540 600 [3], entryOf 2 600 660 [3]]

theorem witness_MinuteBoundaryMakesTheChangeover_continues :
    continuing.OnAir (today 1 540 600 [3]) (onTerminal 3) ∧ (continuing.atTime 0).minuteDue = true
      ∧ (continuing.atTime 0).instant = some (instantOf 2026 1 5 600)
      ∧ (stored continuing).currentEntry = some (today 2 600 660 [3]) ∧ (stored continuing).nextEntry = none
      ∧ (today 2 600 660 [3]).key ≠ (today 1 540 600 [3]).key
      ∧ continuing.seq.nxt.taken = some { terminal := (onTerminal 3).terminal, how := .extended, suspect := false }
      ∧ continuing.seq.cur.admitted = some continuing.seq.nxt.cap := by
  refine ⟨onTheAir _ _ _ (by decide +kernel), ?_⟩; decide +kernel

/-- Entry 1 runs until 10:01, and entry 2 follows on terminal 7. -/
def following : State :=
  let s := airing (today 1 540 601 [3]) Ctx.reset [entryOf 1 540 601 [3], entryOf 2 601 660 [7]]
  { s with claim := Claim.reset }

theorem witness_MinuteBoundaryMakesTheChangeover_prepares :
    let s := following
    s.OnAir (today 1 540 601 [3]) (onTerminal 3) ∧ (s.atTime 0).minuteDue = true
      ∧ (stored s).currentEntry.map (·.key) = some (today 1 540 601 [3]).key
      ∧ (stored s).nextEntry = some (today 2 601 660 [7]) ∧ s.mat.row 3 = some (point 3 .closed)
      ∧ s.claim.phase = .idle ∧ s.pres.join = .joined ∧ s.bus.claim = none
      ∧ (stored s).localSecondOf (instantOf 2026 1 5 601) = some 160
      ∧ (stored s).localSecondOf (instantOf 2026 1 5 660) = some 3700
      ∧ isSuspect s.map 7 (max s.now 0 / 1000) = false
      ∧ State.usable { s.atTime 0 with claim := { s.claim with since := 160, till := 3700 } } (today 2 601 660 [7]) 7 = true
      ∧ ownReaching s.map 7 160 = none ∧ ownDedicated s.map s.cfg.station 7 = false := by
  refine ⟨onTheAir _ _ _ (by decide +kernel), ?_⟩; decide +kernel

/-- Nothing runs, and entry 1 waits for terminal 3, booked, with the crosspoint in one position and a drive under way. -/
def beginning (how : HowTaken) (st : BookState) (m : Matrix) : State :=
  { clocked base with
    map := [row 3 [own st 1 100 (some 3700)], row 7 []], mat := m,
    store := { base.store with bankA := { BankData.reset with state := .live, entries := [entryOf 1 600 660 [3]] } },
    seq := armed Ctx.reset
      { Ctx.reset with
        occ := some (today 1 600 660 [3]), state := .awaitTerminal, stopSec := 3700,
        taken := some { terminal := 3, how := how, suspect := false } } }

theorem witness_MinuteBoundaryMakesTheChangeover_begins :
    let s := beginning .claimed .booked base.mat
    s.Calm ∧ (s.atTime 0).minuteDue = true ∧ (stored s).currentEntry = some (today 1 600 660 [3])
      ∧ (stored s).nextEntry = none ∧ s.seq.cur.occ = none ∧ s.seq.cur.state = .idle
      ∧ ownHeld s.map = none ∧ ownBooked s.map = some (3, own .booked 1 100 (some 3700))
      ∧ rowOf s.map 3 = some (row 3 [own .booked 1 100 (some 3700)]) ∧ RowsDistinct s.map
      ∧ 3 ∈ s.mat.rows.map (·.terminal) ∧ s.mat.active = none ∧ s.link.permit = false ∧ s.rfPresent = false
      ∧ (∀ z ∈ s.mat.rows, z.pos = some .opened ∧ z.sense = some .free ∧ z.drive = .idle) ∧ OwnOnce s.map := by
  refine ⟨calm _ (by decide), by decide +kernel, by decide +kernel, by decide +kernel, by decide, by decide, by decide,
    by decide, by decide, ?_, by decide, by decide, by decide, by decide, by decide, ?_⟩
  · unfold RowsDistinct; decide
  · unfold OwnOnce; decide

/-- R176: entry 2 goes on at the running carrier. R171: at its stop instant entry 1 is COMPLETED. R173: entry 2 is
searched for. R174: the crosspoint of a booked terminal is driven toward CLOSED. -/
theorem test_minuteBoundary_sequencer :
    (after (.minuteBoundary 0) continuing).log.ring.map (·.body)
        = [.entryOff (.bank .a 1) 1 .completed (some 3) (some 100) 0 0, .entryOn (.bank .a 2) 2 (some 3) (some 100) 250 0]
      ∧ (after (.minuteBoundary 0) continuing).link.level = 250
      ∧ (after (.minuteBoundary 0) (airing (today 1 540 600 [3]) Ctx.reset [])).log.ring.map (·.body)
        = [.entryOff (.bank .a 1) 1 .completed (some 3) (some 100) 0 0]
      ∧ ((after (.minuteBoundary 0) following).bus.claim.map fun f => (f.terminal, f.since, f.till)) = some (7, 160, 3700)
      ∧ ((after (.minuteBoundary 0) (beginning .claimed .booked base.mat)).mat.active.map fun d =>
          (d.terminal, d.direction, d.stop)) = some (3, .close, some 3700) := by decide +kernel

/-- R174: a close of the terminal that was begun for another occurrence is not waited for: C is SWITCHING, its Close is
answered BUSY, and is handed again later. -/
theorem test_switching_behind_close :
    let u := after (.minuteBoundary 0)
      (beginning .extended .held { switching.mat with openWork := [], active := switching.mat.active })
    u.seq.cur.state = .switching ∧ u.seq.cur.closeAgain = true
      ∧ (u.mat.active.map fun d => (d.terminal, d.direction)) = some (3, .close) := by decide +kernel

/-- Entry 1 waits in AWAIT-TERMINAL after WAITING while its close drives. -/
def closingAfterWaiting : State :=
  { beginning .claimed .held { switching.mat with openWork := [], active := switching.mat.active } with
    seq := armed { runs (today 1 600 660 [3]) .awaitTerminal 3 with stopSec := 3700, closeWaits := true } Ctx.reset }

/-- R174: after ABANDONED nothing is handed until the reversal has read OPEN; then the booking is given back. -/
theorem test_abandoned_after_waiting :
    let u := after (.noticeReceived 100000 (frame 4 1 100000 [3, 0, 0, 120, 3, 1, 0, 60, 255, 3, 0, 0, 0, 0])) closingAfterWaiting
    let v := after (.matrixScan 0 bothOpen) { u with mat := { u.mat with scanFrom := some 50000 } }
    (u.mat.active.map fun d => (d.terminal, d.purpose)) = some (3, .reversal) ∧ u.mat.pendingClose = none
      ∧ u.seq.cur.state = .awaitTerminal ∧ ownHeld v.map = none ∧ v.mat.pendingClose = none
      ∧ (v.bus.free.map (·.terminal)) = some 3 := by decide +kernel

/-- R172: an occurrence on the air that a step of the clock has made early gets its ENTRY-OFF at LOCAL. -/
theorem test_reportReceived_early :
    (after (.reportReceived 0 (reportWith 8 0)) (airing (today 1 601 660 [3]) Ctx.reset [])).log.ring.map (·.body)
      = [.entryOff (.bank .a 1) 1 .local_ (some 3) (some 100) 0 0] := by decide +kernel

/-- R171, rows 1 and 6: entry 1 has ended LOST and entry 2 is prepared early; after a step of the clock to before 10:00 and
back again entry 1 is still spent, and entry 2 goes on being prepared. -/
theorem test_spent_stays :
    let s := { airing (today 2 601 660 [7]) Ctx.reset [entryOf 1 600 601 [3], entryOf 2 601 660 [7]] with
      seq := armed { Ctx.reset with
        occ := some (today 2 601 660 [7]), state := .claiming, spent := some (today 1 600 601 [3]).key } Ctx.reset }
    (after (.minuteBoundary 0) s).seq.cur.occ = some (today 2 601 660 [7])
      ∧ (after (.minuteBoundary 0) s).seq.cur.spent = some (today 1 600 601 [3]).key
      ∧ (after (.minuteBoundary 60000) (after (.minuteBoundary 0) s)).seq.cur.spent
        = some (today 1 600 601 [3]).key := by decide +kernel

/-- The carrier of `broadcasting`, with RF present, or at a station that has not been armed. -/
def carried7 (unarmed : Bool) : State :=
  { broadcasting with
    rfPresent := true, mat := { broadcasting.mat with scanFrom := some 50000 },
    seq := if unarmed then Sequencer.reset else broadcasting.seq,
    claim := if unarmed then Claim.reset else broadcasting.claim }

theorem witness_ScanIsRead_permit :
    (carried7 true).Unarmed ∧ (carried7 false).Calm ∧ (carried7 false).link.permit = true
      ∧ (carried7 false).link.opTerminal = some 3 ∧ (carried7 false).mat.active = none
      ∧ (carried7 false).link.state = .up ∧ (carried7 false).link.localFlag = false
      ∧ (carried7 false).psu.pendingLower = none ∧ (carried7 false).psu.releasePending = false
      ∧ 3 ∈ (carried7 false).mat.rows.map (·.terminal) ∧ (∀ y ∈ (carried7 false).mat.rows, y.drive ≠ .jammed)
      ∧ bothOpen.closedMade.getLsbD 3 = false ∧ (carried7 false).seq.cur.terminal = some 3
      ∧ (carried7 false).seq.cur.state = .onAir := ⟨unarmed _ rfl, calm _ (by decide), by decide⟩

/-- R143, R180: the crosspoint that moved takes PERMIT with it; one that reads CLOSED beside another not OPEN is the other
break. -/
theorem test_matrixScan_permit :
    let u := after (.matrixScan 0 bothOpen) (carried7 false)
    let v := after (.matrixScan 0 { openMade := 0, closedMade := 8, senseMade := 8 }) (carried7 false)
    u.link.permit = false ∧ u.link.op = .settling ∧ u.seq.cur.state = .tuning ∧ u.seq.cur.brk = some .permitMove
      ∧ u.link.out.map (·.record) = [.level 0, .rf false] ∧ v.seq.cur.brk = some .permitOther := by decide +kernel

/-- PERMIT stands on terminal 3 while the carrier is on. -/
def onAir : State := { broadcasting with pending := [.frameCrcBad 0] }

theorem witness_EveryStepKeepsTheInterlock :
    Interlock onAir ∧ PermitNamed onAir ∧ CarrierLaw onAir.link onAir.cfg.rating ∧ onAir.link.permit = true ∧ step onAir = .next (after (.frameCrcBad 0) { onAir with pending := [] }) := by
  refine ⟨⟨⟨?_, fun _ => ⟨by decide, by decide, by decide, by decide, by decide, ⟨3, by decide, by decide⟩⟩⟩, ?_⟩,
    fun _ => Or.inl (by decide), ⟨by decide, fun _ => by decide, by decide, fun x h => by cases h⟩, by decide, rfl⟩
  · intro d hd; exact nomatch (show (none : Option Drive) = some d from hd)
  · intro d hd; exact nomatch (show (none : Option Drive) = some d from hd)

theorem witness_EveryStepKeepsTheLogNumbered :
    logged.log.Numbered ∧ logged.log.ring.length = 1 ∧ step logged = .next logged.tick :=
  ⟨⟨by decide, by decide⟩, by decide, rfl⟩

theorem announced_none (s : State)
    (h : s.psu.localMark = false ∧ s.psu.admitted = none ∧ s.psu.announced = s.cfg.standby) : Announced s where
  local_ := fun e => by rw [h.1] at e; cases e
  admitted := fun _ k e => by rw [h.2.1] at e; cases e
  none_ := fun _ _ => h.2.2

theorem witness_EveryStepKeepsTheCapacities :
    Capacities known ∧ OneLive season.store ∧ Capacities season ∧ OwnOnce holding.map ∧ Announced season
      ∧ step season = .next season.tick := by
  refine ⟨⟨⟨by decide, by decide, by decide, by decide⟩, by unfold SlotsWithin; decide, by unfold SlotsOrdered; decide,
    by unfold RowsDistinct; decide, by decide⟩, by unfold OneLive; decide, ⟨⟨by decide, by decide, by decide, by decide⟩,
    by unfold SlotsWithin; decide, by unfold SlotsOrdered; decide, by unfold RowsDistinct; decide, by decide⟩,
    by unfold OwnOnce; decide, announced_none _ (by decide), rfl⟩

end Sys2Proof.Tests
end

/-! SUPPORT and PROOF. O13: a request that its service only answers (R187), and ENTRY-GET by it (R14). -/

namespace Sys2Proof.Machine

/-! ## A request that is only answered -/

/-- R186, R187: outside DISABLED the head of the queue is served by the command of its kind. -/
theorem State.headOf_of_queue {s : State} {p : List Byte} {rest : List (List Byte)} (hj : s.pres.join ≠ .disabled)
    (hq : s.req = { queue := p :: rest, serving := false }) : s.headOf (requestKind p) = some p := by
  unfold State.headOf
  simp [hq, hj]

theorem State.serve_of_headOf {s : State} {kind : Nat} {service : State → List Byte → State} {p : List Byte}
    (hp : s.headOf kind = some p) :
    s.serve kind service = service { s with req := { s.req with serving := true } } p := by
  unfold State.serve
  rw [hp]

/-- R187: a request whose service places a REPLY and nothing else leaves its mark in the queue and the REPLY slot only;
nothing is handed out. -/
theorem State.run_serve_of_reply {s : State} {t kind : Nat} {service : State → List Byte → State} {p : List Byte}
    {r : Reply} (hh : s.handed = []) (hp : (s.atTime t).headOf kind = some p)
    (hr : service { s.atTime t with req := { s.req with serving := true } } p
      = State.reply { s.atTime t with req := { s.req with serving := true } } r) :
    (s.run t fun a => a.serve kind service)
      = { s.atTime t with req := { s.req with serving := true }, bus := { s.bus with reply := some r } } := by
  have served : (s.atTime t).serve kind service
      = State.reply { s.atTime t with req := { s.req with serving := true } } r :=
    (State.serve_of_headOf hp).trans hr
  have quiet : ((s.atTime t).serve kind service).handed = [] := by simp [served, hh]
  rw [State.run_quiet quiet, served]
  rfl

/-! ## The four answers of ENTRY-GET -/

section
variable {s : State} {p : List Byte} {bk : Bank}

theorem State.entryGet_of_no_bank (hb : bankOfCode (byteAt p 2) = none) :
    s.entryGet p = s.reply { kind := 5, code := .range, data := [1, 0] } := by
  unfold State.entryGet
  rw [hb]
  rfl

theorem State.entryGet_of_number_above (hb : bankOfCode (byteAt p 2) = some bk) (hn : 127 < byteAt p 3) :
    s.entryGet p = s.reply { kind := 5, code := .range, data := [2, 0] } := by
  unfold State.entryGet
  rw [hb]
  exact if_pos hn

theorem State.entryGet_of_held {e : Entry} (hb : bankOfCode (byteAt p 2) = some bk) (hn : ¬ 127 < byteAt p 3)
    (he : (s.store.bank bk).entry (byteAt p 3) = some e) :
    s.entryGet p = s.reply { kind := 5, code := .done, data := entryBytes bk e } := by
  unfold State.entryGet
  rw [hb]
  refine (if_neg hn).trans ?_
  rw [he]
  rfl

theorem State.entryGet_of_not_held (hb : bankOfCode (byteAt p 2) = some bk) (hn : ¬ 127 < byteAt p 3)
    (he : (s.store.bank bk).entry (byteAt p 3) = none) :
    s.entryGet p = s.reply { kind := 5, code := .gone, data := [] } := by
  unfold State.entryGet
  rw [hb]
  refine (if_neg hn).trans ?_
  rw [he]

end

/-! ## The obligation -/

/-- R14: outside DISABLED the command ENTRY_GET answers what its service answers at the command's time. -/
theorem exec_entryGet_of_reply {s : State} {t : Nat} {p : List Byte} {rest : List (List Byte)} {r : Reply}
    (hh : s.handed = []) (hj : s.pres.join ≠ .disabled) (hq : s.req = { queue := p :: rest, serving := false })
    (hk : requestKind p = 5)
    (hr : State.entryGet { s.atTime t with req := { s.req with serving := true } } p
      = State.reply { s.atTime t with req := { s.req with serving := true } } r) :
    exec (.entryGet t) s = .next { s.atTime t with
      req := { s.req with serving := true }, bus := { s.bus with reply := some r } } := by
  have head : (s.atTime t).headOf 5 = some p := hk ▸ State.headOf_of_queue (s := s.atTime t) hj hq
  exact congrArg Host.Outcome.next (State.run_serve_of_reply hh head hr)

/-- Settles O13, by the order of R14: the bank field, then the number, then the entry set. -/
theorem entryGetReadsTheBank : Obligations.EntryGetReadsTheBank := by
  unfold Obligations.EntryGetReadsTheBank
  intro s t p rest hh hj hq hk
  apply exec_entryGet_of_reply hh hj hq hk
  cases hb : bankOfCode (byteAt p 2) with
  | none => exact State.entryGet_of_no_bank hb
  | some bk =>
    by_cases hn : 127 < byteAt p 3
    · simpa only [hn, if_true] using State.entryGet_of_number_above hb hn
    · simp only [hn, if_false]
      cases he : (s.store.bank bk).entries.find? (·.number == byteAt p 3) with
      | some e => exact State.entryGet_of_held hb hn he
      | none => exact State.entryGet_of_not_held hb hn he

end Sys2Proof.Machine

/-! SUPPORT and PROOF. O14: LOG-GET finds a number in a numbered ring by its distance from the newest (R184, R185). -/

namespace Sys2Proof.Machine

/-! ## A numbered ring -/

theorem wordAt_lt (p : List Byte) (n : Nat) : wordAt p n < 65536 := by
  have high : byteAt p n < 256 := (p.getD (n - 1) 0).isLt
  have low : byteAt p (n + 1) < 256 := (p.getD (n + 1 - 1) 0).isLt
  unfold wordAt
  omega

/-- R184: at most 64 of the 65536 numbers are in use, so a number stands at one place of the ring at most: at its
distance from the newest record. -/
theorem AirLog.Numbered.seq_eq_iff {l : AirLog} (h : l.Numbered) (x : BitVec 16) {i : Nat} (hi : i < l.ring.length) :
    l.ring[i].seq = x ↔ i + (l.nextSeq - 1 - x).toNat + 1 = l.ring.length := by
  obtain ⟨hlen, hseq⟩ := h
  unfold ringCapacity at hlen
  rw [hseq i hi]
  bv_omega

theorem AirLog.Numbered.newest_seq {l : AirLog} (h : l.Numbered) {r : LogRecord} (hr : l.ring.getLast? = some r) :
    r.seq = l.nextSeq - 1 := by
  rw [List.getLast?_eq_getElem?] at hr
  obtain ⟨hi, rfl⟩ := List.getElem?_eq_some_iff.mp hr
  rw [h.seq_eq_iff, BitVec.sub_self, BitVec.toNat_zero]
  omega

/-- R185 in a ring of R184: the place that LOG-GET computes from the newest number is the place of the record. -/
theorem AirLog.Numbered.get_eq_find? {l : AirLog} (h : l.Numbered) (x : BitVec 16) :
    l.get x = l.ring.find? (·.seq == x) := by
  unfold AirLog.get
  cases hr : l.ring.getLast? with
  | none =>
    rw [List.getLast?_eq_none_iff.mp hr]
    rfl
  | some newest =>
    simp only [h.newest_seq hr]
    split
    case isTrue held =>
      have place : l.ring.length - 1 - (l.nextSeq - 1 - x).toNat < l.ring.length := by omega
      rw [List.getElem?_eq_getElem place, eq_comm, List.find?_eq_some_iff_getElem]
      refine ⟨beq_iff_eq.mpr ((h.seq_eq_iff x place).mpr (by omega)), _, place, rfl, fun j older => ?_⟩
      have other : l.ring[j].seq ≠ x := mt (h.seq_eq_iff x (by omega)).mp (by omega)
      simpa using other
    case isFalse gone =>
      rw [eq_comm, List.find?_eq_none]
      intro r hmem
      obtain ⟨i, hi, rfl⟩ := List.getElem_of_mem hmem
      have other : l.ring[i].seq ≠ x := mt (h.seq_eq_iff x hi).mp (by omega)
      simpa using other

/-- The two-byte field of a request names a number of the ring itself, not one modulo 65536. -/
theorem AirLog.Numbered.get_wordAt {l : AirLog} (h : l.Numbered) (p : List Byte) (n : Nat) :
    l.get (BitVec.ofNat 16 (wordAt p n)) = l.ring.find? fun r => r.seq.toNat == wordAt p n := by
  have same (r : LogRecord) : (r.seq == BitVec.ofNat 16 (wordAt p n)) = (r.seq.toNat == wordAt p n) := by
    rw [Bool.eq_iff_iff, beq_iff_eq, beq_iff_eq, ← BitVec.toNat_inj, BitVec.toNat_ofNat,
      Nat.mod_eq_of_lt (wordAt_lt p n)]
  simp only [h.get_eq_find?, same]

/-! ## The two answers of LOG-GET -/

/-- R185: what LOG-GET answers, by what the ring answers. -/
theorem State.logGet_eq_reply (s : State) (p : List Byte) :
    s.logGet p = s.reply
      (match s.log.get (BitVec.ofNat 16 (wordAt p 2)) with
        | some r => { kind := 6, code := .done, data := logrecBytes r }
        | none => { kind := 6, code := .gone, data := [] }) := by
  unfold State.logGet
  cases s.log.get (BitVec.ofNat 16 (wordAt p 2)) <;> rfl

/-- Settles O14, by the place of a number in a numbered ring. -/
theorem logGetReadsTheRing : Obligations.LogGetReadsTheRing := by
  unfold Obligations.LogGetReadsTheRing
  intro s t p rest hh hj hn hq hk
  have head : (s.atTime t).headOf 6 = some p := hk ▸ State.headOf_of_queue (s := s.atTime t) hj hq
  rw [← hn.get_wordAt]
  exact congrArg Host.Outcome.next (State.run_serve_of_reply hh head (State.logGet_eq_reply _ p))

end Sys2Proof.Machine

/-! SUPPORT and PROOF. O15: STATUS-GET is served in every join state, and its data are the held values (R188, R48). -/

namespace Sys2Proof.Machine

/-- R189: STATUS-GET is served in every join state, DISABLED too. -/
theorem State.headOf_of_statusGet {s : State} {p : List Byte} {rest : List (List Byte)}
    (hq : s.req = { queue := p :: rest, serving := false }) (hk : requestKind p = 7) : s.headOf 7 = some p := by
  unfold State.headOf
  simp [hq, hk]

/-- R188: neither the time of the command nor the mark in the queue is among the values that STATUS-GET reads. -/
theorem State.statusBytes_served (s : State) (t : Nat) (q : Requests) :
    State.statusBytes { s.atTime t with req := q } = s.statusBytes := rfl

/-- R188: STATUS-GET at the head is answered DONE with the held values. -/
theorem exec_statusGet {s : State} {t : Nat} {p : List Byte} {rest : List (List Byte)} (hh : s.handed = [])
    (hq : s.req = { queue := p :: rest, serving := false }) (hk : requestKind p = 7) :
    exec (.statusGet t) s = .next { s.atTime t with
      req := { s.req with serving := true },
      bus := { s.bus with reply := some { kind := 7, code := .done, data := s.statusBytes } } } := by
  have head : (s.atTime t).headOf 7 = some p := State.headOf_of_statusGet hq hk
  have answer : State.statusGet { s.atTime t with req := { s.req with serving := true } }
      = State.reply { s.atTime t with req := { s.req with serving := true } }
          { kind := 7, code := .done, data := s.statusBytes } := by
    rw [← s.statusBytes_served t { s.req with serving := true }]
    rfl
  exact congrArg Host.Outcome.next (State.run_serve_of_reply hh head answer)

theorem sourceNumber_of_bank {src : Option Source} {bk : Bank} {n : Nat} (free : Nat) (h : src = some (.bank bk n)) :
    sourceNumber free src = byteOf n := by
  rw [h]
  rfl

theorem sourceNumber_of_extra {src : Option Source} {slot : Nat} (free : Nat) (h : src = some (.extra slot)) :
    sourceNumber free src = byteOf slot := by
  rw [h]
  rfl

/-- Settles O15: byte 6 is the source's own number, and the free value with no source. -/
theorem statusGetAnswersTheHeldValues : Obligations.StatusGetAnswersTheHeldValues := by
  unfold Obligations.StatusGetAnswersTheHeldValues
  intro s t p rest hh hq hk
  exact ⟨sourceNumber s.freeCount (s.seq.cur.occ.map (·.source)), fun _ _ => sourceNumber_of_bank s.freeCount,
    fun _ => sourceNumber_of_extra s.freeCount, exec_statusGet hh hq hk⟩

end Sys2Proof.Machine

/-! SUPPORT and PROOF. O1 to O5, O21, O38, O58: every command but RESET is its rule at its time (R25), and what the rules
of all commands keep (R122, R184, R191). -/

namespace Sys2Proof.Machine

/-! ## The rule of each command -/

/-- The rule of a command: what it does once local time has moved on and before the hand-outs are taken. -/
def ruleOf : Instr → State → State
  | .reset => id
  | .handOver _ image scan => fun s => s.handOver image scan
  | .bankOpen _ => fun s => s.serve 0 State.bankOpen
  | .entryPut _ => fun s => s.serve 1 State.entryPut
  | .bankClose _ => fun s => s.serve 2 State.bankClose
  | .extraPut _ => fun s => s.serve 3 State.extraPut
  | .extraDrop _ => fun s => s.serve 4 State.extraDrop
  | .entryGet _ => fun s => s.serve 5 State.entryGet
  | .logGet _ => fun s => s.serve 6 State.logGet
  | .statusGet _ => fun s => s.serve 7 fun s _ => s.statusGet
  | .serialMemoryWriteEnd _ kept => fun s => s.endWrite kept
  | .busIdleOffer _ => State.offer
  | .arbitrationLost _ => fun s => s.endAttempt s.bus.loseArbitration
  | .attemptSucceeded _ => fun s => s.endAttempt s.bus.succeed
  | .attemptFailed _ => fun s => s.endAttempt s.bus.fail
  | .frameCrcBad _ => id
  | .denyReceived _ f => fun s => s.receive .deny f
  | .freeReceived _ f => fun s => s.receive .free f
  | .claimReceived _ f => fun s => s.receive .claim f
  | .intentReceived _ f => fun s => s.receive .intent f
  | .noticeReceived _ f => fun s => s.receive .notice f
  | .faultReceived _ f => fun s => s.receive .fault f
  | .timeReceived _ f => fun s => s.receive .time f
  | .requestReceived _ f => fun s => s.receive .request f
  | .otherFrameReceived _ logrec f => fun s => s.receive (if logrec then .logrec else .reply) f
  | .minuteBoundary _ => State.boundaryIfDue
  | .holdoverExpiry _ => fun s => if s.holdoverDue then s.enterHoldover else s
  | .clockRangeEnd _ => fun s => if s.rangeEnded then s.endRange else s
  | .listeningTimerExpiry _ => fun s => if s.listeningDue then s.changeJoin .learning .timer else s
  | .learningTimerExpiry _ => fun s => if s.learningDue then s.changeJoin .joined .timer else s
  | .silenceDeadline _ => fun s => if s.silenceDue then s.changeJoin .isolated .silence else s
  | .noticePeriod _ => fun s => if s.periodDue then s.placeNotice.emit [.noticePlaced] else s
  | .noticePendingDue _ => fun s => if s.noticePendingDue then s.placeNotice else s
  | .bookingAging _ => State.ageMap
  | .bookedExpiry _ => State.expireMap
  | .suspectExpiry _ => State.expireSuspects
  | .matrixScan _ scan => fun s => if s.scansTaken then s.takeScan scan else s
  | .driveTimeout _ => State.timeOutDrive
  | .recoveryDriveTimeout _ => State.timeOutRecovery
  | .rfPresentActive _ => State.rfActive
  | .rfPresentInactive _ => State.rfInactive
  | .reportReceived _ bytes => fun s => s.reportIn bytes
  | .txRecordDiscarded _ _ => id
  | .linkLossDeadline _ => fun s => if s.lossDue then s.loseLink else s
  | .tuneDeadline _ => fun s => if s.tuneDue then s.failTune true else s
  | .rampRungDue _ => fun s => if s.rungDue .rampUp then s.nextRung else s
  | .rampDownRungDue _ => fun s => if s.rungDue .rampDown then s.nextDownRung else s
  | .tripAsserted _ => State.tripIn
  | .tripDeasserted _ => State.tripOut
  | .tripWindowExpiry _ => fun s => if s.tripWindowDue then s.endTripWindow else s
  | .recycleTime _ => State.recycle
  | .intentWindowEnd _ => fun s => if s.intentWindowDue then s.endIntentWindow else s
  | .backoffEnd _ => fun s => if s.backoffDue then s.endBackoff else s
  | .intentExpiry _ => fun s => if s.intentsDue then s.expireIntents else s
  | .claimWindowEnd _ => fun s => if s.claimWindowDue then s.endClaimWindow else s
  | .claimRetry _ => fun s => if s.claimRetryDue then s.retryWalk else s
  | .claimWatch _ => State.watchSecond
  | .rampTime _ => State.rampTimeComes
  | .sequencerRetry _ => fun s => if s.retryDue then s.retryNow else s
  | .unknownKindFrameReceived _ _ _ => id

/-- R25: a command that carries a time is its rule at that time. -/
theorem exec_eq_run {c : Instr} {u : Nat} (h : c.time = some u) (s : State) :
    exec c s = .next (s.run u (ruleOf c)) := by
  cases c <;> cases h <;> rfl

/-- RESET alone carries no time. -/
theorem time_eq_none_iff {c : Instr} : c.time = none ↔ c = .reset := by
  cases c <;> simp [Instr.time]

/-! ## The rules keep the laws -/

theorem Kept.ite {s a b : State} {p : Prop} [Decidable p] (ha : Kept s a) (hb : Kept s b) :
    Kept s (if p then a else b) := by
  split
  · exact ha
  · exact hb

/-- The commands whose rules move no line, take no scan, draw no free value and settle no configuration. -/
def Plain : Instr → Bool
  | .reset => false
  | .handOver _ _ _ => false
  | .busIdleOffer _ => false
  | .matrixScan _ _ => false
  | .rfPresentActive _ => false
  | .rfPresentInactive _ => false
  | .tripAsserted _ => false
  | .tripDeasserted _ => false
  | _ => true

theorem Kept.hear {s a : State} (h : Kept s a) (start : Nat) : Kept s (a.hear start) :=
  Kept.takeHeard (h.setBus (b := { a.bus with lastHeard := start }) fun k => { k with }) start

theorem Kept.receive {s a : State} (h : Kept s a) (k : RxKind) (f : RxFrame) : Kept s (a.receive k f) := by
  unfold State.receive State.dispatch
  refine h.ite (Kept.ite (h.hear _) (Kept.ite ?_ ?_))
  · exact Kept.hear (Kept.ite h.takeDuplicate h) _
  · split
    · exact Kept.ite ((h.hear _).emit _) (h.hear _)
    · exact h.hear _

theorem Kept.endAttempt {s a : State} (h : Kept s a) {r : Bus × List Handed} (hr : a.bus.Within → r.1.Within) :
    Kept s (a.endAttempt r) :=
  (h.setBus hr).emit _

theorem Kept.timeOutDrive {s a : State} (h : Kept s a) : Kept s a.timeOutDrive := by
  unfold State.timeOutDrive
  split
  · exact h.ite (h.jam _)
  · exact h

theorem Kept.timeOutRecovery {s a : State} (h : Kept s a) : Kept s a.timeOutRecovery := by
  unfold State.timeOutRecovery
  split
  · exact (h.endRecovery _).ite h
  · exact h

/-- What the rule of a plain command keeps. -/
theorem ruleOf_kept {c : Instr} (hc : Plain c = true) (s : State) : Kept s (ruleOf c s) := by
  have r := Kept.refl s
  cases c with
  | reset => cases hc
  | handOver => cases hc
  | busIdleOffer => cases hc
  | matrixScan => cases hc
  | rfPresentActive => cases hc
  | rfPresentInactive => cases hc
  | tripAsserted => cases hc
  | tripDeasserted => cases hc
  | bankOpen => exact r.serve _ _ fun b p => (Kept.refl b).bankOpen p
  | entryPut => exact r.serve _ _ fun b p => (Kept.refl b).entryPut p
  | bankClose => exact r.serve _ _ fun b p => (Kept.refl b).bankClose p
  | extraPut => exact r.serve _ _ fun b p => (Kept.refl b).extraPut p
  | extraDrop => exact r.serve _ _ fun b p => (Kept.refl b).extraDrop p
  | entryGet => exact r.serve _ _ fun b p => (Kept.refl b).entryGet p
  | logGet => exact r.serve _ _ fun b p => (Kept.refl b).logGet p
  | statusGet => exact r.serve _ _ fun b _ => (Kept.refl b).statusGet
  | serialMemoryWriteEnd _ kept => exact r.endWrite kept
  | arbitrationLost => exact r.endAttempt fun k => k.loseArbitration
  | attemptSucceeded => exact r.endAttempt fun k => k.succeed
  | attemptFailed => exact r.endAttempt fun k => k.fail
  | frameCrcBad => exact r
  | denyReceived _ f => exact r.receive _ f
  | freeReceived _ f => exact r.receive _ f
  | claimReceived _ f => exact r.receive _ f
  | intentReceived _ f => exact r.receive _ f
  | noticeReceived _ f => exact r.receive _ f
  | faultReceived _ f => exact r.receive _ f
  | timeReceived _ f => exact r.receive _ f
  | requestReceived _ f => exact r.receive _ f
  | otherFrameReceived _ _ f => exact r.receive _ f
  | minuteBoundary => exact r.boundaryIfDue
  | holdoverExpiry => exact r.enterHoldover.ite r
  | clockRangeEnd => exact r.endRange.ite r
  | listeningTimerExpiry => exact (r.changeJoin _ _).ite r
  | learningTimerExpiry => exact (r.changeJoin _ _).ite r
  | silenceDeadline => exact (r.changeJoin _ _).ite r
  | noticePeriod => exact (r.placeNotice.emit _).ite r
  | noticePendingDue => exact r.placeNotice.ite r
  | bookingAging => exact (r.withMap fun k => k.age _).ite r
  | bookedExpiry => exact (r.withMap fun k => k.map fun q hq => le_trans (q.drop_slots _) hq).ite r
  | suspectExpiry => exact r.endMarks.ite r
  | driveTimeout => exact r.timeOutDrive
  | recoveryDriveTimeout => exact r.timeOutRecovery
  | reportReceived => exact (r.takeReport _).ite r
  | txRecordDiscarded => exact r
  | linkLossDeadline => exact r.loseLink.ite r
  | tuneDeadline => exact (r.failTune _).ite r
  | rampRungDue => exact r.nextRung.ite r
  | rampDownRungDue => exact r.nextDownRung.ite r
  | tripWindowExpiry => exact r.endTripWindow.ite r
  | recycleTime => exact r.recycle
  | intentWindowEnd => exact r.endIntentWindow.ite r
  | backoffEnd => exact Kept.ite (Kept.chooseStep
    (r.upd rfl rfl rfl rfl rfl rfl rfl rfl rfl rfl rfl rfl rfl rfl rfl rfl rfl rfl rfl)) r
  | intentExpiry => exact Kept.ite (Kept.chooseIfWaiting
    (r.upd rfl rfl rfl rfl rfl rfl rfl rfl rfl rfl rfl rfl rfl rfl rfl rfl rfl rfl rfl)) r
  | claimWindowEnd => exact r.endClaimWindow.ite r
  | claimRetry => exact r.retryWalk.ite r
  | claimWatch => exact r.watchSecond
  | rampTime => exact r.rampTimeComes
  | sequencerRetry => exact r.retryNow.ite r
  | unknownKindFrameReceived => exact r

/-- The laws of Safety.lean that the lemmas `Kept` carry, from one state to another. -/
structure LawsKept (s t : State) : Prop where
  log     : s.log.Numbered → t.log.Numbered
  bus     : s.bus.Within → t.bus.Within
  map     : SlotsWithin s.map → SlotsWithin t.map
  req     : s.req.queue.length ≤ requestCapacity → t.req.queue.length ≤ requestCapacity
  store   : OneLive s.store → OneLive t.store
  lines   : Lines s → Lines t
  closing : ClosesAlone s.mat → ClosesAlone t.mat

theorem LawsKept.trans {s t u : State} (h : LawsKept s t) (k : LawsKept t u) : LawsKept s u :=
  { log := k.log ∘ h.log, bus := k.bus ∘ h.bus, map := k.map ∘ h.map, req := k.req ∘ h.req, store := k.store ∘ h.store,
    lines := k.lines ∘ h.lines, closing := k.closing ∘ h.closing }

theorem KeptCore.laws {s t : State} (h : KeptCore s t) : LawsKept s t :=
  { log := h.log, bus := h.bus, map := h.map, req := h.req, store := h.store, lines := h.lines, closing := h.closing }

theorem LawsKept.atTime (s : State) (t : Nat) : LawsKept s (s.atTime t) :=
  { log := id, bus := id, map := id, req := id, store := id,
    lines := Lines.of_same ⟨rfl, rfl, rfl, rfl, rfl, rfl⟩ (SameMatrix.refl _) rfl, closing := id }

theorem LawsKept.offer (s : State) : LawsKept s s.offer :=
  { log := id, bus := fun k => k.begin_ _ _ _ _, map := id, req := id, store := id,
    lines := Lines.of_same (SameLink.refl _) (SameMatrix.refl _) rfl, closing := id }

/-! ## The lines (R124) -/

/-- R124: RF-PRESENT active leaves no drive running, so that nothing is asked of the lines. -/
theorem rfActive_suspended {s : State} {d : Drive} (h : s.rfActive.mat.active = some d) : d.running = none := by
  obtain ⟨e, -, he⟩ := Option.map_eq_some_iff.mp (show s.mat.active.map _ = some d from h)
  split at he <;> subst he
  · rfl
  · exact Option.not_isSome_iff_eq_none.mp ‹_›

theorem LawsKept.rfActive (s : State) : LawsKept s s.rfActive where
  log := id
  bus := id
  map := id
  req := id
  store := id
  lines h :=
    { driven := fun d hd hr => by simp [rfActive_suspended hd] at hr
      permit := fun hp => by
        have p := h.permit hp
        exact { p with atRest := by simp [State.rfActive, p.atRest], terminal := p.terminal } }
  closing _ d hd hr := by simp [rfActive_suspended hd] at hr

/-- R124: with RF-PRESENT inactive less is asked of the lines. -/
theorem LawsKept.rfGone (s : State) : LawsKept s { s with rfPresent := false } where
  log := id
  bus := id
  map := id
  req := id
  store := id
  lines h := { driven := fun d hd hr => ⟨(h.driven d hd hr).1, rfl⟩, permit := fun hp => { h.permit hp with } }
  closing := id

theorem LawsKept.rfInactive (s : State) : LawsKept s s.rfInactive :=
  (LawsKept.rfGone s).trans (Kept.refl _).trySettle.resumeDrive.laws

/-- No law reads TRIP. -/
theorem LawsKept.setTrip (s : State) (b : Bool) : LawsKept s { s with tripLine := b } :=
  { log := id, bus := id, map := id, req := id, store := id,
    lines := Lines.of_same (SameLink.refl _) (SameMatrix.refl _) rfl, closing := id }

theorem LawsKept.tripIn (s : State) : LawsKept s s.tripIn := by
  unfold State.tripIn
  split
  · exact (Kept.refl s).laws
  · exact (LawsKept.setTrip s true).trans ((Kept.refl _).takeTrip.ite (Kept.refl _)).laws

theorem LawsKept.tripOut (s : State) : LawsKept s s.tripOut :=
  (LawsKept.setTrip s false).trans (Kept.refl _).recycle.laws

/-! ## The hand-over (R192) -/

/-- Time, queue, log, bus, rows and requests: what stands through the hand-over until the link and the banks are settled. -/
structure Stands (s t : State) : Prop where
  now     : t.now = s.now
  pending : t.pending = s.pending
  log     : s.log.Numbered → t.log.Numbered
  bus     : s.bus.Within → t.bus.Within
  map     : t.map = s.map
  req     : t.req = s.req

theorem Stands.refl (s : State) : Stands s s := ⟨rfl, rfl, id, id, rfl, rfl⟩

theorem Stands.trans {s t u : State} (h : Stands s t) (k : Stands t u) : Stands s u :=
  ⟨k.now.trans h.now, k.pending.trans h.pending, k.log ∘ h.log, k.bus ∘ h.bus, k.map.trans h.map, k.req.trans h.req⟩

@[simp] theorem State.writeLog_map (s : State) (b : LogBody) : (s.writeLog b).map = s.map := by
  unfold State.writeLog; split <;> rfl

@[simp] theorem State.writeLog_req (s : State) (b : LogBody) : (s.writeLog b).req = s.req := by
  unfold State.writeLog; split <;> rfl

theorem Stands.writeLog (s : State) (b : LogBody) : Stands s (s.writeLog b) :=
  have k := (Kept.refl s).writeLog b
  ⟨k.now, k.pending, k.log, k.bus, s.writeLog_map b, s.writeLog_req b⟩

theorem Stands.writeStart (s : State) (b : LogBody) : Stands s (s.writeStart b) :=
  ⟨rfl, rfl, fun k => k.writeFirst _ _, fun k => k.writeStart b, rfl, rfl⟩

theorem Stands.settleBank (s : State) (bk : Bank) : Stands s (s.settleBank bk) := by
  unfold State.settleBank
  dsimp only
  split
  · exact ⟨rfl, rfl, id, id, rfl, rfl⟩
  · have w := Stands.writeLog { s with store := s.store.setBank bk (readBack s.cfg s.map bk (s.serial.bank bk)).1 }
      (.bankLost bk ‹Nat› ‹Option Nat›)
    exact ⟨w.now, w.pending, w.log, w.bus, w.map, w.req⟩

theorem Stands.settleBothLive (s : State) : Stands s s.settleBothLive := by
  unfold State.settleBothLive
  split <;> exact ⟨rfl, rfl, id, id, rfl, rfl⟩

theorem Stands.readBanks (s : State) : Stands s s.readBanks :=
  ((Stands.settleBank s .a).trans (Stands.settleBank _ .b)).trans (Stands.settleBothLive _)

/-- R16: whatever was read back, at most one bank is LIVE. -/
theorem oneLive_readBanks (s : State) : OneLive s.readBanks.store := by
  unfold State.readBanks State.settleBothLive
  generalize State.settleBank _ .b = b
  rintro ⟨ha, hb⟩
  split at hb
  · cases hb
  · simp_all

/-- R191: a reach record used has its DEDICATED booking at most. -/
theorem settleReach_slots (r : RawReach) : (settleReach r).row.slots.length ≤ 1 := by
  unfold settleReach
  dsimp only
  split <;> simp

/-- R191: the rows kept are rows of the records used. -/
theorem mem_dropRepeats {kept l : List TermRow} {x : TermRow} (h : x ∈ (dropRepeats kept l).1) : x ∈ kept ∨ x ∈ l := by
  induction l generalizing kept with
  | nil => exact .inl h
  | cons r rest ih =>
    unfold dropRepeats at h
    split at h
    · exact (ih h).imp_right (List.mem_cons_of_mem r)
    · rcases ih h with h | h
      · rcases List.mem_append.mp h with h | h
        · exact .inl h
        · exact .inr (List.mem_singleton.mp h ▸ List.mem_cons_self)
      · exact .inr (List.mem_cons_of_mem r h)

theorem settleImage_slots (r : RawImage) {x : TermRow} (h : x ∈ (settleImage r).reach) : x.slots.length ≤ 1 := by
  rcases mem_dropRepeats h with h | h
  · cases h
  · obtain ⟨q, hq, rfl⟩ := List.mem_map.mp h
    obtain ⟨p, -, rfl⟩ := List.mem_map.mp hq
    exact settleReach_slots p

theorem foundClosed_mapOnly (a : State) (t : Nat) : MapOnly a (a.foundClosed t) := by
  unfold State.foundClosed
  split
  · exact ⟨rfl, rfl, rfl⟩
  · exact enterBooking_mapOnly _ _ _

/-- R134: no drive is active once the own row has been settled. -/
theorem settleFound_atRest (s : State) (reach : List Nat) (scan : Contacts) :
    (s.settleFound reach scan).mat.active = none := by
  unfold State.settleFound
  dsimp only
  split
  · rfl
  · split <;> exact congrArg Matrix.active (foundClosed_mapOnly _ _).mat

/-- Of the laws, those that read neither the matrix nor the link. -/
structure DataKept (s t : State) : Prop where
  now     : t.now = s.now
  pending : t.pending = s.pending
  log     : s.log.Numbered → t.log.Numbered
  bus     : s.bus.Within → t.bus.Within
  map     : SlotsWithin s.map → SlotsWithin t.map
  req     : s.req.queue.length ≤ requestCapacity → t.req.queue.length ≤ requestCapacity
  store   : OneLive s.store → OneLive t.store

theorem DataKept.trans {s t u : State} (h : DataKept s t) (k : DataKept t u) : DataKept s u :=
  ⟨k.now.trans h.now, k.pending.trans h.pending, k.log ∘ h.log, k.bus ∘ h.bus, k.map ∘ h.map, k.req ∘ h.req,
    k.store ∘ h.store⟩

theorem KeptCore.data {s t : State} (h : KeptCore s t) : DataKept s t :=
  ⟨h.now, h.pending, h.log, h.bus, h.map, h.req, h.store⟩

theorem DataKept.setMat (s : State) (m : Matrix) : DataKept s { s with mat := m } := ⟨rfl, rfl, id, id, id, id, id⟩

theorem DataKept.settleFound (s : State) (reach : List Nat) (scan : Contacts) :
    DataKept s (s.settleFound reach scan) := by
  unfold State.settleFound
  dsimp only
  split
  · exact DataKept.setMat s _
  · have f := (DataKept.setMat s { Matrix.reset with
        rows := reach.map fun t => (XRow.fresh t).read scan, scanFrom := some s.now }).trans
      ((Kept.refl _).foundClosed ‹Nat›).data
    split
    · exact f.trans (DataKept.setMat _ _)
    · exact f

/-- With PERMIT off and no drive nothing is asked of the lines. -/
theorem Lines.of_rest {s : State} (hp : s.link.permit = false) (ha : s.mat.active = none) : Lines s where
  driven d hd := by simp [ha] at hd
  permit h := by simp [hp] at h

theorem ClosesAlone.of_rest {m : Matrix} (ha : m.active = none) : ClosesAlone m := by
  intro d hd
  simp [ha] at hd

theorem acceptImage_laws (s : State) (r : RawImage) (scan : Contacts) :
    LawsKept s (s.acceptImage (settleImage r) scan) ∧ (s.acceptImage (settleImage r) scan).now = s.now
      ∧ (s.acceptImage (settleImage r) scan).pending = s.pending := by
  unfold State.acceptImage
  dsimp only
  generalize LogBody.start _ _ _ _ = start
  have written := (Stands.writeStart { s with
    image := some .accepted, cfg := (settleImage r).cfg, map := (settleImage r).reach } start).trans (Stands.readBanks _)
  have live := oneLive_readBanks
    (State.writeStart { s with image := some .accepted, cfg := (settleImage r).cfg, map := (settleImage r).reach } start)
  generalize State.readBanks _ = b at written live
  have found := DataKept.settleFound b ((settleImage r).reach.map (·.number)) scan
  have rest := settleFound_atRest b ((settleImage r).reach.map (·.number)) scan
  generalize b.settleFound _ scan = c at found rest
  have slots : SlotsWithin b.map := fun x hx =>
    (settleImage_slots r (written.map.subst (motive := (x ∈ ·)) hx)).trans (by decide)
  have joined := (Kept.refl c.takeHandOver).writeLog (.join .listening .listening .start)
  refine ⟨?_, joined.now.trans (found.now.trans written.now), joined.pending.trans (found.pending.trans written.pending)⟩
  exact
    { log := fun k => joined.log (found.log (written.log k)), bus := fun k => joined.bus (found.bus (written.bus k)),
      map := fun _ => joined.map (found.map slots), req := fun k => joined.req (found.req (by rw [written.req]; exact k)),
      store := fun _ => joined.store (found.store live), lines := fun _ => joined.lines (Lines.of_rest rfl rest),
      closing := fun _ => joined.closing (ClosesAlone.of_rest rest) }

theorem rejectImage_laws (s : State) (result : ImageResult) :
    LawsKept s (s.rejectImage result) ∧ (s.rejectImage result).now = s.now
      ∧ (s.rejectImage result).pending = s.pending := by
  have written := Stands.writeStart { s with image := some result } (.start result 0 0 0)
  have left := (Kept.refl (State.writeStart { s with image := some result } (.start result 0 0 0))).changeJoin
    .disabled .config
  refine ⟨LawsKept.trans ?_ left.laws, left.now, left.pending⟩
  exact
    { log := written.log, bus := written.bus, map := id, req := id, store := id,
      lines := Lines.of_same (SameLink.refl _) (SameMatrix.refl _) rfl, closing := id }

theorem handOver_laws (s : State) (image : Option RawImage) (scan : Contacts) :
    LawsKept s (s.handOver image scan) ∧ (s.handOver image scan).now = s.now
      ∧ (s.handOver image scan).pending = s.pending := by
  unfold State.handOver
  split
  · exact ⟨(Kept.refl s).laws, rfl, rfl⟩
  · split
    · exact acceptImage_laws s _ scan
    · exact rejectImage_laws s _

/-! ## What every command keeps -/

/-- Each rule keeps the laws; it leaves local time and the queue alone. -/
theorem ruleOf_laws (c : Instr) (s : State) :
    LawsKept s (ruleOf c s) ∧ (ruleOf c s).now = s.now ∧ (ruleOf c s).pending = s.pending := by
  by_cases plain : Plain c = true
  · have k := ruleOf_kept plain s
    exact ⟨k.laws, k.now, k.pending⟩
  · cases c with
    | reset => exact ⟨(Kept.refl s).laws, rfl, rfl⟩
    | handOver _ image scan => exact handOver_laws s image scan
    | busIdleOffer => exact ⟨LawsKept.offer s, rfl, rfl⟩
    | matrixScan _ scan =>
      unfold ruleOf
      dsimp only
      split
      · have k := takeScan_kept s scan
        exact ⟨k.laws, k.now, k.pending⟩
      · exact ⟨(Kept.refl s).laws, rfl, rfl⟩
    | rfPresentActive => exact ⟨LawsKept.rfActive s, rfl, rfl⟩
    | rfPresentInactive =>
      have k := (Kept.refl ({ s with rfPresent := false } : State)).trySettle.resumeDrive
      exact ⟨LawsKept.rfInactive s, k.now, k.pending⟩
    | tripAsserted =>
      have k := (Kept.refl ({ s with tripLine := true } : State)).takeTrip
      refine ⟨LawsKept.tripIn s, ?_, ?_⟩ <;> unfold ruleOf State.tripIn <;> dsimp only <;> split
      · rfl
      · split
        · exact k.now
        · rfl
      · rfl
      · split
        · exact k.pending
        · rfl
    | tripDeasserted =>
      have k := (Kept.refl ({ s with tripLine := false } : State)).recycle
      exact ⟨LawsKept.tripOut s, k.now, k.pending⟩
    | _ => exact absurd rfl plain

theorem run_laws (c : Instr) (s : State) (u : Nat) :
    LawsKept s (s.run u (ruleOf c)) ∧ (s.run u (ruleOf c)).now = max s.now u
      ∧ (s.run u (ruleOf c)).pending = s.pending := by
  obtain ⟨laws, now, pending⟩ := ruleOf_laws c (s.atTime u)
  have drained := (Kept.refl (ruleOf c (s.atTime u))).drain
  exact ⟨((LawsKept.atTime s u).trans laws).trans drained.laws, drained.now.trans now, drained.pending.trans pending⟩

/-- Settles O1, by the definition of a step. -/
theorem stepRunsTheFrontCommand : Obligations.StepRunsTheFrontCommand := fun _ _ _ => rfl

/-- Settles O2, by the definition of a step. -/
theorem idleStepIsOneMillisecond : Obligations.IdleStepIsOneMillisecond := by
  intro s h
  unfold step
  rw [h]
  rfl

/-- Settles O3: a command that carries a time is run at it, and RESET carries none. -/
theorem everyCommandAnswersAndTimeNeverGoesBack : Obligations.EveryCommandAnswersAndTimeNeverGoesBack := by
  intro c s
  cases h : c.time with
  | none =>
    cases time_eq_none_iff.mp h
    exact ⟨s.takeReset, rfl, rfl, rfl⟩
  | some u =>
    obtain ⟨-, now, pending⟩ := run_laws c s u
    exact ⟨_, exec_eq_run h s, pending, now⟩

/-- A state that a command leaves is that of its rule at its time. -/
theorem exec_next {c : Instr} {s t : State} (h : exec c s = .next t) (hc : c ≠ .reset) :
    ∃ u, t = s.run u (ruleOf c) := by
  cases ht : c.time with
  | none => exact absurd (time_eq_none_iff.mp ht) hc
  | some u =>
    rw [exec_eq_run ht] at h
    exact ⟨u, (Host.Outcome.next.inj h).symm⟩

/-- Only the hand-over settles a configuration. -/
theorem ruleOf_cfg {c : Instr} (hc : ∀ u i k, c ≠ .handOver u i k) (s : State) :
    (ruleOf c s).cfg = s.cfg ∧ (ruleOf c s).image = s.image := by
  by_cases plain : Plain c = true
  · have k := ruleOf_kept plain s
    exact ⟨k.cfg, k.image⟩
  · cases c with
    | reset => exact ⟨rfl, rfl⟩
    | handOver u i k => exact absurd rfl (hc u i k)
    | busIdleOffer => exact ⟨rfl, rfl⟩
    | matrixScan _ scan =>
      unfold ruleOf
      dsimp only
      split
      · have k := takeScan_kept s scan
        exact ⟨k.cfg, k.image⟩
      · exact ⟨rfl, rfl⟩
    | rfPresentActive => exact ⟨rfl, rfl⟩
    | rfPresentInactive =>
      have k := (Kept.refl ({ s with rfPresent := false } : State)).trySettle.resumeDrive
      exact ⟨k.cfg, k.image⟩
    | tripAsserted =>
      have k := (Kept.refl ({ s with tripLine := true } : State)).takeTrip
      unfold ruleOf State.tripIn
      dsimp only
      split
      · exact ⟨rfl, rfl⟩
      · split
        · exact ⟨k.cfg, k.image⟩
        · exact ⟨rfl, rfl⟩
    | tripDeasserted =>
      have k := (Kept.refl ({ s with tripLine := false } : State)).recycle
      exact ⟨k.cfg, k.image⟩
    | _ => exact absurd rfl plain

/-- Settles O4: every other rule leaves the configuration, and so do the hand-outs. -/
theorem configurationIsSettledAtTheHandOver : Obligations.ConfigurationIsSettledAtTheHandOver := by
  intro c s t h hc hh
  obtain ⟨u, rfl⟩ := exec_next h hc
  obtain ⟨cfg, image⟩ := ruleOf_cfg hh (s.atTime u)
  have drained := (Kept.refl (ruleOf c (s.atTime u))).drain
  exact ⟨drained.cfg.trans cfg, drained.image.trans image⟩

/-- Only a scan, the start-up scan among them, changes a reading. -/
theorem ruleOf_readings {c : Instr} (hh : ∀ u i k, c ≠ .handOver u i k) (hs : ∀ u k, c ≠ .matrixScan u k) (s : State) :
    (ruleOf c s).mat.readings = s.mat.readings := by
  by_cases plain : Plain c = true
  · exact (ruleOf_kept plain s).readings
  · cases c with
    | reset => rfl
    | handOver u i k => exact absurd rfl (hh u i k)
    | busIdleOffer => rfl
    | matrixScan u k => exact absurd rfl (hs u k)
    | rfPresentActive => rfl
    | rfPresentInactive => exact (Kept.refl ({ s with rfPresent := false } : State)).trySettle.resumeDrive.readings
    | tripAsserted =>
      unfold ruleOf State.tripIn
      dsimp only
      split
      · rfl
      · split
        · exact (Kept.refl ({ s with tripLine := true } : State)).takeTrip.readings
        · rfl
    | tripDeasserted => exact (Kept.refl ({ s with tripLine := false } : State)).recycle.readings
    | _ => exact absurd rfl plain

/-- Settles O38: no other rule changes a reading, and no hand-out does. -/
theorem readingsChangeOnlyByScan : Obligations.ReadingsChangeOnlyByScan := by
  intro c s t h hc hh hs
  obtain ⟨u, rfl⟩ := exec_next h hc
  exact ((Kept.refl (ruleOf c (s.atTime u))).drain.readings).trans (ruleOf_readings hh hs (s.atTime u))

/-- Every law holds in a state that RESET leaves. -/
structure AtReset (t : State) : Prop where
  cfg    : t.cfg = Settings.reset
  log    : t.log = AirLog.reset
  req    : t.req = Requests.reset
  bus    : t.bus = Bus.reset
  map    : t.map = []
  store  : t.store = Store.reset
  mat    : t.mat = Matrix.reset
  link   : t.link = Link.reset
  psu    : t.psu = Power.reset

theorem AtReset.reset : AtReset State.reset := ⟨rfl, rfl, rfl, rfl, rfl, rfl, rfl, rfl, rfl⟩

theorem AtReset.takeReset (s : State) : AtReset s.takeReset := ⟨rfl, rfl, rfl, rfl, rfl, rfl, rfl, rfl, rfl⟩

namespace AtReset
variable {t : State} (h : AtReset t)
include h

theorem interlock : Interlock t :=
  ⟨Lines.of_rest (by rw [h.link]; rfl) (by rw [h.mat]; rfl), ClosesAlone.of_rest (by rw [h.mat]; rfl)⟩

theorem permitNamed : PermitNamed t := by
  intro hp
  rw [h.link] at hp
  cases hp

theorem carrierLaw : CarrierLaw t.link t.cfg.rating := by
  rw [h.link]
  exact { permit := by decide, level := fun k => absurd rfl k, rated := Nat.zero_le _, sent := by simp [Link.reset] }

theorem numbered : t.log.Numbered := by
  rw [h.log]
  exact ⟨by decide, fun i hi => absurd hi (Nat.not_lt_zero i)⟩

theorem capacities : Capacities t where
  bus := by rw [h.bus]; exact Bus.Within.reset
  slots := by rw [h.map]; simp [SlotsWithin]
  order := by rw [h.map]; simp [SlotsOrdered]
  rows := by rw [h.map]; simp [RowsDistinct]
  queue := by rw [h.req]; decide

theorem oneLive : OneLive t.store := by
  rw [h.store]
  unfold OneLive
  decide

theorem ownOnce : OwnOnce t.map := by
  rw [h.map]
  unfold OwnOnce
  decide

theorem announced : Announced t := by
  constructor <;> simp [h.psu, h.cfg, Power.reset, Settings.reset]

end AtReset

/-- R184: RESET empties the air log, and every other step writes records through R184 alone. -/
theorem step_log {s t : State} (hs : s.log.Numbered) (h : step s = .next t) : t.log.Numbered := by
  unfold step at h
  split at h
  · cases h
    exact hs
  · rename_i c rest _
    by_cases hc : c = .reset
    · subst hc
      cases h
      exact (AtReset.takeReset _).numbered
    · obtain ⟨u, rfl⟩ := exec_next h hc
      exact (run_laws c { s with pending := rest } u).1.log hs

/-- Settles O58: each rule and each hand-out writes records through R184 alone. -/
theorem everyStepKeepsTheLogNumbered : Obligations.EveryStepKeepsTheLogNumbered := fun _ _ hs h => step_log hs h

/-! ## What changes nothing, and RESET -/

/-- Settles O5, by the definition of RESET. -/
theorem resetLeavesTheResetValues : Obligations.ResetLeavesTheResetValues := by
  intro s
  exact ⟨s.takeReset, rfl, rfl, rfl, rfl, rfl, rfl, rfl, rfl, rfl, rfl, rfl, rfl, rfl, rfl, rfl, rfl, rfl, rfl,
    rfl, rfl, rfl, rfl, rfl, rfl, rfl, rfl, rfl, rfl, rfl⟩

/-- Settles O21: the rules of these commands do nothing, and no hand-out waits. -/
theorem discardedInputChangesNothing : Obligations.DiscardedInputChangesNothing := by
  intro s t h
  have quiet : s.run t id = s.atTime t := State.run_quiet (body := id) h
  exact ⟨congrArg _ quiet, fun _ _ => congrArg _ quiet, fun _ => congrArg _ quiet⟩

/-- Settles O60: the laws hold of the reset values. -/
theorem resetMeetsTheLaws : Obligations.ResetMeetsTheLaws := by
  have laws {t : State} (h : AtReset t) := And.intro h.interlock (And.intro h.permitNamed (And.intro h.carrierLaw
    (And.intro h.numbered (And.intro h.capacities (And.intro h.oneLive (And.intro h.ownOnce h.announced))))))
  refine ⟨laws AtReset.reset, fun s t h => ?_⟩
  cases h
  exact laws (AtReset.takeReset s)

end Sys2Proof.Machine

/-! PROOF. O59: the law of the announced demand is no invariant of single states. -/

namespace Sys2Proof.Machine

/-- Local control over a transmitter for which a step is still held as admitted, its basis none: `Announced` says nothing
of the step while the local mark stands. The REPORT that waits ends local control. -/
def localWithStep : State :=
  { State.reset with
    image := some .accepted,
    link := { Link.reset with state := .up, localFlag := true },
    psu := { Power.reset with
      localMark := true, admitted := some 50, announced := totalDemand Settings.reset 0 100 .am },
    pending := [.reportReceived 0 [8, 0, 0, 0, 0, 248]] }

theorem localWithStep_capacities : Capacities localWithStep :=
  have k := AtReset.reset.capacities
  ⟨k.bus, k.slots, k.order, k.rows, k.queue⟩

theorem localWithStep_announced : Announced localWithStep where
  local_ _ := rfl
  admitted h := by cases h
  none_ h := by cases h

/-- R166: REMOTE takes the local mark away, and the step stands without a basis. -/
theorem localWithStep_step :
    ∃ t, step localWithStep = .next t ∧ t.psu.localMark = false ∧ t.psu.admitted = some 50 ∧ t.psu.basis = none := by
  refine ⟨_, rfl, ?_, ?_, ?_⟩ <;> decide +kernel

/-- Refutes O59: `Announced` asks nothing of an admitted step while the local mark stands, so that at the end of local
control a step without a basis can be left. -/
theorem not_everyStepKeepsTheCapacities : ¬ Obligations.EveryStepKeepsTheCapacities := by
  intro h
  obtain ⟨t, ht, hl, ha, hb⟩ := localWithStep_step
  obtain ⟨-, -, -, announced⟩ := h localWithStep t localWithStep_capacities AtReset.reset.oneLive ht
  obtain ⟨b, basis, -⟩ := (announced localWithStep_announced).1.admitted hl 50 ha
  rw [hb] at basis
  cases basis

end Sys2Proof.Machine

/-! SUPPORT. How a command runs: its rule at its time, and then the hand-outs, one after the other. -/

namespace Sys2Proof.Machine

/-! ## Hand-outs taken one after the other -/

/-- The hand-outs of a state are taken, and leave the state `u`, whatever fuel from `n` up bounds them. -/
def State.DrainsTo (s u : State) (n : Nat) : Prop := ∀ k, n ≤ k → s.drainFrom k = u

theorem State.drainsTo_self {s : State} (h : s.handed = []) : s.DrainsTo s 0 := by
  intro k _
  cases k with
  | zero => rfl
  | succ k =>
    unfold State.drainFrom
    rw [h]

/-- The first hand-out is taken, with what the sequencer then does, and leaves `a`; what `a` hands out comes before the
rest. -/
theorem State.DrainsTo.take {s a u : State} {m : Handed} {rest : List Handed} {n : Nat} (hs : s.handed = m :: rest)
    (ha : (State.take { s with handed := [] } m).advance rest.isEmpty = a)
    (d : State.DrainsTo { a with handed := a.handed ++ rest } u n) : s.DrainsTo u (n + 1) := by
  intro k hk
  obtain ⟨k, rfl⟩ : ∃ j, k = j + 1 := ⟨k - 1, by omega⟩
  rw [State.drainFrom_cons hs, ha]
  exact d k (by omega)

/-- The sequencer does nothing more once a hand-out has been taken: no end waits, no release is under way, no closing is
to begin and no search is deferred. -/
structure Sequencer.Rests (q : Sequencer) : Prop where
  ending  : q.ending = none
  release : q.cur.release = none
  await   : q.cur.state ≠ .awaitTerminal
  search  : q.nxt.deferred = false

theorem State.Calm.rests {s : State} (h : s.Calm) : s.seq.Rests := ⟨h.ending, h.release, h.await, h.search⟩

theorem Sequencer.Rests.advance {s : State} (h : s.seq.Rests) (last : Bool) : s.advance last = s :=
  State.advance_idle h.ending h.release h.await h.search last

/-- A hand-out after which the sequencer does nothing more. -/
theorem State.DrainsTo.takeRests {s a u : State} {m : Handed} {rest : List Handed} {n : Nat} (hs : s.handed = m :: rest)
    (ha : State.take { s with handed := [] } m = a) (hr : a.seq.Rests)
    (d : State.DrainsTo { a with handed := a.handed ++ rest } u n) : s.DrainsTo u (n + 1) :=
  State.DrainsTo.take hs (ha ▸ (ha ▸ hr).advance _) d

/-- A hand-out that leaves the state as it is. -/
theorem State.DrainsTo.still {s u : State} {m : Handed} {rest : List Handed} {n : Nat} (hs : s.handed = m :: rest)
    (hm : Still s m) (d : State.DrainsTo { s with handed := rest } u n) : s.DrainsTo u (n + 1) :=
  State.DrainsTo.take hs ((congrArg (State.advance · rest.isEmpty) hm.take).trans (hm.advance _)) d

/-- A re-evaluation that finds nothing to do. -/
theorem State.DrainsTo.content {s u : State} {m : Handed} {rest : List Handed} {n : Nat} (hs : s.handed = m :: rest)
    (hm : m.Asks) (h : State.Content { s with handed := [] }) (d : State.DrainsTo { s with handed := rest } u n) :
    s.DrainsTo u (n + 2) := by
  intro k hk
  obtain ⟨k, rfl⟩ : ∃ j, k = j + 2 := ⟨k - 2, by omega⟩
  rw [State.drainFrom_content hs hm h]
  exact d _ (by split <;> omega)

/-- A re-evaluation that is the last hand-out and finds nothing to do. -/
theorem State.drainsTo_content {s : State} {m : Handed} (hs : s.handed = [m]) (hm : m.Asks)
    (h : State.Content { s with handed := [] }) : s.DrainsTo { s with handed := [] } 2 :=
  State.DrainsTo.content hs hm h (State.drainsTo_self rfl)

/-- A state that hands out a re-evaluation alone, which finds nothing to do. -/
theorem State.drainsTo_told {a : State} {m : Handed} (hm : m.Asks) (h : a.Content) :
    State.DrainsTo { a with handed := [m] } a 2 := by
  have d := State.drainsTo_content (s := { a with handed := [m] }) rfl hm (h.calm.handed ▸ h)
  exact h.calm.handed ▸ d

theorem State.DrainsTo.drain {s u : State} {n : Nat} (d : s.DrainsTo u n) (hn : n ≤ 4096 := by decide) : s.drain = u :=
  d handoutFuel hn

/-- A command ends where its rule, at its time, drains to. -/
theorem exec_of_drainsTo {c : Instr} {s u : State} {t n : Nat} (hc : c.time = some t)
    (d : (ruleOf c (s.atTime t)).DrainsTo u n) (hn : n ≤ 4096 := by decide) : exec c s = .next u :=
  (exec_eq_run hc s).trans (congrArg Host.Outcome.next (d.drain hn))

/-- A command whose rule hands nothing out ends as its rule leaves the state. -/
theorem exec_quiet {c : Instr} {s u : State} {t : Nat} (hc : c.time = some t) (hu : ruleOf c (s.atTime t) = u)
    (hh : u.handed = []) : exec c s = .next u :=
  (exec_eq_run hc s).trans (congrArg Host.Outcome.next
    ((State.run_quiet (body := ruleOf c) ((congrArg State.handed hu).trans hh)).trans hu))

/-! ## What a re-evaluation reads -/

/-- What the test of R170 reads: the clock, the schedule, the lead time and the sequencer. -/
structure SameSchedule (s t : State) : Prop where
  now    : t.now = s.now
  cfg    : t.cfg = s.cfg
  store  : t.store = s.store
  clock  : t.clock = s.clock
  seq    : t.seq = s.seq
  handed : t.handed = s.handed

/-- R170: whether a re-evaluation finds something to do is a question to these alone. -/
theorem State.Content.of_same {s t : State} (c : s.Content) (h : SameSchedule s t) : t.Content := by
  obtain ⟨now, cfg, store, clock, seq, handed⟩ := h
  cases s
  cases t
  subst now cfg store clock seq handed
  exact ⟨⟨c.calm.handed, c.calm.ending, c.calm.release, c.calm.await, c.calm.search⟩, c.unarmed, c.found, c.current,
    c.next⟩

/-! ## The service of a request outside DISABLED (R186, R187) -/

/-- The head request is served on the state that marks it as being served. -/
theorem State.atTime_serve {s : State} {t kind : Nat} {service : State → List Byte → State} {p : List Byte}
    {rest : List (List Byte)} (hj : s.pres.join ≠ .disabled) (hq : s.req = { queue := p :: rest, serving := false })
    (hk : requestKind p = kind) :
    (s.atTime t).serve kind service = service { s.atTime t with req := { s.req with serving := true } } p :=
  State.serve_of_headOf (hk ▸ State.headOf_of_queue (s := s.atTime t) hj hq)

end Sys2Proof.Machine

/-! PROOF. O8 to O11, O16: the schedule requests and the end of a write (R9 to R12, R15). -/

namespace Sys2Proof.Machine

theorem bankOfCode_of_above {n : Nat} (h : 1 < n) : bankOfCode n = none := by
  unfold bankOfCode
  simp [show n ≠ 0 by omega, show n ≠ 1 by omega]

@[simp] theorem Store.bank_setBank_same (s : Store) (bk : Bank) (d : BankData) : (s.setBank bk d).bank bk = d := by
  cases bk <;> rfl

@[simp] theorem Serial.bank_setBank (s : Serial) (bk : Bank) (d : StoredBank) : (s.setBank bk d).bank bk = d := by
  cases bk <;> rfl

@[simp] theorem Serial.bank_setBank_other (s : Serial) (bk : Bank) (d : StoredBank) :
    (s.setBank bk d).bank bk.other = s.bank bk.other := by
  cases bk <;> rfl

/-- R187: local time moved on and the head request marked as being served. -/
abbrev State.marked (s : State) (t : Nat) : State := { s.atTime t with req := { s.req with serving := true } }

/-- The head request of the kind `kind` is being served, outside DISABLED. -/
structure State.Serves (s : State) (kind : Nat) (p : List Byte) (rest : List (List Byte)) : Prop where
  handed : s.handed = []
  join   : s.pres.join ≠ .disabled
  queue  : s.req = { queue := p :: rest, serving := false }
  kind   : requestKind p = kind

section
variable {s : State} {t kind : Nat} {p : List Byte} {rest : List (List Byte)} {service : State → List Byte → State}
  {c : Instr} (h : s.Serves kind p rest) (hc : c.time = some t) (rule : ruleOf c = fun a => a.serve kind service)
include h hc rule

/-- A service that hands nothing out. -/
theorem exec_served {u : State} (hu : service (s.marked t) p = u)
    (hh : u.handed = []) : exec c s = .next u := by
  refine exec_quiet hc ?_ hh
  rw [rule]
  exact (State.atTime_serve h.join h.queue h.kind).trans hu

/-- A service that places its REPLY and nothing else. -/
theorem exec_served_reply {r : Reply}
    (hr : service (s.marked t) p
      = (s.marked t).reply r) :
    exec c s = .next { s.atTime t with
      req := { s.req with serving := true }, bus := { s.bus with reply := some r } } :=
  exec_served h hc rule hr h.handed

/-- A service whose hand-outs drain to `u`. -/
theorem exec_served_drains {u : State} {n : Nat}
    (d : (service (s.marked t) p).DrainsTo u n)
    (hn : n ≤ 4096 := by decide) : exec c s = .next u := by
  refine exec_of_drainsTo hc ?_ hn
  rw [rule]
  show State.DrainsTo ((s.atTime t).serve kind service) u n
  rwa [State.atTime_serve h.join h.queue h.kind]

/-- A service that tells the sequencer of what it did, and the sequencer finds nothing to do. -/
theorem exec_served_told {a : State} {m : Handed} (hm : m.Asks) (content : a.Content)
    (hs : service (s.marked t) p = { a with handed := [m] }) :
    exec c s = .next a :=
  exec_served_drains h hc rule (hs ▸ State.drainsTo_told hm content)

end

/-! ## BANK-OPEN (R9) -/

section
variable {s : State} {p : List Byte} {bk : Bank}

theorem State.bankOpen_of_no_bank (hb : bankOfCode (byteAt p 2) = none) :
    s.bankOpen p = s.reply { kind := 0, code := .range, data := [1, 0] } := by
  unfold State.bankOpen
  rw [hb]
  rfl

/-- R9: the bank is opened, its header issued, and the opening of a READY bank told to the sequencer. -/
theorem State.bankOpen_of_free (hb : bankOfCode (byteAt p 2) = some bk)
    (hs : (s.store.bank bk).state ≠ .live) (hl : (s.store.bank bk).state ≠ .loading) :
    let opened : BankData := { state := .loading, label := 0, instant := none, entries := [] }
    s.bankOpen p = { s with
      store := s.store.setBank bk opened,
      serial := { s.serial with writes := s.serial.writes ++
        [{ what := .header bk (opened.header bk), reply := some { kind := 0, code := .done, data := [1] } }] },
      handed := s.handed ++ if (s.store.bank bk).state = .ready then [.storeNotice (.bankOpened bk)] else [] } := by
  unfold State.bankOpen
  cases hst : (s.store.bank bk).state with
  | live => exact absurd hst hs
  | loading => exact absurd hst hl
  | _ => simp [hb, hst, State.writeHeader, Bank.stateByte, State.emit, State.issueWrite, doneReply, byteOf, BankState.code]

theorem State.bankOpen_of_used (hb : bankOfCode (byteAt p 2) = some bk)
    (hs : (s.store.bank bk).state = .live ∨ (s.store.bank bk).state = .loading) :
    s.bankOpen p = s.reply { kind := 0, code := .state, data := [byteOf (s.store.bank bk).state.code] } := by
  unfold State.bankOpen
  simp only [hb]
  rcases hs with hs | hs <;> simp [hs, stateReply, Bank.stateByte]

end

/-- Settles O8, by the state of the bank. -/
theorem bankOpenTakesABankNotInUse : Obligations.BankOpenTakesABankNotInUse := by
  intro s t p rest hh hj hq hk
  have h : s.Serves 0 p rest := ⟨hh, hj, hq, hk⟩
  refine ⟨fun bk hb => ⟨fun hs => ?_, fun hs => exec_served_reply h rfl rfl (State.bankOpen_of_used hb hs)⟩,
    fun hr => exec_served_reply h rfl rfl (State.bankOpen_of_no_bank (bankOfCode_of_above hr))⟩
  have opened := State.bankOpen_of_free (s := s.marked t) hb
    (by rcases hs with hs | hs | ⟨hs, -⟩ <;> simp [hs]) (by rcases hs with hs | hs | ⟨hs, -⟩ <;> simp [hs])
  simp only [Store.bank_setBank_same]
  refine ⟨rfl, rfl, rfl, rfl, rfl, rfl, ?_⟩
  rcases hs with hs | hs | ⟨hs, content⟩
  · exact exec_served h rfl rfl (by simpa [hs, hh] using opened) hh
  · exact exec_served h rfl rfl (by simpa [hs, hh] using opened) hh
  · refine exec_served_told h rfl rfl (m := .storeNotice (.bankOpened bk)) (.inr ⟨_, rfl⟩)
      (content.of_same ⟨rfl, rfl, rfl, rfl, rfl, rfl⟩) ?_
    simpa [hs, hh] using opened

/-! ## ENTRY-PUT (R10) -/

section
variable {s : State} {p : List Byte} {bk : Bank}

theorem State.entryPut_of_no_bank (hb : bankOfCode (byteAt p 2) = none) :
    s.entryPut p = s.reply { kind := 1, code := .range, data := [1, 0] } := by
  unfold State.entryPut
  rw [hb]
  rfl

theorem State.entryPut_of_not_loading (hb : bankOfCode (byteAt p 2) = some bk)
    (hl : (s.store.bank bk).state ≠ .loading) :
    s.entryPut p = s.reply { kind := 1, code := .state, data := [byteOf (s.store.bank bk).state.code] } := by
  unfold State.entryPut
  simp [hb, hl, stateReply, Bank.stateByte]

variable (hb : bankOfCode (byteAt p 2) = some bk) (hl : (s.store.bank bk).state = .loading)
include hb hl

theorem State.entryPut_of_fail {f : RangeField × Nat}
    (hf : entryFail s.cfg s.map (byteAt p 3) (byteAt p 4) (rawProgAt p) = some f) :
    s.entryPut p = s.reply { kind := 1, code := .range, data := [byteOf f.1.code, byteOf f.2] } := by
  unfold State.entryPut
  simp [hb, hl, hf, rangeReply]

variable (hf : entryFail s.cfg s.map (byteAt p 3) (byteAt p 4) (rawProgAt p) = none) {mode : Mode}
  (hm : modeOfCode (rawProgAt p).mode = some mode)
include hf hm

theorem State.entryPut_of_overlap {n : Nat}
    (ho : firstOverlap { number := byteAt p 3, days := BitVec.ofNat 7 (byteAt p 4), prog := (rawProgAt p).toProg mode }
      (s.store.bank bk).entries = some n) :
    s.entryPut p = s.reply { kind := 1, code := .overlap, data := [byteOf n] } := by
  unfold State.entryPut
  simp [hb, hl, hf, hm, ho]

theorem State.entryPut_of_free
    (ho : firstOverlap { number := byteAt p 3, days := BitVec.ofNat 7 (byteAt p 4), prog := (rawProgAt p).toProg mode }
      (s.store.bank bk).entries = none) :
    let e : Entry := { number := byteAt p 3, days := BitVec.ofNat 7 (byteAt p 4), prog := (rawProgAt p).toProg mode }
    s.entryPut p = { s with
      store := s.store.setBank bk { s.store.bank bk with entries := putEntry e (s.store.bank bk).entries },
      serial := { s.serial with writes := s.serial.writes ++
        [{ what := .slot bk e, reply := some { kind := 1, code := .done, data := [1] } }] } } := by
  unfold State.entryPut
  simp [hb, hl, hf, hm, ho, State.issueWrite, doneReply, Bank.stateByte, byteOf, BankState.code]

end

/-- Settles O9, by the order of R10: the bank field, its state, the range tests, the overlap test. -/
theorem entryPutStoresACheckedRecord : Obligations.EntryPutStoresACheckedRecord := by
  intro s t p rest mode hh hj hq hk
  have h : s.Serves 1 p rest := ⟨hh, hj, hq, hk⟩
  refine ⟨fun bk hb => ⟨fun hl hf hm ho => ?_, fun n hl hf hm ho => ?_, fun field place hl hf => ?_, fun hl => ?_⟩,
    fun hr => exec_served_reply h rfl rfl (State.entryPut_of_no_bank (bankOfCode_of_above hr))⟩
  · exact exec_served h rfl rfl (State.entryPut_of_free (s := s.marked t) hb hl hf hm ho) hh
  · exact exec_served_reply h rfl rfl (State.entryPut_of_overlap (s := s.marked t) hb hl hf hm ho)
  · exact exec_served_reply h rfl rfl (State.entryPut_of_fail (s := s.marked t) hb hl hf)
  · exact exec_served_reply h rfl rfl (State.entryPut_of_not_loading (s := s.marked t) hb hl)

/-! ## BANK-CLOSE (R11) -/

section
variable {s : State} {p : List Byte} {bk : Bank}

theorem State.bankClose_of_no_bank (hb : bankOfCode (byteAt p 2) = none) :
    s.bankClose p = s.reply { kind := 2, code := .range, data := [1, 0] } := by
  unfold State.bankClose
  rw [hb]
  rfl

theorem State.bankClose_of_not_loading (hb : bankOfCode (byteAt p 2) = some bk)
    (hl : (s.store.bank bk).state ≠ .loading) :
    s.bankClose p = s.reply { kind := 2, code := .state, data := [byteOf (s.store.bank bk).state.code] } := by
  unfold State.bankClose
  simp [hb, hl, stateReply, Bank.stateByte]

variable (hb : bankOfCode (byteAt p 2) = some bk) (hl : (s.store.bank bk).state = .loading)
include hb hl

theorem State.bankClose_of_fail {f : RangeField × Nat} (hf : closeFail s.store bk p = some f) :
    s.bankClose p = s.reply { kind := 2, code := .range, data := [byteOf f.1.code, byteOf f.2] } := by
  unfold State.bankClose
  simp [hb, hl, hf, rangeReply]

variable (hf : closeFail s.store bk p = none)
include hf

theorem State.bankClose_of_count (hc : byteAt p 3 ≠ (s.store.bank bk).entries.length) :
    s.bankClose p = s.reply { kind := 2, code := .count, data := [byteOf (s.store.bank bk).entries.length] } := by
  unfold State.bankClose
  simp [hb, hl, hf, hc]

/-- R11: the bank is READY, its header issued, and the sequencer told. -/
theorem State.bankClose_of_match (hc : byteAt p 3 = (s.store.bank bk).entries.length) :
    let ready : BankData := { s.store.bank bk with
      state := .ready, label := byteAt p 4,
      instant := some (instantOf (2000 + byteAt p 5) (byteAt p 6) (byteAt p 7) (wordAt p 8)) }
    s.bankClose p = { s with
      store := s.store.setBank bk ready,
      serial := { s.serial with writes := s.serial.writes ++
        [{ what := .header bk (ready.header bk), reply := some { kind := 2, code := .done, data := [2] } }] },
      handed := s.handed ++ [.storeNotice (.bankReady bk)] } := by
  unfold State.bankClose
  simp [hb, hl, hf, hc, State.writeHeader, State.issueWrite, State.emit, doneReply, Bank.stateByte, byteOf, BankState.code]

end

/-- Settles O10, by the order of R11: the bank field, its state, the range tests, the count. -/
theorem bankCloseMakesTheBankReady : Obligations.BankCloseMakesTheBankReady := by
  intro s t p rest hh hj hq hk
  have h : s.Serves 2 p rest := ⟨hh, hj, hq, hk⟩
  refine ⟨fun bk hb => ⟨fun hl hf hc content => ?_, fun hl hf hc => ?_, fun field place hl hf => ?_, fun hl => ?_⟩,
    fun hr => exec_served_reply h rfl rfl (State.bankClose_of_no_bank (bankOfCode_of_above hr))⟩
  · have closed := State.bankClose_of_match (s := s.marked t) hb hl hf hc
    simp only [Store.bank_setBank_same]
    refine ⟨rfl, rfl, rfl, rfl, rfl, rfl, ?_⟩
    refine exec_served_told h rfl rfl (m := .storeNotice (.bankReady bk)) (.inr ⟨_, rfl⟩)
      (content.of_same ⟨rfl, rfl, rfl, rfl, rfl, rfl⟩) ?_
    simpa [hh] using closed
  · exact exec_served_reply h rfl rfl (State.bankClose_of_count (s := s.marked t) hb hl hf hc)
  · exact exec_served_reply h rfl rfl (State.bankClose_of_fail (s := s.marked t) hb hl hf)
  · exact exec_served_reply h rfl rfl (State.bankClose_of_not_loading (s := s.marked t) hb hl)

end Sys2Proof.Machine

/-! PROOF. O11, O16: extras stored, and the end of a serial-memory write (R12, R15). -/

namespace Sys2Proof.Machine

/-! ## EXTRA-PUT (R12) -/

section
variable {s : State} {p : List Byte} {mode : Mode}

theorem State.extraPut_of_unset (hc : s.instant = none) :
    s.extraPut p = s.reply { kind := 3, code := .state, data := [byteOf s.clock.state.code] } := by
  unfold State.extraPut
  simp [hc, stateReply]

variable {i : Nat} (hi : s.instant = some i) (hm : (modeOfCode (rawProgAt p).mode).getD .am = mode)
include hi hm

theorem State.extraPut_of_fail {f : RangeField × Nat}
    (hf : extraFail s.cfg s.map i (extraOf p mode) (rawProgAt p) = some f) :
    s.extraPut p = s.reply { kind := 3, code := .range, data := [byteOf f.1.code, byteOf f.2] } := by
  unfold State.extraPut
  simp [hi, hm, hf, rangeReply]

variable (hf : extraFail s.cfg s.map i (extraOf p mode) (rawProgAt p) = none)
include hf

theorem State.extraPut_of_overlap {n : Nat}
    (ho : firstExtraOverlap (byteAt p 2 / 32) (extraOf p mode) s.store.extras = some n) :
    s.extraPut p = s.reply { kind := 3, code := .overlap, data := [byteOf n] } := by
  unfold State.extraPut
  simp [hi, hm, hf, ho]

/-- R12: the slot is emptied first, with its notice when it held an extra, and the extra and DONE are handed on. -/
theorem State.extraPut_of_free
    (ho : firstExtraOverlap (byteAt p 2 / 32) (extraOf p mode) s.store.extras = none) :
    s.extraPut p = (s.setExtra (byteAt p 2 / 32) none).emit
      ((if (s.store.extras.getD (byteAt p 2 / 32) none).isSome then [.storeNotice (.extraDropped (byteAt p 2 / 32))] else [])
        ++ [.storeExtra (byteAt p 2 / 32) (extraOf p mode),
          .placeReply { kind := 3, code := .done, data := [byteOf (byteAt p 2 / 32)] }]) := by
  unfold State.extraPut
  simp [hi, hm, hf, ho, doneReply]

end

/-- R12: with the old extra gone the new one takes the slot, the sequencer finds nothing to do with it, and DONE is
placed. -/
theorem drainsTo_storeExtra {a : State} {slot : Nat} {x : Extra} {r : Reply}
    (content : State.Content (a.setExtra slot (some x))) :
    State.DrainsTo { a with handed := [.storeExtra slot x, .placeReply r] } ((a.setExtra slot (some x)).reply r) 4 := by
  have hh : a.handed = [] := content.calm.handed
  have rests : a.seq.Rests := content.calm.rests
  refine State.DrainsTo.takeRests (a := { a.setExtra slot (some x) with handed := [.storeNotice (.extraStored slot)] })
    rfl rfl rests ?_
  refine State.DrainsTo.content (m := .storeNotice (.extraStored slot)) rfl (.inr ⟨_, rfl⟩)
    (content.of_same ⟨rfl, rfl, rfl, rfl, rfl, hh.symm⟩) ?_
  refine State.DrainsTo.takeRests (a := { (a.setExtra slot (some x)).reply r with handed := [] }) rfl rfl rests ?_
  have e : ({ (a.setExtra slot (some x)).reply r with handed := [] } : State) = (a.setExtra slot (some x)).reply r := by
    rw [← hh]
    rfl
  exact e ▸ State.drainsTo_self rfl

/-- Settles O11, by the order of R12: the clock, the range tests, the overlap test. -/
theorem extraPutStoresTheExtra : Obligations.ExtraPutStoresTheExtra := by
  intro s t p rest mode hh hj hq hk hm slot filled
  have h : s.Serves 3 p rest := ⟨hh, hj, hq, hk⟩
  refine ⟨fun i hi hf ho old new => ?_, fun i field place hi hf => ?_, fun i n hi hf ho => ?_, fun hc => ?_⟩
  · have emptied := State.extraPut_of_free (s := s.marked t) hi hm hf ho
    have stored : ((s.marked t).setExtra slot none).setExtra slot (some (extraOf p mode))
        = { s.marked t with store := filled (some (extraOf p mode)) } := by
      simp [State.setExtra, filled]
    have rest' := drainsTo_storeExtra (a := (s.marked t).setExtra slot none) (slot := slot) (x := extraOf p mode)
      (r := { kind := 3, code := .done, data := [byteOf slot] })
      (stored ▸ new.of_same ⟨rfl, rfl, rfl, rfl, rfl, rfl⟩)
    rw [stored] at rest'
    by_cases held : ((s.marked t).store.extras.getD (byteAt p 2 / 32) none).isSome = true
    · refine exec_served_drains h rfl rfl (n := 6) ?_
      rw [emptied, if_pos held]
      refine State.DrainsTo.content (m := .storeNotice (.extraDropped slot))
        (rest := [.storeExtra slot (extraOf p mode), .placeReply { kind := 3, code := .done, data := [byteOf slot] }])
        (congrArg (· ++ _) hh) (.inr ⟨_, rfl⟩) ((old held).of_same ⟨rfl, rfl, rfl, rfl, rfl, hh.symm⟩) rest'
    · refine exec_served_drains h rfl rfl (n := 4) ?_
      rw [emptied, if_neg held]
      have e : ((s.marked t).setExtra slot none).handed = [] := hh
      unfold State.emit
      rw [e]
      exact rest'
  · exact exec_served_reply h rfl rfl (State.extraPut_of_fail (s := s.marked t) hi hm hf)
  · exact exec_served_reply h rfl rfl (State.extraPut_of_overlap (s := s.marked t) hi hm hf ho)
  · have unset : (s.marked t).instant = none := by
      simp [State.instant, State.utc, Clock.utcAt, hc]
    have answer := State.extraPut_of_unset (p := p) unset
    simp only [State.atTime_clock, hc] at answer
    exact exec_served_reply h rfl rfl answer

/-! ## The end of a write (R15) -/

/-- R15, R187: what the end of a write leaves. -/
theorem State.endWrite_cons {s : State} {w : PendingWrite} {rest : List PendingWrite} (h : s.serial.writes = w :: rest)
    (kept : Bool) :
    s.endWrite kept = { s with
      serial := { s.serial.apply w.what kept with writes := rest }, bus :=
        { s.bus with reply := w.reply.or s.bus.reply } } := by
  unfold State.endWrite
  rw [h]
  cases hr : w.reply <;> simp [hr, State.reply, Bus.placeReply]

/-- Settles O16, by what was being written. -/
theorem writeEndPlacesTheReply : Obligations.WriteEndPlacesTheReply := by
  intro s t kept w rest hh hw
  have ended := State.endWrite_cons (s := s.atTime t) hw kept
  refine ⟨(s.atTime t).endWrite kept, exec_quiet rfl rfl ?_, ?_, ?_, fun bk h e => ?_, fun bk e' e => ?_⟩
  · rw [ended]; exact hh
  · rw [ended]
  · rw [ended]; rfl
  · rw [ended, e]
    cases bk <;> exact ⟨rfl, rfl, rfl⟩
  · rw [ended, e]
    cases bk <;> exact ⟨rfl, List.find?_cons_of_pos (by simp), rfl⟩

end Sys2Proof.Machine

/-! SUPPORT. One lemma per field for the operations that write a record, give a change notice or issue to the transmitter:
each says what the operation leaves unchanged. -/

namespace Sys2Proof.Machine

/-! ## writeLog (R184) -/

@[simp] theorem State.writeLog_now (s : State) (b : LogBody) :
    (s.writeLog b).now = s.now := by
  unfold State.writeLog; split <;> rfl
@[simp] theorem State.writeLog_image (s : State) (b : LogBody) :
    (s.writeLog b).image = s.image := by
  unfold State.writeLog; split <;> rfl
@[simp] theorem State.writeLog_cfg (s : State) (b : LogBody) :
    (s.writeLog b).cfg = s.cfg := by
  unfold State.writeLog; split <;> rfl
@[simp] theorem State.writeLog_rfPresent (s : State) (b : LogBody) :
    (s.writeLog b).rfPresent = s.rfPresent := by
  unfold State.writeLog; split <;> rfl
@[simp] theorem State.writeLog_tripLine (s : State) (b : LogBody) :
    (s.writeLog b).tripLine = s.tripLine := by
  unfold State.writeLog; split <;> rfl
@[simp] theorem State.writeLog_store (s : State) (b : LogBody) :
    (s.writeLog b).store = s.store := by
  unfold State.writeLog; split <;> rfl
@[simp] theorem State.writeLog_serial (s : State) (b : LogBody) :
    (s.writeLog b).serial = s.serial := by
  unfold State.writeLog; split <;> rfl
@[simp] theorem State.writeLog_clock (s : State) (b : LogBody) :
    (s.writeLog b).clock = s.clock := by
  unfold State.writeLog; split <;> rfl
@[simp] theorem State.writeLog_alert (s : State) (b : LogBody) :
    (s.writeLog b).alert = s.alert := by
  unfold State.writeLog; split <;> rfl
@[simp] theorem State.writeLog_pres (s : State) (b : LogBody) :
    (s.writeLog b).pres = s.pres := by
  unfold State.writeLog; split <;> rfl
@[simp] theorem State.writeLog_claim (s : State) (b : LogBody) :
    (s.writeLog b).claim = s.claim := by
  unfold State.writeLog; split <;> rfl
@[simp] theorem State.writeLog_mat (s : State) (b : LogBody) :
    (s.writeLog b).mat = s.mat := by
  unfold State.writeLog; split <;> rfl
@[simp] theorem State.writeLog_link (s : State) (b : LogBody) :
    (s.writeLog b).link = s.link := by
  unfold State.writeLog; split <;> rfl
@[simp] theorem State.writeLog_psu (s : State) (b : LogBody) :
    (s.writeLog b).psu = s.psu := by
  unfold State.writeLog; split <;> rfl
@[simp] theorem State.writeLog_seq (s : State) (b : LogBody) :
    (s.writeLog b).seq = s.seq := by
  unfold State.writeLog; split <;> rfl
@[simp] theorem State.writeLog_handed (s : State) (b : LogBody) :
    (s.writeLog b).handed = s.handed := by
  unfold State.writeLog; split <;> rfl
@[simp] theorem State.writeLog_stampMinute (s : State) (b : LogBody) :
    (s.writeLog b).stampMinute = s.stampMinute := by
  unfold State.writeLog; split <;> rfl
@[simp] theorem State.writeLog_freeCount (s : State) (b : LogBody) :
    (s.writeLog b).freeCount = s.freeCount := by
  unfold State.writeLog; split <;> rfl
@[simp] theorem State.writeLog_pending (s : State) (b : LogBody) :
    (s.writeLog b).pending = s.pending := by
  unfold State.writeLog; split <;> rfl

/-- R40, R184: the record that is written. -/
def State.recordOf (s : State) (b : LogBody) : LogRecord :=
  match s.utc with
  | some u =>
    { seq := s.log.nextSeq, stamp := (s.stampMinute.map (60 * ·)).getD u, unset := false, body := b }
  | none => { seq := s.log.nextSeq, stamp := s.localSecond, unset := true, body := b }

@[simp] theorem State.recordOf_body (s : State) (b : LogBody) : (s.recordOf b).body = b := by
  unfold State.recordOf; split <;> rfl

theorem State.writeLog_ring (s : State) (b : LogBody) :
    (s.writeLog b).log.ring
      = (s.log.ring ++ [s.recordOf b]).drop ((s.log.ring ++ [s.recordOf b]).length - ringCapacity) := by
  unfold State.writeLog State.recordOf State.writeLogAt AirLog.write
  cases s.utc <;> cases s.stampMinute <;> rfl

/-- R184: the record written is the newest. -/
@[simp] theorem State.writeLog_newest (s : State) (b : LogBody) :
    (s.writeLog b).log.ring.getLast? = some (s.recordOf b) := by
  have kept : (s.log.ring ++ [s.recordOf b]).length - ringCapacity ≤ s.log.ring.length := by
    simp only [List.length_append, List.length_singleton, ringCapacity]
    omega
  rw [State.writeLog_ring, List.drop_append_of_le_length kept, List.getLast?_append]
  rfl

@[simp] theorem State.writeLog_newestBody (s : State) (b : LogBody) :
    ∃ r, (s.writeLog b).log.ring.getLast? = some r ∧ r.body = b := ⟨_, s.writeLog_newest b, s.recordOf_body b⟩

theorem State.writeLog_bus (s : State) (b : LogBody) :
    (s.writeLog b).bus = if s.pres.join = .disabled then s.bus else s.bus.placeLogrec (s.recordOf b) := by
  unfold State.writeLog State.recordOf State.writeLogAt
  cases s.utc <;> cases s.stampMinute <;> by_cases h : s.pres.join = .disabled <;> simp [h]

@[simp] theorem Bus.placeLogrec_reply (b : Bus) (r : LogRecord) : (b.placeLogrec r).reply = b.reply := by
  unfold Bus.placeLogrec; split
  · rfl
  · split <;> rfl

@[simp] theorem State.writeLog_reply (s : State) (b : LogBody) : (s.writeLog b).bus.reply = s.bus.reply := by
  rw [State.writeLog_bus]; split <;> simp

@[simp] theorem State.writeLog_utc (s : State) (b : LogBody) : (s.writeLog b).utc = s.utc := by
  simp [State.utc]

@[simp] theorem State.writeLog_instant (s : State) (b : LogBody) : (s.writeLog b).instant = s.instant := by
  simp [State.instant]

/-! ## noticeChange (R68) -/

@[simp] theorem Bus.placeNotice_reply (b : Bus) (n : NoticeFrame) : (b.placeNotice n).reply = b.reply := by
  unfold Bus.placeNotice; split <;> rfl

/-- R68: a change notice places a NOTICE, or marks one as pending, or does nothing. -/
theorem State.noticeChange_cases (s : State) :
    s.noticeChange = s ∨ s.noticeChange = s.placeNotice
      ∨ s.noticeChange = { s with pres := { s.pres with noticePending := true } } := by
  unfold State.noticeChange
  split
  · split
    · exact .inr (.inl rfl)
    · split
      · exact .inr (.inl rfl)
      · exact .inr (.inr rfl)
  · exact .inl rfl

@[simp] theorem State.noticeChange_now (s : State) :
    (s.noticeChange).now = s.now := by
  rcases s.noticeChange_cases with e | e | e <;> simp [e, State.placeNotice]
@[simp] theorem State.noticeChange_image (s : State) :
    (s.noticeChange).image = s.image := by
  rcases s.noticeChange_cases with e | e | e <;> simp [e, State.placeNotice]
@[simp] theorem State.noticeChange_cfg (s : State) :
    (s.noticeChange).cfg = s.cfg := by
  rcases s.noticeChange_cases with e | e | e <;> simp [e, State.placeNotice]
@[simp] theorem State.noticeChange_rfPresent (s : State) :
    (s.noticeChange).rfPresent = s.rfPresent := by
  rcases s.noticeChange_cases with e | e | e <;> simp [e, State.placeNotice]
@[simp] theorem State.noticeChange_tripLine (s : State) :
    (s.noticeChange).tripLine = s.tripLine := by
  rcases s.noticeChange_cases with e | e | e <;> simp [e, State.placeNotice]
@[simp] theorem State.noticeChange_store (s : State) :
    (s.noticeChange).store = s.store := by
  rcases s.noticeChange_cases with e | e | e <;> simp [e, State.placeNotice]
@[simp] theorem State.noticeChange_serial (s : State) :
    (s.noticeChange).serial = s.serial := by
  rcases s.noticeChange_cases with e | e | e <;> simp [e, State.placeNotice]
@[simp] theorem State.noticeChange_clock (s : State) :
    (s.noticeChange).clock = s.clock := by
  rcases s.noticeChange_cases with e | e | e <;> simp [e, State.placeNotice]
@[simp] theorem State.noticeChange_log (s : State) :
    (s.noticeChange).log = s.log := by
  rcases s.noticeChange_cases with e | e | e <;> simp [e, State.placeNotice]
@[simp] theorem State.noticeChange_req (s : State) :
    (s.noticeChange).req = s.req := by
  rcases s.noticeChange_cases with e | e | e <;> simp [e, State.placeNotice]
@[simp] theorem State.noticeChange_alert (s : State) :
    (s.noticeChange).alert = s.alert := by
  rcases s.noticeChange_cases with e | e | e <;> simp [e, State.placeNotice]
@[simp] theorem State.noticeChange_map (s : State) :
    (s.noticeChange).map = s.map := by
  rcases s.noticeChange_cases with e | e | e <;> simp [e, State.placeNotice]
@[simp] theorem State.noticeChange_claim (s : State) :
    (s.noticeChange).claim = s.claim := by
  rcases s.noticeChange_cases with e | e | e <;> simp [e, State.placeNotice]
@[simp] theorem State.noticeChange_mat (s : State) :
    (s.noticeChange).mat = s.mat := by
  rcases s.noticeChange_cases with e | e | e <;> simp [e, State.placeNotice]
@[simp] theorem State.noticeChange_link (s : State) :
    (s.noticeChange).link = s.link := by
  rcases s.noticeChange_cases with e | e | e <;> simp [e, State.placeNotice]
@[simp] theorem State.noticeChange_psu (s : State) :
    (s.noticeChange).psu = s.psu := by
  rcases s.noticeChange_cases with e | e | e <;> simp [e, State.placeNotice]
@[simp] theorem State.noticeChange_seq (s : State) :
    (s.noticeChange).seq = s.seq := by
  rcases s.noticeChange_cases with e | e | e <;> simp [e, State.placeNotice]
@[simp] theorem State.noticeChange_handed (s : State) :
    (s.noticeChange).handed = s.handed := by
  rcases s.noticeChange_cases with e | e | e <;> simp [e, State.placeNotice]
@[simp] theorem State.noticeChange_stampMinute (s : State) :
    (s.noticeChange).stampMinute = s.stampMinute := by
  rcases s.noticeChange_cases with e | e | e <;> simp [e, State.placeNotice]
@[simp] theorem State.noticeChange_freeCount (s : State) :
    (s.noticeChange).freeCount = s.freeCount := by
  rcases s.noticeChange_cases with e | e | e <;> simp [e, State.placeNotice]
@[simp] theorem State.noticeChange_pending (s : State) :
    (s.noticeChange).pending = s.pending := by
  rcases s.noticeChange_cases with e | e | e <;> simp [e, State.placeNotice]

@[simp] theorem State.noticeChange_join (s : State) : s.noticeChange.pres.join = s.pres.join := by
  rcases s.noticeChange_cases with e | e | e <;> simp [e, State.placeNotice]

@[simp] theorem State.noticeChange_reply (s : State) : s.noticeChange.bus.reply = s.bus.reply := by
  rcases s.noticeChange_cases with e | e | e <;> simp [e, State.placeNotice]

/-! ## announce (R157) -/

/-- R157: the announced demand follows its conditions, with a change notice when it changes. -/
theorem State.announce_cases (s : State) :
    s.announce = s ∨ s.announce = State.noticeChange { s with psu := { s.psu with announced := s.demandNow } } := by
  unfold State.announce
  dsimp only
  split
  · exact .inl rfl
  · exact .inr rfl

@[simp] theorem State.announce_now (s : State) :
    (s.announce).now = s.now := by
  rcases s.announce_cases with e | e <;> simp [e]
@[simp] theorem State.announce_image (s : State) :
    (s.announce).image = s.image := by
  rcases s.announce_cases with e | e <;> simp [e]
@[simp] theorem State.announce_cfg (s : State) :
    (s.announce).cfg = s.cfg := by
  rcases s.announce_cases with e | e <;> simp [e]
@[simp] theorem State.announce_rfPresent (s : State) :
    (s.announce).rfPresent = s.rfPresent := by
  rcases s.announce_cases with e | e <;> simp [e]
@[simp] theorem State.announce_tripLine (s : State) :
    (s.announce).tripLine = s.tripLine := by
  rcases s.announce_cases with e | e <;> simp [e]
@[simp] theorem State.announce_store (s : State) :
    (s.announce).store = s.store := by
  rcases s.announce_cases with e | e <;> simp [e]
@[simp] theorem State.announce_serial (s : State) :
    (s.announce).serial = s.serial := by
  rcases s.announce_cases with e | e <;> simp [e]
@[simp] theorem State.announce_clock (s : State) :
    (s.announce).clock = s.clock := by
  rcases s.announce_cases with e | e <;> simp [e]
@[simp] theorem State.announce_log (s : State) :
    (s.announce).log = s.log := by
  rcases s.announce_cases with e | e <;> simp [e]
@[simp] theorem State.announce_req (s : State) :
    (s.announce).req = s.req := by
  rcases s.announce_cases with e | e <;> simp [e]
@[simp] theorem State.announce_alert (s : State) :
    (s.announce).alert = s.alert := by
  rcases s.announce_cases with e | e <;> simp [e]
@[simp] theorem State.announce_map (s : State) :
    (s.announce).map = s.map := by
  rcases s.announce_cases with e | e <;> simp [e]
@[simp] theorem State.announce_claim (s : State) :
    (s.announce).claim = s.claim := by
  rcases s.announce_cases with e | e <;> simp [e]
@[simp] theorem State.announce_mat (s : State) :
    (s.announce).mat = s.mat := by
  rcases s.announce_cases with e | e <;> simp [e]
@[simp] theorem State.announce_link (s : State) :
    (s.announce).link = s.link := by
  rcases s.announce_cases with e | e <;> simp [e]
@[simp] theorem State.announce_seq (s : State) :
    (s.announce).seq = s.seq := by
  rcases s.announce_cases with e | e <;> simp [e]
@[simp] theorem State.announce_handed (s : State) :
    (s.announce).handed = s.handed := by
  rcases s.announce_cases with e | e <;> simp [e]
@[simp] theorem State.announce_stampMinute (s : State) :
    (s.announce).stampMinute = s.stampMinute := by
  rcases s.announce_cases with e | e <;> simp [e]
@[simp] theorem State.announce_freeCount (s : State) :
    (s.announce).freeCount = s.freeCount := by
  rcases s.announce_cases with e | e <;> simp [e]
@[simp] theorem State.announce_pending (s : State) :
    (s.announce).pending = s.pending := by
  rcases s.announce_cases with e | e <;> simp [e]

@[simp] theorem State.announce_reply (s : State) : s.announce.bus.reply = s.bus.reply := by
  rcases s.announce_cases with e | e <;> simp [e]

@[simp] theorem State.announce_join (s : State) : s.announce.pres.join = s.pres.join := by
  rcases s.announce_cases with e | e <;> simp [e]

/-- R157: nothing of the power share unit changes with the announced demand but that demand. -/
theorem State.announce_psu (s : State) : s.announce.psu = { s.psu with announced := s.demandNow } := by
  unfold State.announce
  split
  · rename_i e
    rw [beq_iff_eq.mp e]
  · simp

/-! ## issue, setLevel, issueLevel, rfOff, cutRf (R139, R146) -/

@[simp] theorem State.issue_now (s : State) (r : TxRecord) :
    (s.issue r).now = s.now := by
  unfold State.issue; split <;> rfl
@[simp] theorem State.issue_image (s : State) (r : TxRecord) :
    (s.issue r).image = s.image := by
  unfold State.issue; split <;> rfl
@[simp] theorem State.issue_cfg (s : State) (r : TxRecord) :
    (s.issue r).cfg = s.cfg := by
  unfold State.issue; split <;> rfl
@[simp] theorem State.issue_rfPresent (s : State) (r : TxRecord) :
    (s.issue r).rfPresent = s.rfPresent := by
  unfold State.issue; split <;> rfl
@[simp] theorem State.issue_tripLine (s : State) (r : TxRecord) :
    (s.issue r).tripLine = s.tripLine := by
  unfold State.issue; split <;> rfl
@[simp] theorem State.issue_store (s : State) (r : TxRecord) :
    (s.issue r).store = s.store := by
  unfold State.issue; split <;> rfl
@[simp] theorem State.issue_serial (s : State) (r : TxRecord) :
    (s.issue r).serial = s.serial := by
  unfold State.issue; split <;> rfl
@[simp] theorem State.issue_clock (s : State) (r : TxRecord) :
    (s.issue r).clock = s.clock := by
  unfold State.issue; split <;> rfl
@[simp] theorem State.issue_log (s : State) (r : TxRecord) :
    (s.issue r).log = s.log := by
  unfold State.issue; split <;> rfl
@[simp] theorem State.issue_req (s : State) (r : TxRecord) :
    (s.issue r).req = s.req := by
  unfold State.issue; split <;> rfl
@[simp] theorem State.issue_alert (s : State) (r : TxRecord) :
    (s.issue r).alert = s.alert := by
  unfold State.issue; split <;> rfl
@[simp] theorem State.issue_bus (s : State) (r : TxRecord) :
    (s.issue r).bus = s.bus := by
  unfold State.issue; split <;> rfl
@[simp] theorem State.issue_pres (s : State) (r : TxRecord) :
    (s.issue r).pres = s.pres := by
  unfold State.issue; split <;> rfl
@[simp] theorem State.issue_map (s : State) (r : TxRecord) :
    (s.issue r).map = s.map := by
  unfold State.issue; split <;> rfl
@[simp] theorem State.issue_claim (s : State) (r : TxRecord) :
    (s.issue r).claim = s.claim := by
  unfold State.issue; split <;> rfl
@[simp] theorem State.issue_mat (s : State) (r : TxRecord) :
    (s.issue r).mat = s.mat := by
  unfold State.issue; split <;> rfl
@[simp] theorem State.issue_psu (s : State) (r : TxRecord) :
    (s.issue r).psu = s.psu := by
  unfold State.issue; split <;> rfl
@[simp] theorem State.issue_seq (s : State) (r : TxRecord) :
    (s.issue r).seq = s.seq := by
  unfold State.issue; split <;> rfl
@[simp] theorem State.issue_handed (s : State) (r : TxRecord) :
    (s.issue r).handed = s.handed := by
  unfold State.issue; split <;> rfl
@[simp] theorem State.issue_stampMinute (s : State) (r : TxRecord) :
    (s.issue r).stampMinute = s.stampMinute := by
  unfold State.issue; split <;> rfl
@[simp] theorem State.issue_freeCount (s : State) (r : TxRecord) :
    (s.issue r).freeCount = s.freeCount := by
  unfold State.issue; split <;> rfl
@[simp] theorem State.issue_pending (s : State) (r : TxRecord) :
    (s.issue r).pending = s.pending := by
  unfold State.issue; split <;> rfl

@[simp] theorem State.setLevel_now (s : State) (kw : Nat) :
    (s.setLevel kw).now = s.now := by
  unfold State.setLevel; split <;> rfl
@[simp] theorem State.setLevel_image (s : State) (kw : Nat) :
    (s.setLevel kw).image = s.image := by
  unfold State.setLevel; split <;> rfl
@[simp] theorem State.setLevel_cfg (s : State) (kw : Nat) :
    (s.setLevel kw).cfg = s.cfg := by
  unfold State.setLevel; split <;> rfl
@[simp] theorem State.setLevel_rfPresent (s : State) (kw : Nat) :
    (s.setLevel kw).rfPresent = s.rfPresent := by
  unfold State.setLevel; split <;> rfl
@[simp] theorem State.setLevel_tripLine (s : State) (kw : Nat) :
    (s.setLevel kw).tripLine = s.tripLine := by
  unfold State.setLevel; split <;> rfl
@[simp] theorem State.setLevel_store (s : State) (kw : Nat) :
    (s.setLevel kw).store = s.store := by
  unfold State.setLevel; split <;> rfl
@[simp] theorem State.setLevel_serial (s : State) (kw : Nat) :
    (s.setLevel kw).serial = s.serial := by
  unfold State.setLevel; split <;> rfl
@[simp] theorem State.setLevel_clock (s : State) (kw : Nat) :
    (s.setLevel kw).clock = s.clock := by
  unfold State.setLevel; split <;> rfl
@[simp] theorem State.setLevel_log (s : State) (kw : Nat) :
    (s.setLevel kw).log = s.log := by
  unfold State.setLevel; split <;> rfl
@[simp] theorem State.setLevel_req (s : State) (kw : Nat) :
    (s.setLevel kw).req = s.req := by
  unfold State.setLevel; split <;> rfl
@[simp] theorem State.setLevel_alert (s : State) (kw : Nat) :
    (s.setLevel kw).alert = s.alert := by
  unfold State.setLevel; split <;> rfl
@[simp] theorem State.setLevel_bus (s : State) (kw : Nat) :
    (s.setLevel kw).bus = s.bus := by
  unfold State.setLevel; split <;> rfl
@[simp] theorem State.setLevel_pres (s : State) (kw : Nat) :
    (s.setLevel kw).pres = s.pres := by
  unfold State.setLevel; split <;> rfl
@[simp] theorem State.setLevel_map (s : State) (kw : Nat) :
    (s.setLevel kw).map = s.map := by
  unfold State.setLevel; split <;> rfl
@[simp] theorem State.setLevel_claim (s : State) (kw : Nat) :
    (s.setLevel kw).claim = s.claim := by
  unfold State.setLevel; split <;> rfl
@[simp] theorem State.setLevel_mat (s : State) (kw : Nat) :
    (s.setLevel kw).mat = s.mat := by
  unfold State.setLevel; split <;> rfl
@[simp] theorem State.setLevel_psu (s : State) (kw : Nat) :
    (s.setLevel kw).psu = s.psu := by
  unfold State.setLevel; split <;> rfl
@[simp] theorem State.setLevel_seq (s : State) (kw : Nat) :
    (s.setLevel kw).seq = s.seq := by
  unfold State.setLevel; split <;> rfl
@[simp] theorem State.setLevel_stampMinute (s : State) (kw : Nat) :
    (s.setLevel kw).stampMinute = s.stampMinute := by
  unfold State.setLevel; split <;> rfl
@[simp] theorem State.setLevel_freeCount (s : State) (kw : Nat) :
    (s.setLevel kw).freeCount = s.freeCount := by
  unfold State.setLevel; split <;> rfl
@[simp] theorem State.setLevel_pending (s : State) (kw : Nat) :
    (s.setLevel kw).pending = s.pending := by
  unfold State.setLevel; split <;> rfl

@[simp] theorem State.issueLevel_now (s : State) (kw : Nat) :
    (s.issueLevel kw).now = s.now := by
  unfold State.issueLevel; simp
@[simp] theorem State.issueLevel_image (s : State) (kw : Nat) :
    (s.issueLevel kw).image = s.image := by
  unfold State.issueLevel; simp
@[simp] theorem State.issueLevel_cfg (s : State) (kw : Nat) :
    (s.issueLevel kw).cfg = s.cfg := by
  unfold State.issueLevel; simp
@[simp] theorem State.issueLevel_rfPresent (s : State) (kw : Nat) :
    (s.issueLevel kw).rfPresent = s.rfPresent := by
  unfold State.issueLevel; simp
@[simp] theorem State.issueLevel_tripLine (s : State) (kw : Nat) :
    (s.issueLevel kw).tripLine = s.tripLine := by
  unfold State.issueLevel; simp
@[simp] theorem State.issueLevel_store (s : State) (kw : Nat) :
    (s.issueLevel kw).store = s.store := by
  unfold State.issueLevel; simp
@[simp] theorem State.issueLevel_serial (s : State) (kw : Nat) :
    (s.issueLevel kw).serial = s.serial := by
  unfold State.issueLevel; simp
@[simp] theorem State.issueLevel_clock (s : State) (kw : Nat) :
    (s.issueLevel kw).clock = s.clock := by
  unfold State.issueLevel; simp
@[simp] theorem State.issueLevel_log (s : State) (kw : Nat) :
    (s.issueLevel kw).log = s.log := by
  unfold State.issueLevel; simp
@[simp] theorem State.issueLevel_req (s : State) (kw : Nat) :
    (s.issueLevel kw).req = s.req := by
  unfold State.issueLevel; simp
@[simp] theorem State.issueLevel_alert (s : State) (kw : Nat) :
    (s.issueLevel kw).alert = s.alert := by
  unfold State.issueLevel; simp
@[simp] theorem State.issueLevel_bus (s : State) (kw : Nat) :
    (s.issueLevel kw).bus = s.bus := by
  unfold State.issueLevel; simp
@[simp] theorem State.issueLevel_pres (s : State) (kw : Nat) :
    (s.issueLevel kw).pres = s.pres := by
  unfold State.issueLevel; simp
@[simp] theorem State.issueLevel_map (s : State) (kw : Nat) :
    (s.issueLevel kw).map = s.map := by
  unfold State.issueLevel; simp
@[simp] theorem State.issueLevel_claim (s : State) (kw : Nat) :
    (s.issueLevel kw).claim = s.claim := by
  unfold State.issueLevel; simp
@[simp] theorem State.issueLevel_mat (s : State) (kw : Nat) :
    (s.issueLevel kw).mat = s.mat := by
  unfold State.issueLevel; simp
@[simp] theorem State.issueLevel_psu (s : State) (kw : Nat) :
    (s.issueLevel kw).psu = s.psu := by
  unfold State.issueLevel; simp
@[simp] theorem State.issueLevel_seq (s : State) (kw : Nat) :
    (s.issueLevel kw).seq = s.seq := by
  unfold State.issueLevel; simp
@[simp] theorem State.issueLevel_stampMinute (s : State) (kw : Nat) :
    (s.issueLevel kw).stampMinute = s.stampMinute := by
  unfold State.issueLevel; simp
@[simp] theorem State.issueLevel_freeCount (s : State) (kw : Nat) :
    (s.issueLevel kw).freeCount = s.freeCount := by
  unfold State.issueLevel; simp
@[simp] theorem State.issueLevel_pending (s : State) (kw : Nat) :
    (s.issueLevel kw).pending = s.pending := by
  unfold State.issueLevel; simp

@[simp] theorem State.rfOff_now (s : State) : (s.rfOff).now = s.now := by
  unfold State.rfOff; simp
@[simp] theorem State.rfOff_image (s : State) : (s.rfOff).image = s.image := by
  unfold State.rfOff; simp
@[simp] theorem State.rfOff_cfg (s : State) : (s.rfOff).cfg = s.cfg := by
  unfold State.rfOff; simp
@[simp] theorem State.rfOff_rfPresent (s : State) : (s.rfOff).rfPresent = s.rfPresent := by
  unfold State.rfOff; simp
@[simp] theorem State.rfOff_tripLine (s : State) : (s.rfOff).tripLine = s.tripLine := by
  unfold State.rfOff; simp
@[simp] theorem State.rfOff_store (s : State) : (s.rfOff).store = s.store := by
  unfold State.rfOff; simp
@[simp] theorem State.rfOff_serial (s : State) : (s.rfOff).serial = s.serial := by
  unfold State.rfOff; simp
@[simp] theorem State.rfOff_clock (s : State) : (s.rfOff).clock = s.clock := by
  unfold State.rfOff; simp
@[simp] theorem State.rfOff_log (s : State) : (s.rfOff).log = s.log := by
  unfold State.rfOff; simp
@[simp] theorem State.rfOff_req (s : State) : (s.rfOff).req = s.req := by
  unfold State.rfOff; simp
@[simp] theorem State.rfOff_alert (s : State) : (s.rfOff).alert = s.alert := by
  unfold State.rfOff; simp
@[simp] theorem State.rfOff_bus (s : State) : (s.rfOff).bus = s.bus := by
  unfold State.rfOff; simp
@[simp] theorem State.rfOff_pres (s : State) : (s.rfOff).pres = s.pres := by
  unfold State.rfOff; simp
@[simp] theorem State.rfOff_map (s : State) : (s.rfOff).map = s.map := by
  unfold State.rfOff; simp
@[simp] theorem State.rfOff_claim (s : State) : (s.rfOff).claim = s.claim := by
  unfold State.rfOff; simp
@[simp] theorem State.rfOff_mat (s : State) : (s.rfOff).mat = s.mat := by
  unfold State.rfOff; simp
@[simp] theorem State.rfOff_psu (s : State) : (s.rfOff).psu = s.psu := by
  unfold State.rfOff; simp
@[simp] theorem State.rfOff_seq (s : State) : (s.rfOff).seq = s.seq := by
  unfold State.rfOff; simp
@[simp] theorem State.rfOff_stampMinute (s : State) :
    (s.rfOff).stampMinute = s.stampMinute := by
  unfold State.rfOff; simp
@[simp] theorem State.rfOff_freeCount (s : State) : (s.rfOff).freeCount = s.freeCount := by
  unfold State.rfOff; simp
@[simp] theorem State.rfOff_pending (s : State) : (s.rfOff).pending = s.pending := by
  unfold State.rfOff; simp

@[simp] theorem State.cutRf_now (s : State) : (s.cutRf).now = s.now := by
  unfold State.cutRf; simp
@[simp] theorem State.cutRf_image (s : State) : (s.cutRf).image = s.image := by
  unfold State.cutRf; simp
@[simp] theorem State.cutRf_cfg (s : State) : (s.cutRf).cfg = s.cfg := by
  unfold State.cutRf; simp
@[simp] theorem State.cutRf_rfPresent (s : State) : (s.cutRf).rfPresent = s.rfPresent := by
  unfold State.cutRf; simp
@[simp] theorem State.cutRf_tripLine (s : State) : (s.cutRf).tripLine = s.tripLine := by
  unfold State.cutRf; simp
@[simp] theorem State.cutRf_store (s : State) : (s.cutRf).store = s.store := by
  unfold State.cutRf; simp
@[simp] theorem State.cutRf_serial (s : State) : (s.cutRf).serial = s.serial := by
  unfold State.cutRf; simp
@[simp] theorem State.cutRf_clock (s : State) : (s.cutRf).clock = s.clock := by
  unfold State.cutRf; simp
@[simp] theorem State.cutRf_log (s : State) : (s.cutRf).log = s.log := by
  unfold State.cutRf; simp
@[simp] theorem State.cutRf_req (s : State) : (s.cutRf).req = s.req := by
  unfold State.cutRf; simp
@[simp] theorem State.cutRf_alert (s : State) : (s.cutRf).alert = s.alert := by
  unfold State.cutRf; simp
@[simp] theorem State.cutRf_bus (s : State) : (s.cutRf).bus = s.bus := by
  unfold State.cutRf; simp
@[simp] theorem State.cutRf_pres (s : State) : (s.cutRf).pres = s.pres := by
  unfold State.cutRf; simp
@[simp] theorem State.cutRf_map (s : State) : (s.cutRf).map = s.map := by
  unfold State.cutRf; simp
@[simp] theorem State.cutRf_claim (s : State) : (s.cutRf).claim = s.claim := by
  unfold State.cutRf; simp
@[simp] theorem State.cutRf_mat (s : State) : (s.cutRf).mat = s.mat := by
  unfold State.cutRf; simp
@[simp] theorem State.cutRf_psu (s : State) : (s.cutRf).psu = s.psu := by
  unfold State.cutRf; simp
@[simp] theorem State.cutRf_seq (s : State) : (s.cutRf).seq = s.seq := by
  unfold State.cutRf; simp
@[simp] theorem State.cutRf_stampMinute (s : State) :
    (s.cutRf).stampMinute = s.stampMinute := by
  unfold State.cutRf; simp
@[simp] theorem State.cutRf_freeCount (s : State) : (s.cutRf).freeCount = s.freeCount := by
  unfold State.cutRf; simp
@[simp] theorem State.cutRf_pending (s : State) : (s.cutRf).pending = s.pending := by
  unfold State.cutRf; simp

@[simp] theorem State.trySettle_now (s : State) :
    (s.trySettle).now = s.now := by
  unfold State.trySettle; split <;> rfl
@[simp] theorem State.trySettle_image (s : State) :
    (s.trySettle).image = s.image := by
  unfold State.trySettle; split <;> rfl
@[simp] theorem State.trySettle_cfg (s : State) :
    (s.trySettle).cfg = s.cfg := by
  unfold State.trySettle; split <;> rfl
@[simp] theorem State.trySettle_rfPresent (s : State) :
    (s.trySettle).rfPresent = s.rfPresent := by
  unfold State.trySettle; split <;> rfl
@[simp] theorem State.trySettle_tripLine (s : State) :
    (s.trySettle).tripLine = s.tripLine := by
  unfold State.trySettle; split <;> rfl
@[simp] theorem State.trySettle_store (s : State) :
    (s.trySettle).store = s.store := by
  unfold State.trySettle; split <;> rfl
@[simp] theorem State.trySettle_serial (s : State) :
    (s.trySettle).serial = s.serial := by
  unfold State.trySettle; split <;> rfl
@[simp] theorem State.trySettle_clock (s : State) :
    (s.trySettle).clock = s.clock := by
  unfold State.trySettle; split <;> rfl
@[simp] theorem State.trySettle_log (s : State) :
    (s.trySettle).log = s.log := by
  unfold State.trySettle; split <;> rfl
@[simp] theorem State.trySettle_req (s : State) :
    (s.trySettle).req = s.req := by
  unfold State.trySettle; split <;> rfl
@[simp] theorem State.trySettle_alert (s : State) :
    (s.trySettle).alert = s.alert := by
  unfold State.trySettle; split <;> rfl
@[simp] theorem State.trySettle_bus (s : State) :
    (s.trySettle).bus = s.bus := by
  unfold State.trySettle; split <;> rfl
@[simp] theorem State.trySettle_pres (s : State) :
    (s.trySettle).pres = s.pres := by
  unfold State.trySettle; split <;> rfl
@[simp] theorem State.trySettle_map (s : State) :
    (s.trySettle).map = s.map := by
  unfold State.trySettle; split <;> rfl
@[simp] theorem State.trySettle_claim (s : State) :
    (s.trySettle).claim = s.claim := by
  unfold State.trySettle; split <;> rfl
@[simp] theorem State.trySettle_mat (s : State) :
    (s.trySettle).mat = s.mat := by
  unfold State.trySettle; split <;> rfl
@[simp] theorem State.trySettle_psu (s : State) :
    (s.trySettle).psu = s.psu := by
  unfold State.trySettle; split <;> rfl
@[simp] theorem State.trySettle_seq (s : State) :
    (s.trySettle).seq = s.seq := by
  unfold State.trySettle; split <;> rfl
@[simp] theorem State.trySettle_stampMinute (s : State) :
    (s.trySettle).stampMinute = s.stampMinute := by
  unfold State.trySettle; split <;> rfl
@[simp] theorem State.trySettle_freeCount (s : State) :
    (s.trySettle).freeCount = s.freeCount := by
  unfold State.trySettle; split <;> rfl
@[simp] theorem State.trySettle_pending (s : State) :
    (s.trySettle).pending = s.pending := by
  unfold State.trySettle; split <;> rfl


end Sys2Proof.Machine

/-! SUPPORT. The occurrence on the air ends with nothing to follow it: its record, the ramp-down and the release that waits
for it (R171, R172, R177, R148, R165). -/

namespace Sys2Proof.Machine

/-! ## Records of the link (R139, R146) -/

theorem State.mayIssue_of {s : State} (hj : s.pres.join ≠ .disabled) (hl : s.link.state ≠ .lost)
    (hr : s.link.localFlag = false) : s.mayIssue = true := by
  simp [State.mayIssue, hj, hl, hr]

/-- R139: a record is issued behind those that wait. -/
theorem State.issue_eq {s : State} (h : s.mayIssue = true) (r : TxRecord) :
    s.issue r = { s with
      link := { s.link with out := s.link.out ++ [{ record := r, ends := s.link.sentAt s.now r }] } } := by
  unfold State.issue
  rw [if_pos h]

/-- R139: the commanded level, with its change handed on. -/
theorem State.setLevel_eq (s : State) (kw : Nat) :
    s.setLevel kw = { s with
      link := { s.link with level := kw }, handed := s.handed ++ if s.link.level = kw then [] else [.levelChanged] } := by
  unfold State.setLevel
  by_cases h : s.link.level = kw
  · subst h
    simp
  · simp [h, State.emit]

/-- R146: LEVEL at the lesser of its own value and the level limit. -/
theorem State.issueLevel_eq {s : State} (h : s.mayIssue = true) (kw : Nat) :
    let v := min kw (s.levelLimit ((s.link.ramp.map (·.carrier)).getD kw))
    s.issueLevel kw = { s with
      link := { s.link with
        out := s.link.out ++ [{ record := .level v, ends := s.link.sentAt s.now (.level v) }], level := v },
      handed := s.handed ++ if s.link.level = v then [] else [.levelChanged] } := by
  unfold State.issueLevel
  dsimp only
  rw [State.issue_eq h, State.setLevel_eq]

/-! ## The occurrence on the air ends (R177) -/

/-- R148: the four rungs of a ramp-down and the RF off after them. -/
def downPlan (now level : Nat) : List PlanItem :=
  [{ due := now + 500, act := .level (max 1 (level / 2)) }, { due := now + 1000, act := .level (max 1 (level / 4)) },
    { due := now + 1500, act := .level 0 }, { due := now + 2000, act := .rfOff }]

/-- R148 steps 1 and 2. -/
theorem State.startRampDown_eq {s : State} (h : s.mayIssue = true) (hl : s.link.level ≠ 0) :
    let first := max 1 (s.link.level * 3 / 4)
    let v := min first (s.levelLimit ((s.link.ramp.map (·.carrier)).getD first))
    s.startRampDown = { s with
      link := { s.link.stopWork with
        op := .rampDown, level := v, plan := downPlan s.now s.link.level,
        out := s.link.out ++ [{ record := .level v, ends := s.link.sentAt s.now (.level v) }] },
      handed := s.handed ++ if s.link.level = v then [] else [.levelChanged] } := by
  have may : State.mayIssue { s with link := { s.link.stopWork with op := .rampDown } } = true := h
  have issued := State.issueLevel_eq may (max 1 (s.link.level * 3 / 4))
  unfold State.startRampDown
  rw [if_neg (by simpa using hl)]
  dsimp only
  rw [issued]
  rfl

@[simp] theorem State.endCarrier_now (s : State) : (s.endCarrier).now = s.now := by
  unfold State.endCarrier; simp
@[simp] theorem State.endCarrier_image (s : State) :
    (s.endCarrier).image = s.image := by
  unfold State.endCarrier; simp
@[simp] theorem State.endCarrier_cfg (s : State) : (s.endCarrier).cfg = s.cfg := by
  unfold State.endCarrier; simp
@[simp] theorem State.endCarrier_rfPresent (s : State) :
    (s.endCarrier).rfPresent = s.rfPresent := by
  unfold State.endCarrier; simp
@[simp] theorem State.endCarrier_tripLine (s : State) :
    (s.endCarrier).tripLine = s.tripLine := by
  unfold State.endCarrier; simp
@[simp] theorem State.endCarrier_store (s : State) :
    (s.endCarrier).store = s.store := by
  unfold State.endCarrier; simp
@[simp] theorem State.endCarrier_serial (s : State) :
    (s.endCarrier).serial = s.serial := by
  unfold State.endCarrier; simp
@[simp] theorem State.endCarrier_clock (s : State) :
    (s.endCarrier).clock = s.clock := by
  unfold State.endCarrier; simp
@[simp] theorem State.endCarrier_log (s : State) : (s.endCarrier).log = s.log := by
  unfold State.endCarrier; simp
@[simp] theorem State.endCarrier_req (s : State) : (s.endCarrier).req = s.req := by
  unfold State.endCarrier; simp
@[simp] theorem State.endCarrier_alert (s : State) :
    (s.endCarrier).alert = s.alert := by
  unfold State.endCarrier; simp
@[simp] theorem State.endCarrier_bus (s : State) : (s.endCarrier).bus = s.bus := by
  unfold State.endCarrier; simp
@[simp] theorem State.endCarrier_pres (s : State) : (s.endCarrier).pres = s.pres := by
  unfold State.endCarrier; simp
@[simp] theorem State.endCarrier_map (s : State) : (s.endCarrier).map = s.map := by
  unfold State.endCarrier; simp
@[simp] theorem State.endCarrier_claim (s : State) :
    (s.endCarrier).claim = s.claim := by
  unfold State.endCarrier; simp
@[simp] theorem State.endCarrier_mat (s : State) : (s.endCarrier).mat = s.mat := by
  unfold State.endCarrier; simp
@[simp] theorem State.endCarrier_psu (s : State) : (s.endCarrier).psu = s.psu := by
  unfold State.endCarrier; simp
@[simp] theorem State.endCarrier_seq (s : State) : (s.endCarrier).seq = s.seq := by
  unfold State.endCarrier; simp
@[simp] theorem State.endCarrier_stampMinute (s : State) :
    (s.endCarrier).stampMinute = s.stampMinute := by
  unfold State.endCarrier; simp
@[simp] theorem State.endCarrier_freeCount (s : State) :
    (s.endCarrier).freeCount = s.freeCount := by
  unfold State.endCarrier; simp
@[simp] theorem State.endCarrier_pending (s : State) :
    (s.endCarrier).pending = s.pending := by
  unfold State.endCarrier; simp

@[simp] theorem State.startRampDown_now (s : State) :
    (s.startRampDown).now = s.now := by
  unfold State.startRampDown; dsimp only; split <;> simp
@[simp] theorem State.startRampDown_image (s : State) :
    (s.startRampDown).image = s.image := by
  unfold State.startRampDown; dsimp only; split <;> simp
@[simp] theorem State.startRampDown_cfg (s : State) :
    (s.startRampDown).cfg = s.cfg := by
  unfold State.startRampDown; dsimp only; split <;> simp
@[simp] theorem State.startRampDown_rfPresent (s : State) :
    (s.startRampDown).rfPresent = s.rfPresent := by
  unfold State.startRampDown; dsimp only; split <;> simp
@[simp] theorem State.startRampDown_tripLine (s : State) :
    (s.startRampDown).tripLine = s.tripLine := by
  unfold State.startRampDown; dsimp only; split <;> simp
@[simp] theorem State.startRampDown_store (s : State) :
    (s.startRampDown).store = s.store := by
  unfold State.startRampDown; dsimp only; split <;> simp
@[simp] theorem State.startRampDown_serial (s : State) :
    (s.startRampDown).serial = s.serial := by
  unfold State.startRampDown; dsimp only; split <;> simp
@[simp] theorem State.startRampDown_clock (s : State) :
    (s.startRampDown).clock = s.clock := by
  unfold State.startRampDown; dsimp only; split <;> simp
@[simp] theorem State.startRampDown_log (s : State) :
    (s.startRampDown).log = s.log := by
  unfold State.startRampDown; dsimp only; split <;> simp
@[simp] theorem State.startRampDown_req (s : State) :
    (s.startRampDown).req = s.req := by
  unfold State.startRampDown; dsimp only; split <;> simp
@[simp] theorem State.startRampDown_alert (s : State) :
    (s.startRampDown).alert = s.alert := by
  unfold State.startRampDown; dsimp only; split <;> simp
@[simp] theorem State.startRampDown_bus (s : State) :
    (s.startRampDown).bus = s.bus := by
  unfold State.startRampDown; dsimp only; split <;> simp
@[simp] theorem State.startRampDown_pres (s : State) :
    (s.startRampDown).pres = s.pres := by
  unfold State.startRampDown; dsimp only; split <;> simp
@[simp] theorem State.startRampDown_map (s : State) :
    (s.startRampDown).map = s.map := by
  unfold State.startRampDown; dsimp only; split <;> simp
@[simp] theorem State.startRampDown_claim (s : State) :
    (s.startRampDown).claim = s.claim := by
  unfold State.startRampDown; dsimp only; split <;> simp
@[simp] theorem State.startRampDown_mat (s : State) :
    (s.startRampDown).mat = s.mat := by
  unfold State.startRampDown; dsimp only; split <;> simp
@[simp] theorem State.startRampDown_psu (s : State) :
    (s.startRampDown).psu = s.psu := by
  unfold State.startRampDown; dsimp only; split <;> simp
@[simp] theorem State.startRampDown_seq (s : State) :
    (s.startRampDown).seq = s.seq := by
  unfold State.startRampDown; dsimp only; split <;> simp
@[simp] theorem State.startRampDown_stampMinute (s : State) :
    (s.startRampDown).stampMinute = s.stampMinute := by
  unfold State.startRampDown; dsimp only; split <;> simp
@[simp] theorem State.startRampDown_freeCount (s : State) :
    (s.startRampDown).freeCount = s.freeCount := by
  unfold State.startRampDown; dsimp only; split <;> simp
@[simp] theorem State.startRampDown_pending (s : State) :
    (s.startRampDown).pending = s.pending := by
  unfold State.startRampDown; dsimp only; split <;> simp

/-- R165: with no admission in progress the Release waits for a level of 0. -/
theorem State.releaseAdmission_eq {s : State} (hp : s.psu.phase = .none) :
    s.releaseAdmission = State.settleRelease { s with psu := { s.psu with releasePending := true } } := by
  unfold State.releaseAdmission State.cancelAdmission
  simp [hp]

theorem State.settleRelease_of_level {s : State} (h : s.link.level ≠ 0) : s.settleRelease = s := by
  unfold State.settleRelease
  simp [h]


@[simp] theorem State.settleRelease_now (s : State) :
    (s.settleRelease).now = s.now := by
  unfold State.settleRelease; split <;> simp
@[simp] theorem State.settleRelease_image (s : State) :
    (s.settleRelease).image = s.image := by
  unfold State.settleRelease; split <;> simp
@[simp] theorem State.settleRelease_cfg (s : State) :
    (s.settleRelease).cfg = s.cfg := by
  unfold State.settleRelease; split <;> simp
@[simp] theorem State.settleRelease_rfPresent (s : State) :
    (s.settleRelease).rfPresent = s.rfPresent := by
  unfold State.settleRelease; split <;> simp
@[simp] theorem State.settleRelease_tripLine (s : State) :
    (s.settleRelease).tripLine = s.tripLine := by
  unfold State.settleRelease; split <;> simp
@[simp] theorem State.settleRelease_store (s : State) :
    (s.settleRelease).store = s.store := by
  unfold State.settleRelease; split <;> simp
@[simp] theorem State.settleRelease_serial (s : State) :
    (s.settleRelease).serial = s.serial := by
  unfold State.settleRelease; split <;> simp
@[simp] theorem State.settleRelease_clock (s : State) :
    (s.settleRelease).clock = s.clock := by
  unfold State.settleRelease; split <;> simp
@[simp] theorem State.settleRelease_log (s : State) :
    (s.settleRelease).log = s.log := by
  unfold State.settleRelease; split <;> simp
@[simp] theorem State.settleRelease_req (s : State) :
    (s.settleRelease).req = s.req := by
  unfold State.settleRelease; split <;> simp
@[simp] theorem State.settleRelease_alert (s : State) :
    (s.settleRelease).alert = s.alert := by
  unfold State.settleRelease; split <;> simp
@[simp] theorem State.settleRelease_map (s : State) :
    (s.settleRelease).map = s.map := by
  unfold State.settleRelease; split <;> simp
@[simp] theorem State.settleRelease_claim (s : State) :
    (s.settleRelease).claim = s.claim := by
  unfold State.settleRelease; split <;> simp
@[simp] theorem State.settleRelease_mat (s : State) :
    (s.settleRelease).mat = s.mat := by
  unfold State.settleRelease; split <;> simp
@[simp] theorem State.settleRelease_link (s : State) :
    (s.settleRelease).link = s.link := by
  unfold State.settleRelease; split <;> simp
@[simp] theorem State.settleRelease_seq (s : State) :
    (s.settleRelease).seq = s.seq := by
  unfold State.settleRelease; split <;> simp
@[simp] theorem State.settleRelease_handed (s : State) :
    (s.settleRelease).handed = s.handed := by
  unfold State.settleRelease; split <;> simp
@[simp] theorem State.settleRelease_stampMinute (s : State) :
    (s.settleRelease).stampMinute = s.stampMinute := by
  unfold State.settleRelease; split <;> simp
@[simp] theorem State.settleRelease_freeCount (s : State) :
    (s.settleRelease).freeCount = s.freeCount := by
  unfold State.settleRelease; split <;> simp
@[simp] theorem State.settleRelease_pending (s : State) :
    (s.settleRelease).pending = s.pending := by
  unfold State.settleRelease; split <;> simp

@[simp] theorem Bus.placeNotice_lastHeard (b : Bus) (n : NoticeFrame) : (b.placeNotice n).lastHeard = b.lastHeard := by
  unfold Bus.placeNotice
  split <;> rfl

@[simp] theorem State.noticeChange_lastHeard (s : State) : s.noticeChange.bus.lastHeard = s.bus.lastHeard := by
  rcases s.noticeChange_cases with e | e | e <;> simp [e, State.placeNotice]

@[simp] theorem Bus.placeLogrec_lastHeard (b : Bus) (r : LogRecord) : (b.placeLogrec r).lastHeard = b.lastHeard := by
  unfold Bus.placeLogrec
  split
  · rfl
  · split <;> rfl

@[simp] theorem State.writeLog_lastHeard (s : State) (b : LogBody) :
    (s.writeLog b).bus.lastHeard = s.bus.lastHeard := by
  rw [State.writeLog_bus]
  split <;> simp

@[simp] theorem State.announce_lastHeard (s : State) : s.announce.bus.lastHeard = s.bus.lastHeard := by
  rcases s.announce_cases with e | e <;> simp [e]

@[simp] theorem State.settleRelease_lastHeard (s : State) :
    s.settleRelease.bus.lastHeard = s.bus.lastHeard := by
  unfold State.settleRelease; split <;> simp

@[simp] theorem State.settleRelease_reply (s : State) : s.settleRelease.bus.reply = s.bus.reply := by
  unfold State.settleRelease; split <;> simp

@[simp] theorem State.settleRelease_join (s : State) : s.settleRelease.pres.join = s.pres.join := by
  unfold State.settleRelease; split <;> simp

/-- R165: at a level of 0 the Release is made, and nothing waits any more; above it the Release waits. -/
theorem State.settleRelease_waits (s : State) (hl : s.psu.pendingLower = none) :
    s.settleRelease.psu.pendingLower = none
      ∧ (s.settleRelease.psu.releasePending = true → s.link.level ≠ 0) := by
  unfold State.settleRelease
  split
  · simp [State.announce_psu]
  · rename_i h
    refine ⟨hl, fun hp => ?_⟩
    simpa [hp] using h

/-- R146: the level limit is read off the map, the configuration and local time. -/
theorem State.levelLimit_congr {s t : State} (hm : t.map = s.map) (hc : t.cfg = s.cfg) (hn : t.now = s.now)
    (carrier : Nat) : t.levelLimit carrier = s.levelLimit carrier := by
  unfold State.levelLimit State.localSecond
  rw [hm, hc, hn]

/-- What stands through an end: all that the record, the link, the power share unit and the sequencer do not hold. -/
structure EndKeeps (s u : State) : Prop where
  now     : u.now = s.now
  image   : u.image = s.image
  cfg     : u.cfg = s.cfg
  store   : u.store = s.store
  serial  : u.serial = s.serial
  clock   : u.clock = s.clock
  req     : u.req = s.req
  map     : u.map = s.map
  mat     : u.mat = s.mat
  claim   : u.claim = s.claim
  join    : u.pres.join = s.pres.join
  reply   : u.bus.reply = s.bus.reply
  rf      : u.rfPresent = s.rfPresent
  heard   : u.bus.lastHeard = s.bus.lastHeard

/-- The end of the occurrence on the air, with what it hands out: a change of the level at most, of which the power share
unit has nothing more to make. -/
structure CutTo (s u : State) (o : Occurrence) (k : Taken) (code : EndCode) (kw : Nat) : Prop
    extends State.RampsDown s u o k code kw, EndKeeps s u where
  logged : ∃ b, u.log = (s.writeLog b).log
  handed : u.handed = [] ∨ u.handed = [.levelChanged]
  lower  : u.psu.pendingLower = none
  waits  : u.psu.releasePending = true → u.link.level ≠ 0

namespace State.OnAir
variable {s : State} {o : Occurrence} {k : Taken} (h : s.OnAir o k)
include h

theorem terminal : s.seq.cur.terminal = some k.terminal := by
  unfold Ctx.terminal
  rw [h.taken]
  rfl

theorem offAir : s.seq.cur.offAir s.now = min 86400 s.seq.cur.offSecs := by
  unfold Ctx.offAir
  rw [h.steadily]
  rfl

/-- R172: the record of the end. -/
theorem writeEnd_eq (code : EndCode) :
    s.writeEnd s.seq.cur code = s.writeLog (.entryOff o.source o.number code (some k.terminal) s.seq.cur.admitted
      s.seq.cur.trips (min 86400 s.seq.cur.offSecs)) := by
  unfold State.writeEnd
  simp only [h.occ, h.mark, if_true, h.terminal, h.offAir]
  rfl

/-- R177, R178: the carrier ramps down, the admission is released, and C is emptied with its terminal to be released. -/
theorem clearCur_eq (hn : s.seq.nxt = Ctx.reset) (b : LogBody) :
    let a := (s.writeLog b).startRampDown
    (s.writeLog b).clearCur = { State.settleRelease { a with psu := { a.psu with releasePending := true } } with
      seq := { s.seq with cur := { Ctx.reset with
        state := .ending, release := some { terminal := k.terminal, stage := .settle, waitLink := false } } } } := by
  have stop : (s.writeLog b).stopWork = (s.writeLog b).startRampDown := by
    simp [State.stopWork, State.rampDown, h.state, h.op]
  have power : (s.writeLog b).startRampDown.psu.phase = .none := by simpa using h.phase
  have held : (s.writeLog b).heldTerminal = some k.terminal := by simpa [State.heldTerminal] using h.held
  have carrier : (s.writeLog b).onCarrier = true := by simp [State.onCarrier, h.op]
  unfold State.clearCur
  simp only [State.writeLog_seq, h.terminal, held, carrier, stop, State.releaseAdmission_eq power, beq_self_eq_true,
    Bool.true_or, if_true]
  simp [State.holderOf, Ctx.terminal, Ctx.emptied, hn, Ctx.reset, State.startRelease, State.setCur, h.calm.release, h.unspent]

/-- R177: the end of the occurrence on the air, with nothing in the next context. -/
theorem cutTo (hn : s.seq.nxt = Ctx.reset) {q : RampParams} (hq : s.link.ramp = some q) (code : EndCode) :
    CutTo s (s.writeEnd s.seq.cur code).clearCur o k code
      (min (max 1 (s.link.level * 3 / 4)) (s.levelLimit q.carrier)) := by
  rw [h.writeEnd_eq, h.clearCur_eq hn]
  generalize hb : LogBody.entryOff _ _ _ _ _ _ _ = b
  have may : (s.writeLog b).mayIssue = true := by
    simpa [State.mayIssue] using State.mayIssue_of h.join h.link h.remote
  have limit : (s.writeLog b).levelLimit q.carrier = s.levelLimit q.carrier :=
    State.levelLimit_congr (by simp) (by simp) (by simp) _
  have down := State.startRampDown_eq may (by simpa using h.level)
  simp only [State.writeLog_link, State.writeLog_now, State.writeLog_handed, hq, Option.map_some, Option.getD_some,
    limit] at down
  generalize hv : min (max 1 (s.link.level * 3 / 4)) (s.levelLimit q.carrier) = v at *
  have link := congrArg State.link down
  have handed := congrArg State.handed down
  have power := State.settleRelease_waits
    { (s.writeLog b).startRampDown with psu := { (s.writeLog b).startRampDown.psu with releasePending := true } }
    (by simpa using h.lower)
  exact
    { record := ⟨s.recordOf b, by simp, by simp [← hb]⟩
      context := rfl
      op := by simp [link]
      level := by simp [link]
      permit := by simp [link, Link.stopWork]
      issued := by simp [link]
      plan := by simp [link, downPlan]
      power := fun hv => by
        rw [State.settleRelease_of_level (by simpa [link] using hv)]
        simp
      now := by simp
      image := by simp
      cfg := by simp
      store := by simp
      serial := by simp
      clock := by simp
      req := by simp
      map := by simp
      mat := by simp
      claim := by simp
      join := by simp
      reply := by simp
      rf := by simp
      logged := ⟨b, by simp⟩
      heard := by simp
      handed := by
        simp only [State.settleRelease_handed, handed, h.calm.handed, List.nil_append]
        split
        · exact .inl rfl
        · exact .inr rfl
      lower := power.1
      waits := fun hp => by simpa using power.2 hp }

end State.OnAir

end Sys2Proof.Machine

/-! SUPPORT. A re-evaluation that finds nothing current and nothing next cuts the occurrence on the air (R170, R171). -/

namespace Sys2Proof.Machine

/-- R177: what keeps an emptied C in ENDING: nothing waits, and a terminal to be released is not the next context's and
waits for the link. -/
structure State.Lingers (s : State) : Prop where
  ending  : s.seq.ending = none
  occ     : s.seq.cur.occ = none
  taken   : s.seq.cur.taken = none
  release : ∀ r, s.seq.cur.release = some r → r.stage = .settle ∧ s.seq.nxt.terminal ≠ some r.terminal
  link    : s.link.op ≠ .none
  search  : s.seq.nxt.deferred = false

namespace State.Lingers
variable {s : State} (h : s.Lingers)
include h

theorem advanceRelease (last : Bool) : s.advanceRelease last = s := by
  unfold State.advanceRelease
  split
  · rename_i t hr
    have other : s.seq.nxt.terminal ≠ some t := (h.release _ hr).2
    have free : s.holderOf t = none := by
      unfold State.holderOf
      simp [Ctx.terminal, h.taken, show s.seq.nxt.taken.map (·.terminal) ≠ some t from other]
    have waits : s.mayOpen last = false := by simp [State.mayOpen, h.link]
    simp [free, waits]
  · rfl

theorem advance (last : Bool) : s.advance last = s := by
  have await : s.advanceAwait last = s := by
    unfold State.advanceAwait
    simp [h.occ]
  have search : s.tryNextSearch = s := by
    unfold State.tryNextSearch
    split
    · rfl
    · simp [h.search]
  unfold State.advance State.advanceEnding
  simp only [h.ending]
  rw [h.advanceRelease, await, search]

end State.Lingers

/-- A hand-out after which an emptied C lingers in ENDING. -/
theorem State.DrainsTo.takeLingers {s a u : State} {m : Handed} {rest : List Handed} {n : Nat}
    (hs : s.handed = m :: rest) (ha : State.take { s with handed := [] } m = a) (hl : a.Lingers)
    (d : State.DrainsTo { a with handed := a.handed ++ rest } u n) : s.DrainsTo u (n + 1) :=
  State.DrainsTo.take hs (ha ▸ (ha ▸ hl).advance _) d

theorem State.setEnding_none {s : State} (h : s.seq.ending = none) : s.setEnding none = s := by
  unfold State.setEnding
  rw [← h]

/-- R165: with no lower and no Release that waits for it a change of the level is nothing to the power share unit. -/
theorem State.powerLevel_of_still {s : State} (hl : s.psu.pendingLower = none)
    (hr : s.psu.releasePending = true → s.link.level ≠ 0) : s.powerLevel = s := by
  have lower : s.settleLower = s := by
    unfold State.settleLower
    simp [hl]
  have release : s.settleRelease = s := by
    unfold State.settleRelease
    by_cases hp : s.psu.releasePending = true
    · simp [hp, hr hp]
    · simp [hp]
  unfold State.powerLevel
  rw [lower, release]

/-- R173: with nothing next and nothing in the next context there is nothing to prepare. -/
theorem State.prepareNext_of_none {s : State} (he : s.seq.ending = none) (hy : s.nextEntry = none)
    (hn : s.seq.nxt = Ctx.reset) (hf : s.seq.foundOffer = false) : s.prepareNext = s := by
  have emptied : s.emptyNext = s := by
    unfold State.emptyNext
    simp [Ctx.key, hn, Ctx.reset]
  unfold State.prepareNext
  simp [he, hy, emptied, hf]

theorem State.nextEntry_congr {s t : State} (hc : t.clock = s.clock) (hn : t.now = s.now) (hs : t.store = s.store)
    (hf : t.cfg = s.cfg) : t.nextEntry = s.nextEntry := by
  unfold State.nextEntry State.instant State.utc
  rw [hc, hn, hs, hf]

theorem State.currentEntry_congr {s t : State} (hc : t.clock = s.clock) (hn : t.now = s.now) (hs : t.store = s.store) :
    t.currentEntry = s.currentEntry := by
  unfold State.currentEntry State.instant State.utc
  rw [hc, hn, hs]

/-- R171: the code with which a re-evaluation ends the occurrence on the air: an early one is cut. -/
def State.codeNow (s : State) (o : Occurrence) (boundary : Bool) : EndCode :=
  if s.seq.cur.early s.instant then .cut else s.endCode o boundary

namespace State.OnAir
variable {s : State} {o : Occurrence} {k : Taken} (h : s.OnAir o k)
include h

/-- R171: with nothing current and nothing next the occurrence on the air ends. -/
theorem compareCurrent_eq (hx : s.currentEntry = none) (hy : s.nextEntry = none) (b : Bool) :
    s.compareCurrent b = (s.writeEnd s.seq.cur (s.codeNow o b)).clearCur := by
  have off : s.setEnding none = s := State.setEnding_none h.calm.ending
  have recorded : s.seq.cur.unrecorded s.instant = false := by
    simp [Ctx.unrecorded, Option.isSome_iff_ne_none.mp h.mark]
  unfold State.compareCurrent State.codeNow
  simp only [h.occ, hx, Option.map_none, h.running]
  by_cases early : s.seq.cur.early s.instant = true
  · have off' : (s.writeEnd s.seq.cur .cut).setEnding none = s.writeEnd s.seq.cur .cut :=
      State.setEnding_none (by rw [h.writeEnd_eq]; simpa using h.calm.ending)
    simp [early, hy, recorded, off', State.beginUnspent, State.beginIfAny]
  · simp [early, State.endCurrent, State.finishCurrent, off]

end State.OnAir

section
variable {s u : State} {o : Occurrence} {k : Taken} {code : EndCode} {kw : Nat} (h : CutTo s u o k code kw)
  (calm : s.Calm) (hn : s.seq.nxt = Ctx.reset)
include h calm hn

theorem CutTo.lingers (hs : List Handed) : State.Lingers { u with handed := hs } where
  ending := by simpa [h.context] using calm.ending
  occ := by simp [h.context, Ctx.reset]
  taken := by simp [h.context, Ctx.reset]
  release := fun r hr => by
    simp only [h.context, Option.some.injEq] at hr
    subst hr
    simp [h.context, hn, Ctx.terminal, Ctx.reset]
  link := by simp [h.op]
  search := by simp [h.context, hn, Ctx.reset]

/-- What the end hands out changes nothing more. -/
theorem CutTo.drainsTo (hy : s.nextEntry = none) (hf : s.seq.foundOffer = false) {rest : List Handed} {v : State} {n : Nat}
    (d : State.DrainsTo { u with handed := rest } v n) :
    State.DrainsTo { u with handed := u.handed ++ .prepareNext :: rest } v (n + 2) := by
  have prepared : State.DrainsTo { u with handed := .prepareNext :: rest } v (n + 1) := by
    refine State.DrainsTo.takeLingers rfl ?_ (h.lingers calm hn []) d
    have lingers := h.lingers calm hn []
    refine State.prepareNext_of_none lingers.ending ?_ (by simp [h.context, hn]) (by simpa [h.context] using hf)
    rw [← hy]
    exact State.nextEntry_congr h.clock h.now h.store h.cfg
  rcases h.handed with e | e
  · rw [e]
    exact fun j hj => prepared j (by omega)
  · rw [e]
    exact State.DrainsTo.takeLingers rfl (State.powerLevel_of_still (s := { u with handed := [] }) h.lower h.waits)
      (h.lingers calm hn []) prepared

end

/-- A re-evaluation of a station that has an occurrence on the air and nothing current or next: the occurrence is ended. -/
theorem State.OnAir.drainsTo_cut {s : State} {o : Occurrence} {k : Taken} (h : s.OnAir o k)
    (hn : s.seq.nxt = Ctx.reset) {q : RampParams} (hq : s.link.ramp = some q) (hx : s.currentEntry = none)
    (hy : s.nextEntry = none) {m : Handed} {b : Bool} (hm : s.take m = s.reevaluate b false) :
    ∃ u, CutTo s u o k (s.codeNow o b) (min (max 1 (s.link.level * 3 / 4)) (s.levelLimit q.carrier))
      ∧ ∀ rest v n, State.DrainsTo { u with handed := rest } v n →
        State.DrainsTo { s with handed := m :: rest } v (n + 3) := by
  have ends := h.cutTo hn hq (s.codeNow o b)
  refine ⟨_, ends, fun rest v n d => ?_⟩
  rw [← h.compareCurrent_eq hx hy] at ends d
  have still : ({ s with handed := [] } : State) = s := by rw [← h.calm.handed]
  have taken : State.take { s with handed := [] } m = (s.compareCurrent b).emit [.prepareNext] := by
    rw [still, hm]
    unfold State.reevaluate State.evaluate
    simp [h.armed, h.state]
  refine State.DrainsTo.takeLingers rfl taken (ends.lingers h.calm hn _) ?_
  have all := ends.drainsTo h.calm hn hy h.found d
  simpa [State.emit] using all

/-- An end reads nothing of the state before it but the sequencer, the link and the admission; what follows it leaves it
standing as long as it touches the records, the sequencer, the link and the admission no more. -/
theorem State.RampsDown.of_same {s r u v : State} {o : Occurrence} {k : Taken} {code : EndCode} {kw : Nat}
    (h : s.RampsDown u o k code kw) (rs : r.seq = s.seq) (rk : r.link = s.link) (rp : r.psu = s.psu)
    (hl : v.log = u.log) (hs : v.seq = u.seq) (hk : v.link = u.link) (hn : v.now = u.now) (hp : v.psu = u.psu) :
    r.RampsDown v o k code kw :=
  { record := by rw [hl, rs]; exact h.record, context := by rw [hs, rs]; exact h.context, op := hk ▸ h.op,
    level := hk ▸ h.level, permit := by rw [hk, rk]; exact h.permit, issued := by rw [hk, rk]; exact h.issued,
    plan := by rw [hk, hn, rk]; exact h.plan, power := fun k => by rw [hp, rp]; exact h.power k }

end Sys2Proof.Machine

/-! PROOF. O12: EXTRA-DROP, and the cut of the extra on the air (R13, R171, R177, R178). -/

namespace Sys2Proof.Machine

section
variable {s : State} {p : List Byte}

theorem State.extraDrop_of_above (h : 7 < byteAt p 2) :
    s.extraDrop p = s.reply { kind := 4, code := .range, data := [12, 0] } := by
  unfold State.extraDrop
  simp [h, rangeReply, RangeField.code, byteOf]

theorem State.extraDrop_of_empty (h : byteAt p 2 ≤ 7) (he : s.store.extras.getD (byteAt p 2) none = none) :
    s.extraDrop p = s.reply { kind := 4, code := .gone, data := [] } := by
  unfold State.extraDrop
  simp only [List.getD_eq_getElem?_getD] at he
  simp [show ¬ 7 < byteAt p 2 by omega, he]

/-- R13: the slot is emptied, and its notice and DONE are handed on. -/
theorem State.extraDrop_of_held (h : byteAt p 2 ≤ 7) (he : (s.store.extras.getD (byteAt p 2) none).isSome = true) :
    s.extraDrop p = (s.setExtra (byteAt p 2) none).emit
      [.storeNotice (.extraDropped (byteAt p 2)), .placeReply { kind := 4, code := .done, data := [byteOf (byteAt p 2)] }] := by
  unfold State.extraDrop
  have held : (s.store.extras.getD (byteAt p 2) none).isNone = false := by
    rw [← Option.not_isSome, he]
    rfl
  simp only [held, show ¬ byteAt p 2 > 7 by omega, if_false, Bool.false_eq_true, doneReply]

end

theorem set_none_of_getD_none {α : Type} {l : List (Option α)} {n : Nat} (h : l.getD n none = none) :
    l.set n none = l := by
  by_cases hn : n < l.length
  · rw [List.getD_eq_getElem _ _ hn] at h
    rw [← h, List.set_getElem_self]
  · exact List.set_eq_of_length_le (by omega)

/-- A REPLY handed on is placed. -/
theorem drainsTo_placeReply {a : State} {r : Reply} (hh : a.handed = []) (hr : a.seq.Rests) :
    State.DrainsTo { a with handed := [.placeReply r] } (a.reply r) 1 := by
  refine State.DrainsTo.takeRests (a := { a.reply r with handed := [] }) rfl rfl hr ?_
  have e : ({ a.reply r with handed := [] } : State) = a.reply r := by
    rw [← hh]
    rfl
  exact e ▸ State.drainsTo_self rfl

/-- The same with an emptied C that lingers in ENDING. -/
theorem drainsTo_placeReply_of_lingers {a : State} {r : Reply} (hl : State.Lingers { a with handed := [] }) :
    State.DrainsTo { a with handed := [.placeReply r] } { a.reply r with handed := [] } 1 :=
  State.DrainsTo.takeLingers (a := { a.reply r with handed := [] }) rfl rfl
    ⟨hl.ending, hl.occ, hl.taken, hl.release, hl.link, hl.search⟩ (State.drainsTo_self rfl)

theorem State.codeNow_of_event {s : State} {o : Occurrence} : s.codeNow o false = .cut := by
  unfold State.codeNow State.endCode
  split
  · rfl
  · split <;> rfl

/-- Settles O12: the slot field, an empty slot, a held one whose extra the sequencer does not need, and the extra on the
air. -/
theorem extraDropEmptiesTheSlot : Obligations.ExtraDropEmptiesTheSlot := by
  intro s t p rest hh hj hq hk dropped
  have h : s.Serves 4 p rest := ⟨hh, hj, hq, hk⟩
  have emptied (le : byteAt p 2 ≤ 7) (held : (s.store.extras.getD (byteAt p 2) none).isSome = true) :=
    State.extraDrop_of_held (s := s.marked t) le held
  refine ⟨fun content => ?_, fun o k q le held air hn hramp hx hy => ?_⟩
  · by_cases above : 7 < byteAt p 2
    · simp only [above, show ¬ byteAt p 2 ≤ 7 by omega, if_true, if_false]
      exact exec_served_reply h rfl rfl (State.extraDrop_of_above above)
    · have le : byteAt p 2 ≤ 7 := by omega
      simp only [above, le, if_true, if_false]
      cases he : s.store.extras.getD (byteAt p 2) none with
      | none =>
        have same : s.store.extras.set (byteAt p 2) none = s.store.extras :=
          set_none_of_getD_none he
        simp only [same]
        exact exec_served_reply h rfl rfl (State.extraDrop_of_empty (s := s.marked t) le he)
      | some x =>
        have held : (s.store.extras.getD (byteAt p 2) none).isSome = true := by rw [he]; rfl
        have stands := content le held
        refine exec_served_drains h rfl rfl (n := 3) ?_
        rw [emptied le held]
        refine State.DrainsTo.content (m := .storeNotice (.extraDropped (byteAt p 2)))
          (rest := [.placeReply { kind := 4, code := .done, data := [byteOf (byteAt p 2)] }])
          (congrArg (· ++ _) hh) (.inr ⟨_, rfl⟩) (stands.of_same ⟨rfl, rfl, rfl, rfl, rfl, hh.symm⟩) ?_
        exact drainsTo_placeReply (a := (s.marked t).setExtra (byteAt p 2) none) hh stands.calm.rests
  · have airing : State.OnAir ((s.marked t).setExtra (byteAt p 2) none) o k :=
      { air with calm := ⟨hh, air.calm.ending, air.calm.release, air.calm.await, air.calm.search⟩ }
    obtain ⟨u, ends, drains⟩ := airing.drainsTo_cut hn hramp hx hy (m := .storeNotice (.extraDropped (byteAt p 2)))
      (b := false) rfl
    rw [State.codeNow_of_event] at ends
    have linger := ends.lingers airing.calm hn []
    refine ⟨State.reply { u with handed := [] } { kind := 4, code := .done, data := [byteOf (byteAt p 2)] },
      exec_served_drains h rfl rfl (n := 4) ?_, ends.store, rfl, ?_, ends.map, ends.mat⟩
    · rw [emptied le held]
      have all := drains _ _ _ (drainsTo_placeReply_of_lingers (a := u)
        (r := { kind := 4, code := .done, data := [byteOf (byteAt p 2)] }) linger)
      have list : ((s.marked t).setExtra (byteAt p 2) none).handed = [] := hh
      unfold State.emit
      rw [list]
      exact all
    · exact ends.toRampsDown.of_same rfl rfl rfl rfl rfl rfl rfl rfl

end Sys2Proof.Machine

/-! PROOF. O17, O18: the frame offered at an idle bus, and the ends of an attempt whose owner takes no notice (R43 to R50). -/

namespace Sys2Proof.Machine

/-! ## Offering (R49) -/

theorem lowestOffer_eq_none_iff (l : List (Nat × Holder)) : lowestOffer l = none ↔ l = [] := by
  cases l with
  | nil => simp [lowestOffer]
  | cons x rest =>
    unfold lowestOffer
    split
    · simp
    · split <;> simp

/-- R49: the lowest offer is one of them, and none is lower. -/
theorem lowestOffer_spec {l : List (Nat × Holder)} {x : Nat × Holder} (h : lowestOffer l = some x) :
    x ∈ l ∧ ∀ o ∈ l, x.1 ≤ o.1 := by
  induction l generalizing x with
  | nil => cases h
  | cons y rest ih =>
    unfold lowestOffer at h
    split at h
    · rename_i hn
      cases h
      rw [(lowestOffer_eq_none_iff rest).mp hn]
      simp
    · rename_i z hz
      obtain ⟨hmem, hle⟩ := ih hz
      split at h
      · rename_i le
        cases h
        refine ⟨List.mem_cons_self, fun o ho => ?_⟩
        rcases List.mem_cons.mp ho with rfl | ho
        · exact le_refl _
        · exact le.trans (hle o ho)
      · rename_i gt
        cases h
        refine ⟨List.mem_cons_of_mem _ hmem, fun o ho => ?_⟩
        rcases List.mem_cons.mp ho with rfl | ho
        · omega
        · exact hle o ho

/-- R49: a CLAIM and an INTENT are eligible in JOINED alone. -/
theorem join_of_eligible {j : JoinState} {h : Holder} (e : eligible j h = true) (hh : h = .claim ∨ h = .intent) :
    j = .joined := by
  rcases hh with rfl | rfl <;> cases j <;> simp [eligible] at e ⊢

/-- R43: what an offer begins at an idle bus. -/
theorem Bus.begin_eq {b : Bus} (hb : b.attempt = none) (j : JoinState) (station t free : Nat) :
    (b.offered j station = none → b.begin_ j station t free = b)
      ∧ ∀ n h, b.offered j station = some (n, h) → ∃ a : Attempt, b.begin_ j station t free = { b with attempt := some a }
        ∧ a.holder = h ∧ a.ident = BitVec.ofNat 11 n ∧ a.start = t ∧ a.bytes = b.payload h (t / 1000) free := by
  unfold Bus.begin_
  refine ⟨fun e => by simp [hb, e], fun n h e => ?_⟩
  simp only [hb, Option.isSome_none, Bool.false_eq_true, if_false, e]
  exact ⟨_, rfl, rfl, rfl, rfl, rfl⟩

/-- Settles O17: the offer taken is the lowest of those eligible. -/
theorem lowestEligibleFrameIsOffered : Obligations.LowestEligibleFrameIsOffered := by
  intro s t hh ha
  obtain ⟨idle, begun⟩ := Bus.begin_eq ha s.pres.join s.cfg.station (max s.now t) s.freeCount
  refine ⟨fun none => ?_, fun ⟨o, ho, he⟩ => ?_⟩
  · have offered : s.bus.offered s.pres.join s.cfg.station = Option.none := by
      unfold Bus.offered
      rw [lowestOffer_eq_none_iff, List.filter_eq_nil_iff]
      exact fun o ho => by simp [none o ho]
    refine exec_quiet rfl ?_ hh
    show State.offer (s.atTime t) = _
    unfold State.offer
    simp [idle offered]
  · cases offered : s.bus.offered s.pres.join s.cfg.station with
    | none =>
      unfold Bus.offered at offered
      rw [lowestOffer_eq_none_iff, List.filter_eq_nil_iff] at offered
      exact absurd he (offered o ho)
    | some x =>
      obtain ⟨n, h⟩ := x
      obtain ⟨a, began, rfl, ident, start, bytes⟩ := begun n h offered
      obtain ⟨mem, least⟩ := lowestOffer_spec offered
      obtain ⟨mem, eligible⟩ := List.mem_filter.mp mem
      refine ⟨a, n, exec_quiet rfl ?_ hh, mem, eligible, fun o ho he => least o (List.mem_filter.mpr ⟨ho, he⟩),
        join_of_eligible eligible, start, ident, bytes⟩
      show State.offer (s.atTime t) = _
      unfold State.offer
      simp [began]

/-! ## The ends of an attempt (R43, R45, R46) -/

/-- R50: the bus after an attempt whose frame stays: a successor that waited has taken its slot. -/
def Bus.stayed (b : Bus) (h : Holder) : Bus := ({ b with attempt := none } : Bus).moveSuccessor h

theorem Bus.setCount_moveSuccessor (b : Bus) (h : Holder) (n : Nat) :
    (b.setCount h n).moveSuccessor h = (b.moveSuccessor h).setCount h n := by
  cases h with
  | notice => cases hn : b.noticeNext <;> simp [Bus.moveSuccessor, Bus.setCount, hn]
  | intent => cases hn : b.intentNext <;> simp [Bus.moveSuccessor, Bus.setCount, hn]
  | _ => rfl

section
variable {b : Bus} {a : Attempt} (ha : b.attempt = some a) (hr : a.removed = false)
include ha hr

theorem Bus.succeed_eq :
    b.succeed = ((({ b with attempt := none, drops := 0 } : Bus).leave a.holder).setCount a.holder 0, b.sentNotices a) := by
  unfold Bus.succeed
  simp [ha, hr]

variable (ht : ({ b with attempt := none } : Bus).takenBack a = none)
include ht

theorem Bus.loseArbitration_eq : b.loseArbitration = (b.stayed a.holder, []) := by
  unfold Bus.loseArbitration Bus.stayed
  simp [ha, hr, ht]

theorem Bus.fail_of_below (hc : b.count a.holder + 1 < 16) :
    b.fail = ((b.stayed a.holder).setCount a.holder (b.count a.holder + 1), []) := by
  unfold Bus.fail Bus.stayed
  simp only [ha, hr, ht, Bool.false_eq_true, if_false, attemptLimit, hc, if_true, Bus.setCount_moveSuccessor]

/-- R45, R46: at the sixteenth failure the frame is dropped. -/
theorem Bus.fail_of_sixteenth (hc : b.count a.holder + 1 = 16) : b.fail = b.dropFrame a := by
  unfold Bus.fail
  simp [ha, hr, ht, attemptLimit, hc]

end

theorem Bus.dropFrame_of_few {b : Bus} (a : Attempt) (hd : b.drops < 2) :
    b.dropFrame a
      = ((({ b with attempt := none, drops := b.drops + 1 } : Bus).leave a.holder).setCount a.holder 0, b.dropNotices a) := by
  have drops : min (b.drops + 1) dropMax = b.drops + 1 := by
    unfold dropMax
    omega
  unfold Bus.dropFrame
  simp only [drops, isolationDrops, show ¬ b.drops + 1 ≥ 3 by omega, if_false, List.nil_append]

/-- R50: a successor that waited takes the slot of a NOTICE or an INTENT that stays. -/
theorem Bus.stayed_eq (b : Bus) (h : Holder) :
    b.stayed h =
      (if h = .notice then { b with attempt := none, notice := b.noticeNext.or b.notice, noticeNext := none }
       else if h = .intent then { b with attempt := none, intent := b.intentNext.or b.intent, intentNext := none }
       else { b with attempt := none }) := by
  unfold Bus.stayed
  cases h with
  | notice => cases b.noticeNext <;> simp [Bus.moveSuccessor]
  | intent => cases b.intentNext <;> simp [Bus.moveSuccessor]
  | _ => rfl

/-- A command that ends an attempt with no notice changes the bus alone. -/
theorem exec_endAttempt_quiet {c : Instr} {s : State} {t : Nat} {r : Bus × List Handed} {b : Bus} (hh : s.handed = [])
    (hc : c.time = some t) (rule : ruleOf c (s.atTime t) = (s.atTime t).endAttempt r) (hr : r = (b, [])) :
    exec c s = .next { s.atTime t with bus := b } := by
  refine exec_quiet hc ?_ hh
  rw [rule, hr]
  unfold State.endAttempt State.emit
  simp

namespace Bus.PlainAttempt
variable {b : Bus} {a : Attempt} (h : b.PlainAttempt a)
include h

theorem takenBack : ({ b with attempt := none } : Bus).takenBack a = none := by
  unfold Bus.takenBack
  rcases h.holder with e | e | e | e | e <;> simp [e]

theorem sentNotices : b.sentNotices a = [] := by
  unfold Bus.sentNotices
  rcases h.holder with e | e | e | e | e <;> simp [e]

theorem dropNotices : b.dropNotices a = [] := by
  unfold Bus.dropNotices
  rcases h.holder with e | e | e | e | e <;> simp [e]

end Bus.PlainAttempt

/-- Settles O18, by the three ends of an attempt. -/
theorem attemptEndsMoveTheFrame : Obligations.AttemptEndsMoveTheFrame := by
  intro s t a hh h stays
  have stayed : s.bus.stayed a.holder = stays := by
    rw [Bus.stayed_eq]
    rcases h.holder with e | e | e | e | e <;> simp [e, stays]
  have lost := Bus.loseArbitration_eq h.attempt h.stays h.takenBack
  have sent := Bus.succeed_eq h.attempt h.stays
  rw [stayed] at lost
  rw [h.sentNotices] at sent
  refine ⟨exec_endAttempt_quiet hh rfl rfl lost, exec_endAttempt_quiet hh rfl rfl ?_, fun hc => ?_, fun hc hd => ?_⟩
  · refine sent.trans ?_
    rcases h.holder with e | e | e | e | e <;> rw [e] <;> rfl
  · have failed := Bus.fail_of_below h.attempt h.stays h.takenBack hc
    rw [stayed] at failed
    exact exec_endAttempt_quiet hh rfl rfl failed
  · have dropped := (Bus.fail_of_sixteenth h.attempt h.stays h.takenBack hc).trans (Bus.dropFrame_of_few a hd)
    rw [h.dropNotices] at dropped
    exact exec_endAttempt_quiet hh rfl rfl dropped

end Sys2Proof.Machine

/-! PROOF. O19: the ends of attempts of a CLAIM, an INTENT and a REPLY, whose owners take a notice (R45, R109, R163, R186). -/

namespace Sys2Proof.Machine

/-- A hand-out taken in a state where nothing else waits, after which the sequencer is as before. -/
theorem drainsTo_one {s a : State} {m : Handed} (hm : State.take { s with handed := [] } m = a) (hr : a.seq.Rests)
    (hh : a.handed = []) : State.DrainsTo { s with handed := [m] } a 1 := by
  refine State.DrainsTo.takeRests rfl hm hr ?_
  have e : ({ a with handed := a.handed ++ [] } : State) = a := by simp
  rw [e]
  exact State.drainsTo_self hh

/-- A command that ends an attempt with one notice to the owner of the frame. -/
theorem exec_endAttempt_noticed {c : Instr} {s a : State} {t : Nat} {r : Bus × List Handed} {b : Bus} {m : Handed}
    (calm : s.Calm) (hc : c.time = some t) (rule : ruleOf c (s.atTime t) = (s.atTime t).endAttempt r) (hr : r = (b, [m]))
    (ha : State.take { s.atTime t with bus := b } m = a) (hs : a.seq = s.seq) (hh : a.handed = []) : exec c s = .next a := by
  refine exec_of_drainsTo (n := 1) hc ?_
  have ended : (s.atTime t).endAttempt (b, [m]) = { s.atTime t with bus := b, handed := [m] } := by
    unfold State.endAttempt State.emit
    simp [calm.handed]
  have none : ({ s.atTime t with bus := b, handed := [] } : State) = { s.atTime t with bus := b } := by
    rw [← calm.handed]
    rfl
  rw [rule, hr, ended]
  exact drainsTo_one (s := { s.atTime t with bus := b }) (none ▸ ha) (hs ▸ calm.rests) hh

/-! ## The walk reads a candidate again (R109) -/

/-- R102, R103, R108: a candidate that is open, free of any suspect mark, usable and not the station's own is claimed. -/
theorem State.walk_claims {s : State} {o : Occurrence} {x : Nat} (ho : s.claim.occ = some o)
    (hx : o.prog.cands[s.claim.index]? = some x) (hm : s.claim.marks[s.claim.index]? = some .opened)
    (hs : isSuspect s.map x s.localSecond = false) (hu : s.usable o x = true)
    (hr : ownReaching s.map x s.claim.since = none) (hd : ownDedicated s.map s.cfg.station x = false)
    (hj : s.pres.join = .joined) (hc : s.bus.claim = none) :
    s.walk = { s with
      bus := { s.bus with
        claim := some { terminal := x, cls := o.prog.cls, since := s.claim.since, till := s.claim.till } },
      claim := { s.claim with index := s.claim.index + 1, terminal := some x, crossing := [], phase := .placed } } := by
  unfold State.walk walkFuel State.walkFrom
  simp [ho, hx, hm, hs, hu, hr, hd, State.placeClaim, hj, Bus.placeClaim, hc]

/-! ## The step is chosen again (R161, R163) -/

/-- R161: the highest candidate step that fits is chosen. -/
theorem Power.find_candidate {p : Power} {test : Nat → Bool} {k : Nat} (hk : k ∈ [100, 71, 50, 25])
    (hc : k ≤ p.effectiveCap) (ht : test k = true)
    (top : ∀ j ∈ [100, 71, 50, 25], j ≤ p.effectiveCap → test j = true → j ≤ k) :
    p.candidates.find? test = some k := by
  have above (j : Nat) (hj : j ∈ [100, 71, 50, 25]) (lt : k < j) : p.effectiveCap < j ∨ test j = false := by
    by_contra h
    simp only [not_or, Nat.not_lt, Bool.not_eq_false] at h
    exact absurd (top j hj h.1 h.2) (by omega)
  unfold Power.candidates powerSteps
  rw [List.find?_filter, List.find?_eq_some_iff_append]
  simp only [List.mem_cons, List.not_mem_nil, or_false] at hk
  rcases hk with rfl | rfl | rfl | rfl
  · exact ⟨by simp [hc, ht], [], [71, 50, 25], rfl, by simp⟩
  · refine ⟨by simp [hc, ht], [100], [50, 25], rfl, ?_⟩
    simpa using above 100 (by simp) (by decide)
  · refine ⟨by simp [hc, ht], [100, 71], [25], rfl, ?_⟩
    simpa using ⟨above 100 (by simp) (by decide), above 71 (by simp) (by decide)⟩
  · refine ⟨by simp [hc, ht], [100, 71, 50], [], rfl, ?_⟩
    simpa using ⟨above 100 (by simp) (by decide), above 71 (by simp) (by decide), above 50 (by simp) (by decide)⟩

/-- R161: in JOINED a step is held against the budget, beside what the others have committed. -/
theorem State.stepFits_of_joined {s : State} (hj : s.pres.join = .joined) (r : AdmitReq) (k : Nat) :
    s.stepFits r k
      = decide (othersCommitted s.psu.table + totalDemand s.cfg r.carrier k r.mode ≤ s.cfg.limit - s.cfg.reserve) := by
  unfold State.stepFits State.stepRoom budget
  simp [hj]

/-- R161, R163: in JOINED, with no step admitted, the INTENT of the chosen step is placed. -/
theorem State.chooseStep_places {s : State} {r : AdmitReq} {k : Nat} (hr : s.psu.request = some r)
    (hk : s.psu.candidates.find? (s.stepFits r) = some k) (ha : s.psu.admitted = none) (hj : s.pres.join = .joined) :
    s.chooseStep = s.placeIntent r k := by
  unfold State.chooseStep
  simp [hr, hk, State.isLowering, ha, hj]

/-- Settles O19, by the holder of the frame. -/
theorem ownersTakeTheEndOfTheirFrames : Obligations.OwnersTakeTheEndOfTheirFrames := by
  intro s t a calm ha hr hl
  refine ⟨fun hold => ?_, fun hold hw hp => ⟨fun hx => ?_, fun o x hc hd ho hi hx hm hs hu hn hded hj => ?_⟩,
    fun f hold hf hfw hnext hsup hp => ⟨?_, fun r k hc hd hreq hadm hj hk hcap top fits => ?_⟩, fun hold hj =>
      ⟨?_, fun hc hd => ?_⟩⟩
  · have back : ({ s.bus with attempt := none } : Bus).takenBack a = none := by
      unfold Bus.takenBack
      rcases hold with ⟨e, w⟩ | e | e <;> simp [e, hl]
      exact w
    have stayed : s.bus.stayed a.holder = if a.holder = .intent then
        { s.bus with attempt := none, intent := s.bus.intentNext.or s.bus.intent, intentNext := none }
      else { s.bus with attempt := none } := by
      rw [Bus.stayed_eq]
      rcases hold with ⟨e, -⟩ | e | e <;> simp [e]
    have lost := Bus.loseArbitration_eq ha hr back
    rw [stayed] at lost
    refine ⟨exec_endAttempt_quiet calm.handed rfl rfl lost, fun hc => ?_⟩
    have failed := Bus.fail_of_below ha hr back hc
    rw [stayed] at failed
    exact exec_endAttempt_quiet calm.handed rfl rfl failed
  · refine exec_endAttempt_noticed calm rfl rfl (m := .claimSent a.start a.startsIn false)
      (b := { s.bus with attempt := none, drops := 0, claim := none, claimCount := 0 }) ?_ ?_ rfl calm.handed
    · refine (Bus.succeed_eq ha hr).trans ?_
      simp [hold, Bus.leave, Bus.setCount, Bus.sentNotices, hw]
    · show State.takeClaimSent _ _ _ = _
      unfold State.takeClaimSent
      simp [hp, hx, claimWindowMs]
  · refine exec_endAttempt_noticed calm rfl rfl (m := .claimDropped)
      (b := { s.bus with attempt := none, drops := s.bus.drops + 1, claim := none, claimCount := 0 }) ?_ ?_ rfl calm.handed
    · have sixteenth : s.bus.count a.holder + 1 = 16 := by rw [hold]; exact hc
      have back : ({ s.bus with attempt := none } : Bus).takenBack a = none := by simp [Bus.takenBack, hold, hw, hl]
      refine ((Bus.fail_of_sixteenth ha hr back sixteenth).trans (Bus.dropFrame_of_few a hd)).trans ?_
      simp [hold, Bus.leave, Bus.setCount, Bus.dropNotices, hw]
    · show State.takeClaimDropped _ = _
      unfold State.takeClaimDropped
      simp only [State.atTime_claim, hp]
      refine Eq.trans (State.walk_claims (o := o) (x := x) ho hx hm hs hu hn hded hj rfl) ?_
      simp [Claim.stepBack, Claim.clearOwn, Nat.sub_add_cancel hi, hp]
  · refine exec_endAttempt_noticed calm rfl rfl (m := .intentSent a.start)
      (b := { s.bus with attempt := none, drops := 0, intent := none, intentCount := 0 }) ?_ ?_ rfl calm.handed
    · refine (Bus.succeed_eq ha hr).trans ?_
      simp [hold, Bus.leave, Bus.setCount, Bus.sentNotices, Bus.intentCounts, hf, hfw, hnext, hsup]
    · show State.takeIntentSent _ _ = _
      unfold State.takeIntentSent
      simp [hp, intentWindowMs, DemandRec.place]
  · refine exec_endAttempt_noticed calm rfl rfl (m := .intentDropped)
      (b := { s.bus with attempt := none, drops := s.bus.drops + 1, intent := none, intentCount := 0 }) ?_ ?_ rfl calm.handed
    · have sixteenth : s.bus.count a.holder + 1 = 16 := by rw [hold]; exact hc
      have back : ({ s.bus with attempt := none } : Bus).takenBack a = none := by simp [Bus.takenBack, hold, hl]
      refine ((Bus.fail_of_sixteenth ha hr back sixteenth).trans (Bus.dropFrame_of_few a hd)).trans ?_
      simp [hold, Bus.leave, Bus.setCount, Bus.dropNotices, Bus.intentCounts, hf, hfw, hnext, hsup]
    · show State.takeIntentLost _ = _
      unfold State.takeIntentLost
      simp only [State.atTime_psu, hp, beq_self_eq_true, if_true]
      have chosen := Power.find_candidate (p := s.psu) (k := k)
        (test := s.stepFits r) hk hcap (by simpa [State.stepFits_of_joined hj] using fits)
        (fun j hj' hc ht => top j hj' hc (by simpa [State.stepFits_of_joined hj] using ht))
      refine Eq.trans (State.chooseStep_places (r := r) (k := k) hreq chosen hadm hj) ?_
      simp [State.placeIntent, Bus.placeIntent, Bus.inAttempt]
  · refine exec_endAttempt_noticed calm rfl rfl (m := .replyGone)
      (b := { s.bus with attempt := none, drops := 0, reply := none, replyCount := 0 }) ?_ ?_ rfl calm.handed
    · refine (Bus.succeed_eq ha hr).trans ?_
      simp [hold, Bus.leave, Bus.setCount, Bus.sentNotices]
    · show State.endRequest _ = _
      unfold State.endRequest State.discardDisabled
      simp [hj]
  · refine exec_endAttempt_noticed calm rfl rfl (m := .replyGone)
      (b := { s.bus with attempt := none, drops := s.bus.drops + 1, reply := none, replyCount := 0 }) ?_ ?_ rfl calm.handed
    · have sixteenth : s.bus.count a.holder + 1 = 16 := by rw [hold]; exact hc
      have back : ({ s.bus with attempt := none } : Bus).takenBack a = none := by simp [Bus.takenBack, hold]
      refine ((Bus.fail_of_sixteenth ha hr back sixteenth).trans (Bus.dropFrame_of_few a hd)).trans ?_
      simp [hold, Bus.leave, Bus.setCount, Bus.dropNotices]
    · show State.endRequest _ = _
      unfold State.endRequest State.discardDisabled
      simp [hj]

end Sys2Proof.Machine

/-! SUPPORT and PROOF. A change of the join state, and O20: the third drop in a row isolates the station (R56, R66, R73). -/

namespace Sys2Proof.Machine

/-- Hand-outs that leave the state as it is come before the rest. -/
theorem State.DrainsTo.stills {s u : State} {ms rest : List Handed} {n : Nat} (hs : s.handed = ms ++ rest)
    (hm : ∀ m ∈ ms, Still s m) (d : State.DrainsTo { s with handed := rest } u n) : s.DrainsTo u (n + ms.length) := by
  induction ms generalizing s with
  | nil =>
    have e : ({ s with handed := rest } : State) = s := by
      have : s.handed = rest := hs
      rw [← this]
    rw [← e]
    exact d
  | cons m ms ih =>
    refine State.DrainsTo.still hs (hm m List.mem_cons_self) (ih (s := { s with handed := ms ++ rest }) rfl ?_ d)
    exact fun x hx => ⟨(hm x (List.mem_cons_of_mem _ hx)).take, (hm x (List.mem_cons_of_mem _ hx)).advance⟩

/-- R68: a change notice leaves the presence unit but for the notice timer and the pending mark. -/
theorem State.noticeChange_pres (s : State) :
    s.noticeChange.pres
      = { s.pres with
          noticeTimer := s.noticeChange.pres.noticeTimer, noticePending := s.noticeChange.pres.noticePending } := by
  rcases s.noticeChange_cases with e | e | e <;> simp [e, State.placeNotice]

@[simp] theorem State.noticeChange_silence (s : State) : s.noticeChange.pres.silence = s.pres.silence := by
  rw [State.noticeChange_pres]

@[simp] theorem State.noticeChange_learning (s : State) : s.noticeChange.pres.learning = s.pres.learning := by
  rw [State.noticeChange_pres]

@[simp] theorem State.noticeChange_listening (s : State) : s.noticeChange.pres.listening = s.pres.listening := by
  rw [State.noticeChange_pres]

@[simp] theorem State.noticeChange_duplicate (s : State) : s.noticeChange.pres.duplicate = s.pres.duplicate := by
  rw [State.noticeChange_pres]

@[simp] theorem Bus.leave_drops (b : Bus) (h : Holder) : (b.leave h).drops = b.drops := by cases h <;> rfl

@[simp] theorem Bus.setCount_drops (b : Bus) (h : Holder) (n : Nat) : (b.setCount h n).drops = b.drops := by
  cases h <;> rfl

@[simp] theorem Bus.placeNotice_drops (b : Bus) (n : NoticeFrame) : (b.placeNotice n).drops = b.drops := by
  unfold Bus.placeNotice; split <;> rfl

@[simp] theorem State.noticeChange_drops (s : State) : s.noticeChange.bus.drops = s.bus.drops := by
  rcases s.noticeChange_cases with e | e | e <;> simp [e, State.placeNotice]

@[simp] theorem Bus.placeLogrec_drops (b : Bus) (r : LogRecord) : (b.placeLogrec r).drops = b.drops := by
  unfold Bus.placeLogrec; split
  · rfl
  · split <;> rfl

@[simp] theorem State.writeLog_drops (s : State) (b : LogBody) : (s.writeLog b).bus.drops = s.bus.drops := by
  rw [State.writeLog_bus]; split <;> simp

/-! ## The notices of a change (R66) -/

/-- R66 step 2, ISOLATED: no block does anything but a unit in WAIT. -/
theorem State.takeJoin_isolated {s : State} (hp : s.psu.phase ≠ .wait) (hj : s.pres.join ≠ .disabled) :
    s.takeJoin .isolated = s := by
  simp [State.takeJoin, State.claimJoin, State.powerJoin, State.chooseIfWaiting, hp, State.seqJoin, State.matrixJoin,
    State.linkJoin, State.discardDisabled, hj]

/-- R66 steps 3 to 5 hand nothing out. -/
theorem drainsTo_joinTail {a : State} {old new : JoinState} {cause : JoinCause} (hh : a.handed = []) (hr : a.seq.Rests) :
    State.DrainsTo { a with handed := [.joinTail old new cause] } (a.joinTail old new cause) 1 := by
  have none : ({ a with handed := [] } : State) = a := by rw [← hh]
  refine drainsTo_one ?_ ?_ ?_
  · show State.joinTail { a with handed := [] } old new cause = _
    rw [none]
  · simpa [State.joinTail] using hr
  · simpa [State.joinTail] using hh

/-- R109: with no claim placed or asked back a notice of its withdrawal tells of nothing. -/
theorem Still.claimWithdrawn {s : State} (hp : s.claim.phase ≠ .placed) (hw : s.claim.phase ≠ .withdrawing)
    (hr : s.seq.Rests) : Still s .claimWithdrawn := by
  refine ⟨?_, fun last => Sequencer.Rests.advance (s := { s with handed := [] }) hr last⟩
  show State.takeClaimWithdrawn _ = _
  unfold State.takeClaimWithdrawn
  cases h : s.claim.phase <;> simp_all

/-- R163: with no INTENT placed a notice of its end tells of nothing. -/
theorem Still.intentCancelled {s : State} (hp : s.psu.phase ≠ .placed) (hr : s.seq.Rests) : Still s .intentCancelled := by
  refine ⟨?_, fun last => Sequencer.Rests.advance (s := { s with handed := [] }) hr last⟩
  show State.takeIntentLost _ = _
  unfold State.takeIntentLost
  simp [hp]

/-- R56: leaving JOINED hands a withdrawal, a cancellation, or both. -/
theorem Bus.leaveJoined_notices (b : Bus) : ∃ claim intent : Bool,
    b.leaveJoined.2
      = (if claim then [Handed.claimWithdrawn] else []) ++ (if intent then [Handed.intentCancelled] else []) := by
  unfold Bus.leaveJoined
  dsimp only
  refine ⟨b.claim.isSome && ! b.inAttempt .claim,
    if b.inAttempt .intent then b.intentNext.isSome else b.intent.isSome, ?_⟩
  congr 1
  · split <;> rfl
  · split <;> rfl

theorem Bus.onJoin_notices (b : Bus) (old new : JoinState) :
    (b.onJoin old new).2.length ≤ 2 ∧ ∀ m ∈ (b.onJoin old new).2, m = .claimWithdrawn ∨ m = .intentCancelled := by
  unfold Bus.onJoin
  split
  · simp
  · split
    · obtain ⟨claim, intent, e⟩ := b.leaveJoined_notices
      rw [e]
      cases claim <;> cases intent <;> simp
    · simp

@[simp] theorem Bus.onJoin_drops (b : Bus) (old new : JoinState) : (b.onJoin old new).1.drops = b.drops := by
  unfold Bus.onJoin
  split
  · rfl
  · split <;> rfl

/-- R66: the state that a change of the join state enters with, before the notices are taken. -/
def State.entered (s : State) (new : JoinState) : State :=
  { s with
    bus := (s.bus.onJoin s.pres.join new).1, pres := s.pres.enter new s.now s.bus.lastHeard,
    psu := if s.pres.join = .joined then { s.psu with ceiling := s.psu.announced } else s.psu }

theorem State.changeJoin_eq (s : State) (new : JoinState) (cause : JoinCause) :
    s.changeJoin new cause = { s.entered new with
      handed := s.handed ++ ((s.bus.onJoin s.pres.join new).2
        ++ [.joinNotice s.pres.join new, .joinTail s.pres.join new cause]) } := by
  unfold State.changeJoin State.entered State.emit
  simp

theorem State.entered_phase (s : State) (new : JoinState) : (s.entered new).psu.phase = s.psu.phase := by
  unfold State.entered
  dsimp only
  split <;> rfl

/-- R66: a change to ISOLATED with no own CLAIM or INTENT waiting on a notice and no unit in WAIT: what is handed out ends
in the record, the ALERT causes and the NOTICE. -/
theorem State.drainsTo_isolated {s : State} {cause : JoinCause} {ms : List Handed} (hh : s.handed = [])
    (hr : s.seq.Rests) (hc : s.claim.phase ≠ .placed) (hw : s.claim.phase ≠ .withdrawing) (hp : s.psu.phase ≠ .placed)
    (hq : s.psu.phase ≠ .wait) (hm : ms.length ≤ 2) (known : ∀ m ∈ ms, m = .claimWithdrawn ∨ m = .intentCancelled) :
    State.DrainsTo { s.entered .isolated with
      handed := ms ++ [.joinNotice s.pres.join .isolated, .joinTail s.pres.join .isolated cause] }
      ((s.entered .isolated).joinTail s.pres.join .isolated cause) 4 := by
  have phase := s.entered_phase .isolated
  have still : ∀ m ∈ ms, Still { s.entered .isolated with
      handed := ms ++ [.joinNotice s.pres.join .isolated, .joinTail s.pres.join .isolated cause] } m := by
    intro m hm
    rcases known m hm with rfl | rfl
    · exact Still.claimWithdrawn hc hw hr
    · exact Still.intentCancelled (by rw [phase]; exact hp) hr
  have rest : State.DrainsTo { s.entered .isolated with
      handed := [.joinNotice s.pres.join .isolated, .joinTail s.pres.join .isolated cause] }
      ((s.entered .isolated).joinTail s.pres.join .isolated cause) 2 := by
    refine State.DrainsTo.takeRests (a := { s.entered .isolated with handed := [] }) rfl ?_ hr
      (drainsTo_joinTail (a := s.entered .isolated) hh hr)
    exact State.takeJoin_isolated (by rw [phase]; exact hq) (by simp [State.entered, Presence.enter])
  exact fun k hk => State.DrainsTo.stills rfl still rest k (by omega)

/-- Settles O20, by the third drop: the isolation notice, and the change to ISOLATED that it brings. -/
theorem thirdDropInARowIsolates : Obligations.ThirdDropInARowIsolates := by
  intro s t a calm plain hc hd hj claimed asked placed waits
  have drops : 3 ≤ min (s.bus.drops + 1) dropMax := by
    unfold dropMax
    omega
  have dropped : s.bus.fail = (((({ s.bus with attempt := none, drops := min (s.bus.drops + 1) dropMax } : Bus).leave
      a.holder).setCount a.holder 0), [.isolation]) := by
    rw [Bus.fail_of_sixteenth plain.attempt plain.stays plain.takenBack hc]
    unfold Bus.dropFrame
    simp only [plain.dropNotices, isolationDrops, ge_iff_le, drops, if_true, List.append_nil]
  let b : State := { s.atTime t with
    bus := (({ s.bus with attempt := none, drops := min (s.bus.drops + 1) dropMax } : Bus).leave a.holder).setCount a.holder 0 }
  have isolation : State.take b .isolation = b.changeJoin .isolated .drops := by
    show State.takeIsolation b = _
    unfold State.takeIsolation
    have in_ : (b.pres.join == .learning || b.pres.join == .joined) = true := by simpa [b] using hj
    rw [if_pos in_]
  have run : State.DrainsTo { b with handed := [.isolation] }
    ((b.entered .isolated).joinTail b.pres.join .isolated .drops) 5 := by
    obtain ⟨few, known⟩ := b.bus.onJoin_notices b.pres.join .isolated
    have none : ({ b with handed := [] } : State) = b := by rw [← calm.handed]; rfl
    refine State.DrainsTo.takeRests (a := b.changeJoin .isolated .drops) rfl (by rw [none]; exact isolation)
      (by rw [State.changeJoin_eq]; exact calm.rests) ?_
    rw [State.changeJoin_eq]
    simp only [List.append_nil, show b.handed = [] from calm.handed, List.nil_append]
    exact State.drainsTo_isolated calm.handed calm.rests claimed asked placed waits few known
  have ended : (s.atTime t).endAttempt s.bus.fail = { b with handed := [.isolation] } := by
    rw [dropped]
    unfold State.endAttempt State.emit
    simp [calm.handed, b]
  refine ⟨_, (b.entered .isolated).recordOf (.join .isolated s.pres.join .drops),
    exec_of_drainsTo (n := 5) rfl (show State.DrainsTo ((s.atTime t).endAttempt s.bus.fail) _ 5 from ended ▸ run), ?_⟩
  unfold State.joinTail
  iterate 12 refine ⟨by simp [State.entered, Presence.enter, Alert.onJoin, b, dropMax], ?_⟩
  simp only [State.noticeChange_psu, State.writeLog_psu]
  rfl

end Sys2Proof.Machine

/-! PROOF. O24: the record of a duplicate finding can push the oldest LOGREC out of a full queue, whose attempt count then
becomes 0 (R54). -/

namespace Sys2Proof.Machine

/-- A station in JOINED whose LOGREC queue is full, with one failed attempt of its oldest frame. -/
def fullLogQueue : State :=
  { State.reset with
    image := some .accepted,
    cfg := { Settings.reset with station := 5 },
    pres := { Presence.reset with join := .joined },
    bus := { Bus.reset with
      logQ := List.replicate 4 { seq := 0, stamp := 0, unset := true, body := .join .joined .learning .timer },
      logCount := 1 } }

/-- A NOTICE of a station in JOINED with the own number 5. -/
def ownNumberNotice : RxFrame :=
  { start := 0, cls := 3, sender := 5, payload := 3 :: List.replicate 13 0 }

/-- Refutes O24: of the first duplicate finding it says that of the bus the last-heard time and the LOGREC queue alone
change. With the queue full the oldest frame is pushed out, and its attempt count goes from 1 to 0 (R54). -/
theorem not_noticeReplacesTheSendersBookings : ¬ Obligations.NoticeReplacesTheSendersBookings := by
  rintro ⟨-, duplicate⟩
  obtain ⟨finding, -, -⟩ := duplicate fullLogQueue 0 ownNumberNotice (by decide) (by decide) (by decide) rfl
  obtain ⟨-, first⟩ := finding rfl (.inr rfl)
  obtain ⟨u, r, ran, stands, -⟩ := first rfl
  have counts : u.bus.logCount = 1 := congrArg (·.bus.logCount) stands
  have run : u = fullLogQueue.run 0 fun a => a.receive .notice ownNumberNotice := (Host.Outcome.next.inj ran).symm
  have ends : (fullLogQueue.run 0 fun a => a.receive .notice ownNumberNotice).bus.logCount = 0 := by decide +kernel
  rw [← run, counts] at ends
  cases ends

end Sys2Proof.Machine

/-! SUPPORT and PROOF. Received frames that one block takes: O22, O23, O25, O28, O29, O31 (R58 to R61, R79, R84, R94,
R158, R186). -/

namespace Sys2Proof.Machine

/-! ## Heard traffic (R60, R72, R75) -/

/-- R60, R72: the frame's start is the last-heard-any time, and in LEARNING and JOINED it moves the silence deadline. -/
def State.heardAt (s : State) (start : Nat) : State :=
  { s with bus := { s.bus with lastHeard := start }, pres := { s.pres with silence := some (start + 10000) } }

theorem State.hear_present {s : State} (hi : s.image = some .accepted)
    (hj : s.pres.join = .learning ∨ s.pres.join = .joined) (start : Nat) : s.hear start = s.heardAt start := by
  rcases hj with hj | hj <;> simp [State.hear, State.takeHeard, State.heardAt, hi, hj, silenceMs]

/-- R60, R62: in LISTENING and DISABLED the last-heard-any time alone moves. -/
theorem State.hear_absent {s : State} (hi : s.image = some .accepted)
    (hj : s.pres.join = .listening ∨ s.pres.join = .disabled) (start : Nat) :
    s.hear start = { s with bus := { s.bus with lastHeard := start } } := by
  rcases hj with hj | hj <;> simp [State.hear, State.takeHeard, hi, hj]

/-- R75: in ISOLATED it brings LEARNING. -/
theorem State.hear_isolated {s : State} (hi : s.image = some .accepted) (hj : s.pres.join = .isolated) (start : Nat) :
    s.hear start = State.changeJoin { s with bus := { s.bus with lastHeard := start } } .learning .heard := by
  simp [State.hear, State.takeHeard, hi, hj]

/-- R61: a frame of a kind that no block takes is heard traffic alone. -/
theorem State.receive_unhanded {s : State} {k : RxKind} {f : RxFrame} (hl : f.payload.length = k.length)
    (hk : k.handed = none) (hn : (k == .notice) = false) : s.receive k f = s.hear f.start := by
  unfold State.receive State.dispatch
  simp [hl, hk, hn]

/-- R58, R59, R61: a frame that passes its checks is heard, and handed on by kind. -/
theorem State.receive_handled {s : State} {k : RxKind} {h : FrameKind} {f : RxFrame} (H : Handled s k f)
    (hk : k.handed = some h) (hr : k ≠ .request) (hj : (s.hear f.start).pres.join ≠ .disabled)
    (hi : (s.hear f.start).image = some .accepted) :
    s.receive k f = (s.hear f.start).emit [.frame h f] := by
  have own : s.ownNumber k f = false := by simp [State.ownNumber, H.other]
  have on : (s.hear f.start).handsOn k f = true := by simp [State.handsOn, hi, hj, hr]
  simp [State.receive, State.dispatch, H.length, H.checks, own, hk, on]

/-- A frame handed to the blocks once it is heard traffic: the command ends where they leave the state. -/
theorem exec_heard {c : Instr} {s b a u : State} {t n : Nat} {k : RxKind} {h : FrameKind} {f : RxFrame}
    (hc : c.time = some t) (rule : ruleOf c (s.atTime t) = (s.atTime t).receive k f) (H : Handled s k f)
    (heard : (s.atTime t).hear f.start = b) (hb : b.handed = []) (hj : b.pres.join ≠ .disabled)
    (hi : b.image = some .accepted) (hk : k.handed = some h) (hr : k ≠ .request) (taken : b.takeFrame h f = a)
    (rests : a.seq.Rests) (d : a.DrainsTo u n) (hn : n + 1 ≤ 4096 := by decide) : exec c s = .next u := by
  have received := State.receive_handled (s := s.atTime t) ⟨H.length, H.checks, H.other, H.image, H.join⟩ hk hr
    (heard ▸ hj) (heard ▸ hi)
  have empty : ({ b with handed := [] } : State) = b := by rw [← hb]
  refine exec_of_drainsTo (n := n + 1) hc ?_ hn
  rw [rule, received, heard]
  refine State.DrainsTo.takeRests (a := a) (m := .frame h f) (rest := []) (by simp [State.emit, hb]) ?_ rests ?_
  · show State.takeFrame { b with handed := [] } h f = a
    rw [empty]
    exact taken
  · rw [List.append_nil]
    exact d

/-- A frame handed to the blocks of a station in LEARNING or JOINED. -/
theorem exec_handled {c : Instr} {s a u : State} {t n : Nat} {k : RxKind} {h : FrameKind} {f : RxFrame}
    (hc : c.time = some t) (rule : ruleOf c (s.atTime t) = (s.atTime t).receive k f) (hh : s.handed = [])
    (H : Handled s k f) (hj : s.pres.join = .learning ∨ s.pres.join = .joined) (hk : k.handed = some h)
    (hr : k ≠ .request) (taken : ((s.atTime t).heardAt f.start).takeFrame h f = a) (rests : a.seq.Rests)
    (d : a.DrainsTo u n) (hn : n + 1 ≤ 4096 := by decide) : exec c s = .next u :=
  exec_heard hc rule H (State.hear_present (s := s.atTime t) H.image hj f.start) hh H.join H.image hk hr taken rests d hn

/-- A frame that the blocks answer within their own state. -/
theorem exec_handled_quiet {c : Instr} {s u : State} {t : Nat} {k : RxKind} {h : FrameKind} {f : RxFrame}
    (hc : c.time = some t) (rule : ruleOf c (s.atTime t) = (s.atTime t).receive k f) (calm : s.Calm) (H : Handled s k f)
    (hj : s.pres.join = .learning ∨ s.pres.join = .joined) (hk : k.handed = some h) (hr : k ≠ .request)
    (taken : ((s.atTime t).heardAt f.start).takeFrame h f = u) (seq : u.seq = s.seq) (handed : u.handed = []) :
    exec c s = .next u :=
  exec_handled hc rule calm.handed H hj hk hr taken (seq ▸ calm.rests) (State.drainsTo_self handed)

/-! ## From ISOLATED to LEARNING (R75) -/

/-- R75: the state that a heard frame leaves in ISOLATED before the notices of the change are taken. -/
def State.returning (s : State) (start : Nat) : State :=
  State.entered { s with bus := { s.bus with lastHeard := start } } .learning

@[simp] theorem State.recordOf_seq (s : State) (b : LogBody) : (s.recordOf b).seq = s.log.nextSeq := by
  unfold State.recordOf
  split <;> rfl

theorem State.emit_nil (s : State) : s.emit [] = s := by
  unfold State.emit
  rw [List.append_nil]

/-- R133, R135: the tidy test adds to the open work alone. -/
theorem State.tidy_eq (s : State) : s.tidy = { s with mat := { s.mat with openWork := s.tidy.mat.openWork } } := by
  unfold State.tidy
  split <;> rfl

/-- R133: a crosspoint read OPEN, or that of the own HELD booking, is no untidy one. -/
theorem State.tidy_of_tidy {s : State}
    (h : ∀ x ∈ s.mat.rows, x.pos = some .opened ∨ (ownHeld s.map).map (·.1) = some x.terminal) : s.tidy = s := by
  have none : ∀ x ∈ s.mat.rows, x.untidy ((ownHeld s.map).map (·.1)) s.mat.releaseMark = false := by
    intro x hx
    rcases h x hx with e | e <;> simp [XRow.untidy, e]
  have adds : (s.mat.rows.filter fun x => x.untidy ((ownHeld s.map).map (·.1)) s.mat.releaseMark
      && ! s.mat.openWork.any (·.terminal == x.terminal)) = [] :=
    List.filter_eq_nil_iff.mpr fun x hx => by simp [none x hx]
  unfold State.tidy
  split
  · dsimp only
    rw [adds, List.map_nil, List.append_nil]
  · rfl

/-- R66 step 2, LEARNING: the tidy test takes effect, and no other block does anything but a unit in WAIT. -/
theorem State.takeJoin_learning {s : State} (hp : s.psu.phase ≠ .wait) (hj : s.pres.join ≠ .disabled) :
    s.takeJoin .learning = s.tidy := by
  have join : s.tidy.pres.join ≠ .disabled := by rw [State.tidy_eq]; exact hj
  simp [State.takeJoin, State.claimJoin, State.powerJoin, State.chooseIfWaiting, hp, State.seqJoin, State.matrixJoin,
    State.linkJoin, State.discardDisabled, join]

/-- R66: the change to LEARNING, with what was handed out after it. -/
theorem State.drainsTo_learning {s u : State} {cause : JoinCause} {n : Nat} {rest : List Handed} (hh : s.handed = [])
    (hr : s.seq.Rests) (hj : s.pres.join ≠ .joined) (hp : s.psu.phase ≠ .wait)
    (d : State.DrainsTo { (s.entered .learning).tidy.joinTail s.pres.join .learning cause with handed := rest } u n) :
    State.DrainsTo (State.emit (s.changeJoin .learning cause) rest) u (n + 2) := by
  have phase : (s.entered .learning).psu = s.psu := by simp [State.entered, hj]
  have handed : (s.entered .learning).handed = [] := hh
  have entered : State.emit (s.changeJoin .learning cause) rest = { s.entered .learning with
      handed := [.joinNotice s.pres.join .learning, .joinTail s.pres.join .learning cause] ++ rest } := by
    rw [State.changeJoin_eq]
    simp [State.emit, hh, hj, Bus.onJoin]
  have first : ({ s.entered .learning with handed := [] } : State) = s.entered .learning := by rw [← handed]
  have second : ({ (s.entered .learning).tidy with handed := [] } : State) = (s.entered .learning).tidy := by
    rw [State.tidy_eq]; rw [← handed]
  have seq : (s.entered .learning).tidy.seq = s.seq := by rw [State.tidy_eq]; rfl
  rw [entered]
  refine State.DrainsTo.takeRests (a := (s.entered .learning).tidy) rfl ?_ (seq ▸ hr) ?_
  · show State.takeJoin { s.entered .learning with handed := [] } .learning = _
    rw [first]
    exact State.takeJoin_learning (phase ▸ hp) (by simp [State.entered, Presence.enter])
  have empty : (s.entered .learning).tidy.handed = [] := by rw [State.tidy_eq]; exact handed
  refine State.DrainsTo.takeRests (a := (s.entered .learning).tidy.joinTail s.pres.join .learning cause)
    (m := .joinTail s.pres.join .learning cause) (rest := rest) ?_ ?_ ?_ ?_
  · simp [empty]
  · show State.joinTail { (s.entered .learning).tidy with handed := [] } s.pres.join .learning cause = _
    rw [second]
  · simpa [State.joinTail, seq] using hr
  · simpa [State.joinTail, empty] using d

/-- R66, R75: the change from ISOLATED to LEARNING, with what was handed out after it. -/
theorem State.drainsTo_returned {s u : State} {start n : Nat} {rest : List Handed} (hh : s.handed = [])
    (hr : s.seq.Rests) (hj : s.pres.join = .isolated) (hp : s.psu.phase ≠ .wait)
    (d : State.DrainsTo { (s.returning start).tidy.joinTail .isolated .learning .heard with handed := rest } u n) :
    State.DrainsTo (State.emit
      (State.changeJoin { s with bus := { s.bus with lastHeard := start } } .learning .heard) rest) u (n + 2) := by
  rw [← hj] at d
  exact State.drainsTo_learning (s := { s with bus := { s.bus with lastHeard := start } }) hh hr (by simp [hj]) hp d

/-- Settles O22: the checks lead to heard traffic in every case, and it moves what the join state has it move. -/
theorem otherFramesAreHeardTraffic : Obligations.OtherFramesAreHeardTraffic := by
  intro s t logrec f hh hi hl
  have rule : ruleOf (.otherFrameReceived t logrec f) (s.atTime t) = (s.atTime t).hear f.start := by
    cases logrec
    · exact State.receive_unhanded (k := .reply) hl rfl rfl
    · exact State.receive_unhanded (k := .logrec) hl rfl rfl
  refine ⟨fun hj => ?_, fun hj => ?_, fun calm hj hp tidy => ?_⟩
  · exact exec_quiet (t := t) rfl (rule.trans (State.hear_present (s := s.atTime t) hi hj f.start)) hh
  · exact exec_quiet (t := t) rfl (rule.trans (State.hear_absent (s := s.atTime t) hi hj f.start)) hh
  have map : ((s.atTime t).returning f.start).map = s.map := rfl
  have stays : ((s.atTime t).returning f.start).tidy = (s.atTime t).returning f.start := State.tidy_of_tidy tidy
  have none : ({ ((s.atTime t).returning f.start).joinTail .isolated .learning .heard with handed := [] } : State)
      = ((s.atTime t).returning f.start).joinTail .isolated .learning .heard := by
    have : (((s.atTime t).returning f.start).joinTail .isolated .learning .heard).handed = [] := by
      simpa [State.joinTail] using (show ((s.atTime t).returning f.start).handed = [] from hh)
    rw [← this]
  have d := State.drainsTo_returned (s := s.atTime t) (start := f.start) (rest := []) (n := 0) hh calm.rests hj hp
    (State.drainsTo_self rfl)
  rw [State.emit_nil, stays, none] at d
  refine ⟨_, ((s.atTime t).returning f.start).recordOf (.join .learning .isolated .heard),
    exec_of_drainsTo (n := 2) rfl ((rule.trans (State.hear_isolated (s := s.atTime t) hi hj f.start)).symm ▸ d), ?_⟩
  unfold State.joinTail
  simp [State.returning, State.entered, Presence.enter, Alert.onJoin, hj, Bus.onJoin, learningMs, silenceMs]

/-! ## A request (R186) -/

/-- Settles O31: by whether the REQUEST names the station, and whether the queue has room. -/
theorem requestJoinsTheQueue : Obligations.RequestJoinsTheQueue := by
  intro s t f calm hl hi hj
  have heard : (s.atTime t).hear f.start = (s.atTime t).heardAt f.start := State.hear_present (s := s.atTime t) hi hj _
  have passes : passesChecks .request f = true := rfl
  have received : ruleOf (.requestReceived t f) (s.atTime t) = ((s.atTime t).heardAt f.start).dispatch .request f := by
    show (s.atTime t).receive .request f = _
    unfold State.receive
    rw [heard]
    simp [hl, RxKind.length, passes, State.ownNumber, RxKind.anySender]
  by_cases named : byteAt f.payload 1 / 8 = s.cfg.station
  · have on : ((s.atTime t).heardAt f.start).handsOn .request f = true := by
      simp [State.handsOn, State.heardAt, State.atTime, hi, RxKind.anySender, named]
    have handed : ruleOf (.requestReceived t f) (s.atTime t)
        = { (s.atTime t).heardAt f.start with handed := [.frame .request f] } := by
      rw [received]
      show (if _ then State.emit _ [.frame .request f] else _) = _
      rw [if_pos on]
      simp [State.emit, State.heardAt, State.atTime, calm.handed]
    have joins : State.takeRequest ((s.atTime t).heardAt f.start) f = { (s.atTime t).heardAt f.start with
        req := { s.req with queue := if s.req.queue.length < 8 then s.req.queue ++ [f.payload] else s.req.queue } } := by
      have enabled : s.pres.join ≠ .disabled := by rcases hj with e | e <;> simp [e]
      unfold State.takeRequest
      by_cases room : s.req.queue.length < 8
      · simp [State.heardAt, State.atTime, requestCapacity, room, State.discardDisabled, enabled]
      · simp [State.heardAt, State.atTime, requestCapacity, room]
    refine exec_of_drainsTo (n := 1) rfl (handed ▸ drainsTo_one ?_ calm.rests calm.handed)
    show State.takeRequest { (s.atTime t).heardAt f.start with handed := [] } f = _
    have empty : ({ (s.atTime t).heardAt f.start with handed := [] } : State) = (s.atTime t).heardAt f.start := by
      rw [← calm.handed]
      rfl
    rw [empty, joins]
    simp [State.heardAt, State.atTime, named]
  · have off : ((s.atTime t).heardAt f.start).handsOn .request f = false := by
      simp [State.handsOn, State.heardAt, State.atTime, named]
    have quiet : ruleOf (.requestReceived t f) (s.atTime t) = (s.atTime t).heardAt f.start := by
      rw [received]
      show (if _ then State.emit _ [.frame .request f] else _) = _
      rw [off]
      rfl
    refine exec_quiet (t := t) rfl (quiet.trans ?_) calm.handed
    simp [State.heardAt, State.atTime, named]

/-! ## An INTENT (R158, R159) -/

/-- Settles O29. -/
theorem intentIsRecorded : Obligations.IntentIsRecorded := by
  intro s t f calm H hj hp
  refine exec_handled_quiet (t := t) (k := .intent) rfl rfl calm H hj rfl (by decide) ?_ rfl calm.handed
  show State.powerIntent ((s.atTime t).heardAt f.start) f = _
  simp [State.powerIntent, State.chooseIfWaiting, State.heardAt, State.atTime, hp, changeRec, DemandRec.intend]

/-! ## A FAULT (R79) -/

/-- R79: a row's mark is made longer, never shorter. -/
theorem TermRow.mark_eq (r : TermRow) (n a minutes : Nat) : r.mark n a minutes
    = { r with suspect := match r.suspect with
        | none => some (a + 60 * minutes)
        | some v => if n < v then some (max v (a + 60 * minutes)) else some (a + 60 * minutes) } := by
  unfold TermRow.mark TermRow.isSuspect
  rcases e : r.suspect with _ | v
  · rfl
  · by_cases stands : n < v
    · by_cases longer : v < a + 60 * minutes
      · simp [stands, longer, max_eq_right longer.le]
      · have kept : ({ r with suspect := some v } : TermRow) = r := by rw [← e]
        simp [stands, longer, max_eq_left (Nat.le_of_not_lt longer), kept]
    · simp [stands]

theorem TermRow.mark_slots (r : TermRow) (n a minutes : Nat) : (r.mark n a minutes).slots = r.slots := by
  rw [TermRow.mark_eq]

theorem TermRow.mark_number (r : TermRow) (n a minutes : Nat) : (r.mark n a minutes).number = r.number := by
  rw [TermRow.mark_eq]

/-- A mark changes no booking and no number. -/
theorem ownIn_mapMark (m : List TermRow) (st : BookState) (t n a minutes : Nat) :
    ownIn (mapMark m t n a minutes) st = ownIn m st := by
  unfold ownIn mapMark updateWhere
  rw [List.map_map]
  congr 1
  refine List.map_congr_left fun r _ => ?_
  dsimp only [Function.comp_apply]
  split
  · rw [TermRow.mark_slots, TermRow.mark_number]
  · rfl

/-- Settles O28: on a terminal that is none of the own ones and not claimed, no suspect notice and no withdrawal follow. -/
theorem faultMarksTheTerminalSuspect : Obligations.FaultMarksTheTerminalSuspect := by
  intro s t f calm H hj foreign unclaimed till
  refine exec_handled_quiet (t := t) (k := .fault) rfl rfl calm H hj rfl (by decide) ?_ rfl calm.handed
  show State.claimFault (State.markFault _ _ _ _) _ = _
  have other : ∀ n a minutes, isOwnTerminal (mapMark s.map (byteAt f.payload 1) n a minutes) (byteAt f.payload 1) = false := by
    intro n a minutes
    simpa [isOwnTerminal, ownHeld, ownBooked, ownIn_mapMark] using foreign
  simp [State.markFault, State.heardAt, State.atTime, other, State.emit, State.claimFault, unclaimed, State.localSecond]
  unfold mapMark updateWhere
  simp only [beq_iff_eq, TermRow.mark_eq]
  rfl

/-! ## A FREE (R84) -/

/-- R84: what a FREE does to the rows. -/
theorem mapFree_eq (m : List TermRow) (t owner : Nat) : mapFree m t owner = m.map fun r =>
    if r.number = t then { r with slots := r.slots.filter fun b => ! (b.owner == owner && b.source == .heard) } else r := by
  simp [mapFree, mapDropAt, updateWhere, TermRow.drop]

/-- Settles O23: the FREE acts on the rows alone, also where it is what ends ISOLATED. -/
theorem freeRemovesTheHeardBookings : Obligations.FreeRemovesTheHeardBookings := by
  intro s t f at_ H
  have handed : s.handed = [] := at_.elim (·.handed) (·.1.handed)
  have rests : s.seq.Rests := at_.elim (fun h => by rw [h.seq]; exact ⟨rfl, rfl, by decide, rfl⟩) (·.1.rests)
  by_cases isolated : s.pres.join = .isolated
  · have unarmed : s.Unarmed := at_.elim id fun h => absurd isolated h.2
    have waits : s.psu.phase ≠ .wait := by simp [unarmed.power]
    have heard := State.hear_isolated (s := s.atTime t) H.image isolated f.start
    let b := ((s.atTime t).returning f.start).tidy.joinTail .isolated .learning .heard
    obtain ⟨work, tidied⟩ : ∃ work, ((s.atTime t).returning f.start).tidy
        = { (s.atTime t).returning f.start with mat := { s.mat with openWork := work } } := ⟨_, State.tidy_eq _⟩
    have psu : ((s.atTime t).returning f.start).psu = s.psu := by simp [State.returning, State.entered, isolated]
    have same : b.handed = [] ∧ b.seq = s.seq ∧ b.map = s.map ∧ b.claim = s.claim ∧ b.store = s.store
        ∧ b.link = (s.atTime t).link ∧ b.psu = s.psu := by
      simp only [b, State.joinTail, tidied, State.noticeChange_handed, State.noticeChange_seq, State.noticeChange_map,
        State.noticeChange_claim, State.noticeChange_store, State.noticeChange_link, State.noticeChange_psu,
        State.writeLog_handed, State.writeLog_seq, State.writeLog_map, State.writeLog_claim, State.writeLog_store,
        State.writeLog_link, State.writeLog_psu, psu]
      exact ⟨handed, rfl, rfl, rfl, rfl, rfl, trivial⟩
    obtain ⟨bh, bs, bm, bc, bt, bl, bp⟩ := same
    have received := State.receive_handled (s := s.atTime t) (f := f) (k := .free) (h := .free)
      ⟨H.length, H.checks, H.other, H.image, H.join⟩ rfl (by decide)
      (by rw [heard, State.changeJoin_eq]; simp [State.entered, Presence.enter]) (by rw [heard]; exact H.image)
    have d : State.DrainsTo { b with handed := [.frame .free f] } (b.mapFreeFrame f) 1 := by
      refine drainsTo_one ?_ (bs ▸ rests) bh
      show State.mapFreeFrame { b with handed := [] } f = _
      rw [← bh]
    refine ⟨b.mapFreeFrame f, exec_of_drainsTo (n := 3) (t := t) rfl ?_, ?_, bc, bt, ?_, congrArg Power.table bp⟩
    · show State.DrainsTo ((s.atTime t).receive .free f) _ _
      rw [received, heard]
      exact State.drainsTo_returned (s := s.atTime t) handed rests isolated waits d
    · show mapFree b.map _ _ = _
      rw [bm, mapFree_eq]
    · show b.link.permit = _
      rw [bl]
      rfl
  · obtain ⟨b, heard, bh, bs, bm, bc, bt, bl, bp, bj, bi⟩ : ∃ b, (s.atTime t).hear f.start = b ∧ b.handed = []
        ∧ b.seq = s.seq ∧ b.map = s.map ∧ b.claim = s.claim ∧ b.store = s.store ∧ b.link.permit = s.link.permit
        ∧ b.psu = s.psu ∧ b.pres.join = s.pres.join ∧ b.image = some .accepted := by
      by_cases present : s.pres.join = .learning ∨ s.pres.join = .joined
      · exact ⟨_, State.hear_present (s := s.atTime t) H.image present f.start, handed, rfl, rfl, rfl, rfl, rfl, rfl,
          rfl, H.image⟩
      · have absent : s.pres.join = .listening ∨ s.pres.join = .disabled := by
          cases e : s.pres.join <;> simp_all
        exact ⟨_, State.hear_absent (s := s.atTime t) H.image absent f.start, handed, rfl, rfl, rfl, rfl, rfl, rfl,
          rfl, H.image⟩
    refine ⟨_, exec_heard (t := t) (k := .free) (n := 0) rfl rfl H heard bh (bj ▸ H.join) bi rfl (by decide) rfl
      (bs ▸ rests) (State.drainsTo_self bh), ?_, bc, bt, bl, congrArg Power.table bp⟩
    show mapFree b.map _ _ = _
    rw [bm, mapFree_eq]

/-! ## A CLAIM that is denied (R94, R95) -/

/-- The first element that passes a test, where it passes a further one. -/
theorem find?_and_of_find? {α : Type} {p q : α → Bool} {l : List α} {x : α} (h : l.find? p = some x) (hq : q x = true) :
    l.find? (fun y => p y && q y) = some x := by
  induction l with
  | nil => simp at h
  | cons y l ih =>
    by_cases hp : p y = true
    · obtain rfl : y = x := by simpa [List.find?_cons, hp] using h
      simp [hp, hq]
    · simp only [List.find?_cons, hp, Bool.false_and] at h ⊢
      exact ih h

/-- R94 test 1 finds nothing where the station has no DEDICATED booking on the terminal. -/
theorem undedicated_row {m : List TermRow} {station t : Nat} {r : TermRow} (row : rowOf m t = some r)
    (h : ownDedicated m station t = false) :
    (r.slots.any fun b => b.state == .dedicated && b.owner == station) = false := by
  simpa [ownDedicated, row] using h

/-- R94 test 2. -/
theorem TermRow.answer_held {r : TermRow} {station : Nat} {c h : Booking}
    (un : (r.slots.any fun b => b.state == .dedicated && b.owner == station) = false)
    (found : r.slots.find? (fun b => b.source == .own && b.state == .held) = some h)
    (meets : spansOverlap h.since h.till c.since c.till = true) : r.answer station c = .deny .held h.cls h.till := by
  have held : h.state = .held := by
    have := List.find?_some found
    simp at this
    exact this.2
  have first := find?_and_of_find? (q := fun b => b.overlaps c.since c.till) found
    (by simpa [Booking.overlaps, Booking.reach, held] using meets)
  unfold TermRow.answer
  simp only [un, Bool.false_eq_true, if_false]
  show (match r.slots.find? (fun b => isOwn .held b && b.overlaps c.since c.till) with
    | some h => _
    | none => _) = _
  unfold isOwn
  rw [first]

/-- R94 test 3, with the one STALE booking there is. -/
theorem TermRow.answer_stale {r : TermRow} {station : Nat} {c b : Booking}
    (un : (r.slots.any fun b => b.state == .dedicated && b.owner == station) = false)
    (free : ∀ h ∈ r.slots, h.source = .own → h.state = .held → spansOverlap h.since h.till c.since c.till = false)
    (one : r.slots.filter (·.state == .stale) = [b]) (meets : ∀ u, c.till = some u → b.since < u) :
    r.answer station c = .deny .stale 0 b.till := by
  have stale : b.state = .stale ∧ b ∈ r.slots := by
    have : b ∈ r.slots.filter (·.state == .stale) := by rw [one]; exact List.mem_singleton_self b
    simpa [and_comm] using this
  have none : r.slots.find? (fun b => isOwn .held b && b.overlaps c.since c.till) = none := by
    rw [List.find?_eq_none]
    intro h hh
    simp only [isOwn, Bool.and_eq_true, beq_iff_eq, not_and, and_imp]
    intro own held
    simp [Booking.overlaps, Booking.reach, held, free h hh own held]
  have met : r.slots.filter (fun b => b.state == .stale && b.overlaps c.since c.till) = [b] := by
    have meeting : b.overlaps c.since c.till = true := by
      rcases e : c.till with _ | u
      · simp [Booking.overlaps, Booking.reach, stale.1, spansOverlap]
      · simp [Booking.overlaps, Booking.reach, stale.1, spansOverlap, meets u e]
    have both : r.slots.filter (fun b => b.state == .stale && b.overlaps c.since c.till)
        = (r.slots.filter (·.state == .stale)).filter fun b => b.overlaps c.since c.till := by
      rw [List.filter_filter]
      simp only [Bool.and_comm]
    rw [both, one]
    simp [meeting]
  unfold TermRow.answer
  simp only [un, Bool.false_eq_true, if_false, none, met]
  rfl

/-- Settles O25. -/
theorem heldTerminalIsDenied : Obligations.HeldTerminalIsDenied := by
  intro s t f r calm H hj unclaimed row undedicated c denied
  have un := undedicated_row row undedicated
  have answered {reason : DenyReason} {cls : Nat} {till : Option Int}
      (h : r.answer s.cfg.station c = .deny reason cls till) : denied reason cls till := by
    have sends : ((s.atTime t).heardAt f.start).pres.join.sendsNotice = true := by
      rcases hj with e | e <;> simp [State.heardAt, State.atTime, e, JoinState.sendsNotice]
    have answer : ((s.atTime t).heardAt f.start).claimAnswer (byteAt f.payload 1) c = .deny reason cls till := by
      unfold State.claimAnswer
      rw [if_pos sends]
      show (match rowOf s.map (byteAt f.payload 1) with
        | none => _
        | some r => _) = _
      rw [row]
      exact h
    let d : DenyFrame :=
      { claimant := f.sender.toNat, terminal := byteAt f.payload 1, reason := reason, cls := cls, till := till }
    let heard := (s.atTime t).heardAt f.start
    have taken : heard.takeFrame .claim f = { heard with bus := heard.bus.placeDeny d } := by
      have map : heard.mapClaim f = { heard with bus := heard.bus.placeDeny d } := by
        show (match heard.claimAnswer (byteAt f.payload 1) c with
          | .deny reason cls till => _
          | .yield_ => _
          | .nothing => _) = _
        rw [answer]
      show State.claimClaim (heard.mapClaim f) f = _
      rw [map]
      unfold State.claimClaim
      have other : ((s.claim.terminal == some (byteAt f.payload 1)) = false) := by simpa using unclaimed
      simp [heard, State.heardAt, State.atTime, other]
    refine ⟨_, exec_handled_quiet (t := t) (k := .claim) rfl rfl calm H hj rfl (by decide) taken rfl calm.handed, rfl, ?_,
      rfl, rfl, rfl⟩
    show (Bus.placeDeny { s.bus with lastHeard := f.start } d).denyQ = (s.bus.placeDeny d).denyQ
    unfold Bus.placeDeny
    have waiting : ({ s.bus with lastHeard := f.start } : Bus).denyWaiting = s.bus.denyWaiting := rfl
    have trying : ({ s.bus with lastHeard := f.start } : Bus).inAttempt .deny = s.bus.inAttempt .deny := rfl
    rw [waiting, trying]
    split
    · rfl
    · split <;> rfl
  exact ⟨fun h found meets => answered (TermRow.answer_held un found meets),
    fun b free one meets => answered (TermRow.answer_stale un free one meets)⟩

end Sys2Proof.Machine

/-! SUPPORT and PROOF. Rows of the booking map, R78, and O26 and O27: a booking learned from a CLAIM or a DENY. -/

namespace Sys2Proof.Machine

/-! ## Rows (R76, R191) -/

/-- The row of a terminal bears its number. -/
theorem rowOf_number {m : List TermRow} {t : Nat} {r : TermRow} (h : rowOf m t = some r) : r.number = t := by
  simpa using List.find?_some h

theorem rowOf_mem {m : List TermRow} {t : Nat} {r : TermRow} (h : rowOf m t = some r) : r ∈ m := List.mem_of_find?_eq_some h

/-- R191: a row of the terminal is its row. -/
theorem RowsDistinct.eq_of_number {m : List TermRow} {t : Nat} {r x : TermRow} (d : RowsDistinct m)
    (h : rowOf m t = some r) (hx : x ∈ m) (hn : x.number = t) : x = r :=
  List.inj_on_of_nodup_map d hx (rowOf_mem h) (hn.trans (rowOf_number h).symm)

/-- A row changed by number. -/
theorem rowOf_updateWhere {m : List TermRow} {t n : Nat} {f : TermRow → TermRow} (hf : ∀ r, r.number = t → (f r).number = t) :
    rowOf (updateWhere (·.number == t) f m) n = if n = t then (rowOf m n).map f else rowOf m n := by
  unfold rowOf updateWhere
  induction m with
  | nil => simp
  | cons r m ih =>
    by_cases hr : r.number = t
    · by_cases hn : n = t
      · simp [hr, hf r hr, hn]
      · have : ¬ t = n := fun e => hn e.symm
        simpa [List.find?_cons, hr, hf r hr, this, hn] using ih
    · by_cases hn : r.number = n
      · simp [hn, show ¬ n = t from hn ▸ hr]
      · simpa [List.find?_cons, hr, hn] using ih

theorem rowOf_mapDropAt (m : List TermRow) (t n : Nat) (test : Booking → Bool) :
    rowOf (mapDropAt m t test) n = if n = t then (rowOf m n).map (·.drop test) else rowOf m n :=
  rowOf_updateWhere fun _ h => h

theorem rowOf_setRow (m : List TermRow) (q : TermRow) (n : Nat) :
    rowOf (setRow m q) n = if n = q.number then (rowOf m n).map fun _ => q else rowOf m n :=
  rowOf_updateWhere fun _ _ => rfl

theorem RowsDistinct.updateWhere {m : List TermRow} {t : Nat} {f : TermRow → TermRow} (d : RowsDistinct m)
    (hf : ∀ r, (f r).number = r.number) : RowsDistinct (updateWhere (·.number == t) f m) := by
  unfold RowsDistinct Sys2Proof.Machine.updateWhere
  rw [List.map_map]
  have numbers : m.map ((·.number) ∘ fun r => if r.number == t then f r else r) = m.map (·.number) := by
    refine List.map_congr_left fun r _ => ?_
    dsimp only [Function.comp_apply]
    split
    · exact hf r
    · rfl
  rw [numbers]
  exact d

/-! ## Own bookings are not moved by others -/

/-- A booking of another station than the test names leaves the search where it was. -/
theorem find?_insertBooking {p : Booking → Bool} {b : Booking} (h : p b = false) (l : List Booking) :
    (insertBooking b l).find? p = l.find? p := by
  induction l with
  | nil => simp [insertBooking, h]
  | cons x l ih =>
    unfold insertBooking
    split
    · simp [h]
    · simp [List.find?_cons, ih]

theorem find?_filter_of_kept {p test : Booking → Bool} (h : ∀ b, p b = true → test b = true) (l : List Booking) :
    (l.filter test).find? p = l.find? p := by
  rw [List.find?_filter]
  congr 1
  funext b
  cases hp : p b
  · simp
  · simp [h b hp]

theorem find?_erase {p : Booking → Bool} {b : Booking} (h : p b = false) (l : List Booking) :
    (l.erase b).find? p = l.find? p := by
  induction l with
  | nil => rfl
  | cons x l ih =>
    by_cases e : x = b
    · subst e
      simp [h]
    · rw [List.erase_cons_tail (by simpa using e), List.find?_cons, List.find?_cons, ih]

/-- Rows of which the own booking stays keep it in the map. -/
theorem ownIn_updateWhere {m : List TermRow} {t : Nat} {st : BookState} {f : TermRow → TermRow}
    (hn : ∀ r ∈ m, r.number = t → (f r).number = t)
    (hf : ∀ r ∈ m, r.number = t → (f r).slots.find? (isOwn st) = r.slots.find? (isOwn st)) :
    ownIn (updateWhere (·.number == t) f m) st = ownIn m st := by
  unfold ownIn updateWhere
  rw [List.map_map]
  congr 1
  refine List.map_congr_left fun r hr => ?_
  dsimp only [Function.comp_apply]
  by_cases e : r.number = t
  · have kept := hf r hr e
    unfold isOwn at kept
    simp only [e, beq_self_eq_true, if_true, kept, hn r hr e]
  · have : (r.number == t) = false := by simpa using e
    simp [this]

theorem ownIn_mapDropAt {m : List TermRow} {t : Nat} {st : BookState} {test : Booking → Bool}
    (h : ∀ b, isOwn st b = true → test b = false) : ownIn (mapDropAt m t test) st = ownIn m st :=
  ownIn_updateWhere (fun _ _ e => e) fun r _ _ => find?_filter_of_kept (fun b hb => by simp [h b hb]) r.slots

/-! ## Room under R78 -/

theorem mem_insertBooking {b x : Booking} {l : List Booking} : x ∈ insertBooking b l ↔ x = b ∨ x ∈ l := by
  induction l with
  | nil => simp [insertBooking]
  | cons y l ih =>
    unfold insertBooking
    split
    · simp
    · simp only [List.mem_cons, ih]
      tauto

/-- R78: where the bookings stand in the order of their froms, the one that may be evicted and starts after all others
that may be is the last of them. -/
theorem lastEvictable_eq {l : List Booking} {e : Booking} (ordered : l.Pairwise fun x y => x.since ≤ y.since) (he : e ∈ l)
    (hs : e.state = .booked) (hh : e.source = .heard)
    (last : ∀ x ∈ l, x.state = .booked → x.source = .heard → x = e ∨ x.since < e.since) : lastEvictable l = some e := by
  unfold lastEvictable
  have mem : e ∈ l.filter Booking.evictable := List.mem_filter.mpr ⟨he, by simp [Booking.evictable, hs, hh]⟩
  obtain ⟨g, hg⟩ : ∃ g, (l.filter Booking.evictable).getLast? = some g := by
    cases h : (l.filter Booking.evictable).getLast? with
    | none => simp [List.getLast?_eq_none_iff.mp h] at mem
    | some g => exact ⟨g, rfl⟩
  obtain ⟨before, split⟩ := List.getLast?_eq_some_iff.mp hg
  have own : g ∈ l.filter Booking.evictable := split ▸ by simp
  obtain ⟨gl, ge⟩ := List.mem_filter.mp own
  have gt : g.state = .booked ∧ g.source = .heard := by simpa [Booking.evictable] using ge
  rcases last g gl gt.1 gt.2 with rfl | earlier
  · exact hg
  · have pairs := List.Pairwise.filter Booking.evictable ordered
    rw [split] at pairs mem
    rcases List.mem_append.mp mem with early | late
    · have := (List.pairwise_append.mp pairs).2.2 e early g (by simp)
      omega
    · rw [List.mem_singleton.mp late]
      exact hg

theorem lastEvictable_none {l : List Booking} (h : ∀ x ∈ l, ¬ (x.state = .booked ∧ x.source = .heard)) :
    lastEvictable l = none := by
  unfold lastEvictable
  rw [List.filter_eq_nil_iff.mpr fun x hx => by simpa [Booking.evictable] using fun hs => (fun hh => h x hx ⟨hs, hh⟩)]
  rfl

/-- R78: what the slots of a terminal hold once a booking has come. -/
def TermRow.slotsWith (r : TermRow) (b : Booking) : List Booking := ((r.enter b).map (·.slots)).getD r.slots

/-- R78: a HEARD booking takes room. -/
theorem TermRow.takesRoom (r : TermRow) {b : Booking} (ordered : r.slots.Pairwise fun x y => x.since ≤ y.since)
    (hb : b.source = .heard) : TakesRoom r.slots b (r.slotsWith b) := by
  unfold TermRow.slotsWith TermRow.enter
  refine ⟨fun room x => ?_, fun full e he hs hh last => ?_, fun full hn => ?_⟩
  · simp [slotCapacity, room, mem_insertBooking]
  · have room : ¬ r.slots.length < slotCapacity := by unfold slotCapacity; omega
    simp only [room, if_false, lastEvictable_eq ordered he hs hh last, Booking.mayEvict, hb]
    refine ⟨fun before x => ?_, fun after => ?_⟩
    · simp [before, mem_insertBooking]
    · simp [Int.not_lt.mpr after]
  · have room : ¬ r.slots.length < slotCapacity := by unfold slotCapacity; omega
    simp [room, lastEvictable_none hn]

/-- R78: only what a booking takes the place of leaves, and no own booking is that. -/
theorem TermRow.slotsWith_find? (r : TermRow) {b : Booking} {st : BookState} (hb : b.source = .heard) :
    (r.slotsWith b).find? (isOwn st) = r.slots.find? (isOwn st) := by
  have other : isOwn st b = false := by simp [isOwn, hb]
  unfold TermRow.slotsWith TermRow.enter
  split
  · simp [find?_insertBooking other]
  · rcases e : lastEvictable r.slots with _ | old
    · simp
    · have heard : isOwn st old = false := by
        have : old.evictable = true := (List.mem_filter.mp (List.mem_of_getLast? e)).2
        have : old.source = .heard := by simp [Booking.evictable] at this; exact this.2
        simp [isOwn, this]
      dsimp only
      split
      · simp [find?_insertBooking other, find?_erase heard]
      · simp

theorem TermRow.enter_number {r q : TermRow} {b : Booking} (h : r.enter b = some q) : q.number = r.number := by
  unfold TermRow.enter at h
  split at h
  · cases h; rfl
  · split at h
    · cases h
    · split at h
      · cases h; rfl
      · cases h

/-- R78: the map with a HEARD booking come to a terminal of the reach: its row alone is changed, and no own booking
moves. -/
theorem State.enterBooking_heard {s : State} {t : Nat} {r : TermRow} {b : Booking} (d : RowsDistinct s.map)
    (row : rowOf s.map t = some r) (hb : b.source = .heard) (hh : s.handed = []) :
    ∃ m ms, s.enterBooking t b = { s with map := m, handed := ms } ∧ (ms = [] ∨ ms = [.entered t])
      ∧ (∃ q, rowOf m t = some q ∧ q.slots = r.slotsWith b) ∧ ∀ n, n ≠ t → rowOf m n = rowOf s.map n := by
  unfold State.enterBooking mapEnter
  rcases e : r.enter b with _ | q
  · refine ⟨s.map, [], ?_, .inl rfl, ⟨r, row, by simp [TermRow.slotsWith, e]⟩, fun _ _ => rfl⟩
    simp [row, e, ← hh]
  · have number : q.number = t := (TermRow.enter_number e).trans (rowOf_number row)
    have slots : q.slots = r.slotsWith b := by simp [TermRow.slotsWith, e]
    have own (st : BookState) : ownIn (setRow s.map q) st = ownIn s.map st := by
      refine ownIn_updateWhere (fun _ _ _ => rfl) fun x hx hn => ?_
      rw [d.eq_of_number row hx (hn.trans number), slots]
      exact r.slotsWith_find? hb
    refine ⟨setRow s.map q, [.entered t], ?_, .inr rfl, ⟨q, ?_, slots⟩, fun n hn => ?_⟩
    · simp [row, e, State.withMap, ownHeld, ownBooked, own, State.emit, hh]
    · rw [rowOf_setRow, if_pos number.symm, row]
      rfl
    · rw [rowOf_setRow, if_neg fun h => hn (h.trans number)]

/-- R128: with no drive active a booking that entered is nothing to the matrix interface. -/
theorem State.drainsTo_entered {s : State} {t : Nat} {ms : List Handed} (hm : ms = [] ∨ ms = [.entered t])
    (ha : s.mat.active = none) (hr : s.seq.Rests) (hh : s.handed = []) :
    State.DrainsTo { s with handed := ms } s 1 := by
  have none : ({ s with handed := [] } : State) = s := by rw [← hh]
  rcases hm with rfl | rfl
  · rw [none]
    exact fun k _ => State.drainsTo_self hh k (Nat.zero_le k)
  · refine drainsTo_one ?_ hr hh
    show State.matrixEntered { s with handed := [] } t = s
    rw [none]
    simp [State.matrixEntered, ha]

/-- A frame that enters a HEARD booking once others of its terminal have left. -/
theorem learned {c : Instr} {s : State} {t n : Nat} {k : RxKind} {h : FrameKind} {f : RxFrame} {test : Booking → Bool}
    {b : Booking} {r : TermRow} (hc : c.time = some t) (rule : ruleOf c (s.atTime t) = (s.atTime t).receive k f)
    (calm : s.Calm) (H : Handled s k f) (hj : s.pres.join = .learning ∨ s.pres.join = .joined)
    (hk : k.handed = some h) (hr : k ≠ .request) (ha : s.mat.active = none) (rows : RowsDistinct s.map)
    (ordered : SlotsOrdered s.map) (row : rowOf s.map n = some r) (hb : b.source = .heard)
    (taken : ∀ a, State.enterBooking { (s.atTime t).heardAt f.start with map := mapDropAt s.map n test } n b = a →
      a.claim = s.claim → a.cfg = s.cfg → ((s.atTime t).heardAt f.start).takeFrame h f = a) :
    ∃ u q, exec c s = .next u ∧ rowOf u.map n = some q ∧ TakesRoom (r.slots.filter fun x => ! test x) b q.slots
      ∧ (∀ i, i ≠ n → rowOf u.map i = rowOf s.map i) ∧ u.bus.denyQ = s.bus.denyQ ∧ u.claim = s.claim
      ∧ u.store = s.store ∧ u.seq = s.seq := by
  let base : State := { (s.atTime t).heardAt f.start with map := mapDropAt s.map n test }
  have dropped : rowOf base.map n = some (r.drop test) := by
    show rowOf (mapDropAt s.map n test) n = _
    rw [rowOf_mapDropAt, if_pos rfl, row]
    rfl
  have distinct : RowsDistinct base.map := rows.updateWhere fun _ => rfl
  obtain ⟨m, ms, entered, hm, ⟨q, hq, slots⟩, others⟩ :=
    State.enterBooking_heard (s := base) distinct dropped hb calm.handed
  have sorted : (r.drop test).slots.Pairwise fun x y => x.since ≤ y.since :=
    List.Pairwise.filter _ (ordered r (rowOf_mem row))
  have ran := exec_handled (u := { base with map := m }) (a := { base with map := m, handed := ms }) hc rule calm.handed
    H hj hk hr (taken _ entered rfl rfl) calm.rests
    (State.drainsTo_entered (s := { base with map := m }) hm ha calm.rests calm.handed)
  refine ⟨_, q, ran, hq, slots ▸ (r.drop test).takesRoom sorted hb, fun i hi => ?_, rfl, rfl, rfl, rfl⟩
  show rowOf m i = _
  rw [others i hi]
  show rowOf (mapDropAt s.map n test) i = _
  rw [rowOf_mapDropAt, if_neg hi]

/-- Settles O26: no test of R94 answers the claim, and it is booked. -/
theorem unansweredClaimIsBooked : Obligations.UnansweredClaimIsBooked := by
  intro s t f r calm H hj idle unclaimed rows ordered row plain since c
  have booking : claimBooking f.payload f.sender.toNat (f.start / 1000) = (byteAt f.payload 1, c) := by
    simp [claimBooking, heardBooking, sinceOf, tillOf, c, since]
  have answer : r.answer s.cfg.station c = .nothing := by
    have dedicated : (r.slots.any fun b => b.state == .dedicated && b.owner == s.cfg.station) = false := by
      rw [List.any_eq_false]
      intro b hb
      simp [(plain b hb).2.2]
    have own (st : BookState) : r.slots.find? (fun b => isOwn st b && b.overlaps c.since c.till) = none := by
      rw [List.find?_eq_none]
      intro b hb
      simp [isOwn, (plain b hb).1]
    have stale : r.slots.filter (fun b => b.state == .stale && b.overlaps c.since c.till) = [] := by
      rw [List.filter_eq_nil_iff]
      intro b hb
      simp [(plain b hb).2.1]
    unfold TermRow.answer
    simp only [dedicated, own, stale, Bool.false_eq_true, if_false, List.isEmpty_nil, Bool.not_true]
  refine (learned (c := .claimReceived t f) (t := t) (k := .claim)
    (test := fun x => x.owner == f.sender.toNat && x.source == .heard && x.state == .booked) (b := c) rfl rfl calm H hj rfl
    (by decide) idle rows ordered row rfl fun a entered claim cfg => ?_).imp fun u ⟨q, ran, hq, room, others, deny,
      claim, store, seq⟩ =>
      ⟨q, ran, hq, room, others, deny, store, claim, seq⟩
  have nothing : ((s.atTime t).heardAt f.start).claimAnswer (byteAt f.payload 1) c = .nothing := by
    unfold State.claimAnswer
    split
    · show (match rowOf s.map (byteAt f.payload 1) with
        | none => _
        | some r => _) = _
      rw [row]
      exact answer
    · rfl
  have map : ((s.atTime t).heardAt f.start).mapClaim f = a := by
    unfold State.mapClaim
    rw [booking]
    dsimp only
    rw [nothing]
    exact entered
  show State.claimClaim (((s.atTime t).heardAt f.start).mapClaim f) f = a
  rw [map]
  unfold State.claimClaim
  have other : (s.claim.terminal == some (byteAt f.payload 1)) = false := by simpa using unclaimed
  simp [claim, other]

/-- Settles O27: the DENY tells the map alone. -/
theorem denyTeachesTheHolding : Obligations.DenyTeachesTheHolding := by
  intro s t f r calm H hj idle foreign rows ordered reason row b
  refine (learned (c := .denyReceived t f) (t := t) (k := .deny)
    (test := denyReplaces f.sender.toNat .held) (b := b) rfl rfl calm H hj rfl (by decide) idle rows ordered row rfl
    fun a entered claim cfg => ?_).imp fun u ⟨q, ran, hq, room, others, deny, claim, store, seq⟩ =>
      ⟨q, ran, hq, by simpa [denyReplaces] using room, others, claim, store, seq⟩
  have map : ((s.atTime t).heardAt f.start).mapDeny f = a := by
    have booking : heardBooking f.sender.toNat .held f.cls.toNat (f.start / 1000 : Nat)
        (tillOf (f.start / 1000 : Nat) (wordAt f.payload 4)) (f.start / 1000) = b := by
      simp [heardBooking, tillOf, b]
    unfold State.mapDeny
    rw [reason]
    show State.mapDenied _ f .held = a
    unfold State.mapDenied
    dsimp only
    rw [booking]
    exact entered
  show State.claimDeny (((s.atTime t).heardAt f.start).mapDeny f) f = a
  rw [map]
  unfold State.claimDeny
  rcases foreign with other | ⟨ended, unwatched⟩
  · simp [cfg, other]
  · simp [claim, ended, unwatched]

end Sys2Proof.Machine

/-! SUPPORT and PROOF. Timed commands: O34 (join timers), O35 (NOTICE), O36 (the map's times), O48 (the trip window). -/

namespace Sys2Proof.Machine

/-! ## The trip window (R149) -/

/-- Settles O48: with nothing left to clear the window's end changes nothing that the clause names. -/
theorem tripWindowClearsTheCount : Obligations.TripWindowClearsTheCount := by
  intro s t v l hh ladder last passed
  by_cases clear : l.count = 0 ∧ s.link.tripped = false
  · have idle : (s.atTime t).tripWindowDue = false := by
      simp [State.tripWindowDue, State.atTime, ladder, clear]
    have same : ({ l with count := 0 } : Ladder) = l := by rw [← clear.1]
    refine ⟨_, exec_quiet (t := t) (u := s.atTime t) rfl ?_ hh, ?_, rfl, rfl, rfl, rfl, rfl⟩
    · show (if (s.atTime t).tripWindowDue then _ else _) = _
      rw [idle]
      rfl
    · rw [same, ← ladder, ← clear.2]
      rfl
  · have due : (s.atTime t).tripWindowDue = true := by
      simp only [State.tripWindowDue, State.atTime, ladder, Option.any_some, last, Option.map_some, State.reached,
        Bool.and_eq_true, decide_eq_true_eq]
      refine ⟨?_, passed⟩
      cases h : s.link.tripped <;> simp_all
    have rule : ruleOf (.tripWindowExpiry t) (s.atTime t) = (s.atTime t).endTripWindow := if_pos due
    have ends : (s.atTime t).endTripWindow =
        (let cleared : State := { s.atTime t with
          link := { (s.atTime t).link with ladder := some { l with count := 0 }, tripped := false } }
         if s.link.tripped then cleared.noticeChange else cleared) := by
      unfold State.endTripWindow
      rw [show (s.atTime t).link.ladder = some l from ladder]
      rfl
    refine ⟨_, exec_quiet (t := t) rfl (rule.trans ends) ?_, ?_⟩
    · dsimp only
      split
      · simpa using hh
      · exact hh
    · dsimp only
      split
      · simp
      · simp

/-! ## NOTICE (R67, R68) -/

/-- Settles O35: a placement is told to the power share unit, which waits for nothing. -/
theorem noticeIsPlacedOnTime : Obligations.NoticeIsPlacedOnTime := by
  intro s t v calm idle hj timer
  have sends : (s.atTime t).pres.join.sendsNotice = true := by
    rcases hj with e | e | e <;> simp [State.atTime, e, JoinState.sendsNotice]
  refine ⟨(s.atTime t).buildNotice, rfl, rfl, rfl, ?_, rfl, rfl, rfl, fun passed => ?_, fun passed pending => ?_⟩
  · simp [State.buildNotice, Matrix.anyJammed, State.atTime]
  · have due : (s.atTime t).periodDue = true := by
      simp only [State.periodDue, sends, Bool.true_and]
      simpa [State.atTime, timer, State.reached, noticePeriodMs] using passed
    have rule : ruleOf (.noticePeriod t) (s.atTime t) = { (s.atTime t).placeNotice with handed := [.noticePlaced] } := by
      show (if _ then State.emit _ [.noticePlaced] else _) = _
      rw [if_pos due]
      simp [State.emit, State.placeNotice, State.atTime, calm.handed]
    refine exec_of_drainsTo (n := 1) rfl (rule ▸ drainsTo_one ?_ calm.rests calm.handed)
    show State.chooseIfWaiting { (s.atTime t).placeNotice with handed := [] } = _
    have empty : ({ (s.atTime t).placeNotice with handed := [] } : State) = (s.atTime t).placeNotice := by
      rw [← calm.handed]
      rfl
    rw [empty]
    unfold State.chooseIfWaiting
    have : ((s.atTime t).placeNotice.psu.phase == .wait) = false := by simpa [State.placeNotice, State.atTime] using idle
    rw [this]
    rfl
  · have due : (s.atTime t).noticePendingDue = true := by
      simp only [State.noticePendingDue, sends, Bool.true_and]
      simpa [State.atTime, timer, State.reached, noticeGapMs, pending] using passed
    exact exec_quiet (t := t) rfl (if_pos due) calm.handed

/-! ## The join timers (R64, R65, R72) -/

theorem State.Unarmed.rests {s : State} (h : s.Unarmed) : s.seq.Rests := by
  rw [h.seq]
  exact ⟨rfl, rfl, by decide, rfl⟩

theorem State.Unarmed.calm {s : State} (h : s.Unarmed) : s.Calm :=
  ⟨h.handed, h.rests.ending, h.rests.release, h.rests.await, h.rests.search⟩

/-- R66: with the join state neither being left from JOINED nor DISABLED entered the slots hand nothing out. -/
theorem State.changeJoin_plain {s : State} {new : JoinState} {cause : JoinCause} (hh : s.handed = [])
    (hj : s.pres.join ≠ .joined) (hn : new ≠ .disabled) : s.changeJoin new cause = { s.entered new with
      handed := [.joinNotice s.pres.join new, .joinTail s.pres.join new cause] } := by
  rw [State.changeJoin_eq]
  simp [hh, hj, Bus.onJoin, hn]

/-- R169: JOINED is noted, and a re-evaluation asked for. -/
theorem State.takeJoin_joined {s : State} (hp : s.psu.phase ≠ .wait) (hc : s.claim.phase ≠ .waitJoin)
    (hj : s.pres.join ≠ .disabled) :
    s.takeJoin .joined = State.emit { s with seq := { s.seq with joinedOnce := true } } [.reevaluate false false] := by
  simp [State.takeJoin, State.claimJoin, State.powerJoin, State.chooseIfWaiting, hc, hp, State.seqJoin,
    State.matrixJoin, State.linkJoin, State.discardDisabled, State.emit, hj]

/-- Settles O34: each change hands out its notice and, after it, its record. -/
theorem joinTimersMoveTheStation : Obligations.JoinTimersMoveTheStation := by
  intro s t
  refine ⟨fun v unarmed hj timer passed => ?_, fun v unarmed hj timer passed unset => ?_,
    fun v calm claimed asked placed waits hj timer passed => ?_⟩
  · have due : (s.atTime t).listeningDue = true := by
      simp [State.listeningDue, State.reached, State.atTime, hj, timer, passed]
    let b := ((s.atTime t).entered .learning).tidy.joinTail .listening .learning .timer
    obtain ⟨work, tidied⟩ : ∃ work, ((s.atTime t).entered .learning).tidy
        = { (s.atTime t).entered .learning with mat := { s.mat with openWork := work } } := ⟨_, State.tidy_eq _⟩
    have empty : b.handed = [] := by
      simpa [b, State.joinTail, tidied] using (show ((s.atTime t).entered .learning).handed = [] from unarmed.handed)
    have none : ({ b with handed := [] } : State) = b := by rw [← empty]
    have d := State.drainsTo_learning (s := s.atTime t) (cause := .timer) (rest := []) (n := 0) (u := b) unarmed.handed
      unarmed.rests (by simp [State.atTime, hj]) (by simp [State.atTime, unarmed.power])
      (by
        rw [show (s.atTime t).pres.join = .listening from hj]
        show State.DrainsTo { b with handed := [] } b 0
        rw [none]
        exact State.drainsTo_self empty)
    rw [State.emit_nil] at d
    have rule : ruleOf (.listeningTimerExpiry t) (s.atTime t) = (s.atTime t).changeJoin .learning .timer := if_pos due
    refine ⟨b, ((s.atTime t).entered .learning).tidy.recordOf (.join .learning .listening .timer),
      exec_of_drainsTo (n := 2) rfl (rule ▸ d), ?_⟩
    simp only [b, State.joinTail, tidied]
    simp [State.entered, Presence.enter, hj, learningMs, silenceMs]
  · have due : (s.atTime t).learningDue = true := by
      simp [State.learningDue, State.reached, State.atTime, hj, timer, passed]
    have rule : ruleOf (.learningTimerExpiry t) (s.atTime t) = (s.atTime t).changeJoin .joined .timer := if_pos due
    have plain := State.changeJoin_plain (s := s.atTime t) (new := .joined) (cause := .timer) unarmed.handed
      (by simp [State.atTime, hj]) (by decide)
    rw [show (s.atTime t).pres.join = .learning from hj] at plain
    have psu : ((s.atTime t).entered .joined).psu = s.psu := by simp [State.entered, State.atTime, hj]
    let noted : State :=
      { (s.atTime t).entered .joined with seq := { s.seq with joinedOnce := true } }
    have seq : noted.seq = { Sequencer.reset with joinedOnce := true } := by rw [← unarmed.seq]
    have rests : noted.seq.Rests := by rw [seq]; exact ⟨rfl, rfl, by decide, rfl⟩
    have handed : noted.handed = [] := unarmed.handed
    have content : noted.Content := by
      refine ⟨⟨handed, rests.ending, rests.release, rests.await, rests.search⟩, fun _ => .inr unset, ?_, ?_, ?_⟩ <;>
        simp [seq, Sequencer.reset]
    have first : ({ (s.atTime t).entered .joined with handed := [] } : State) = (s.atTime t).entered .joined := by
      rw [← unarmed.handed]
      rfl
    have second : ({ noted with handed := [] } : State) = noted := by rw [← handed]
    refine ⟨noted.joinTail .learning .joined .timer, noted.recordOf (.join .joined .learning .timer),
      exec_of_drainsTo (n := 4) rfl ?_, ?_⟩
    · rw [rule, plain]
      refine State.DrainsTo.takeRests (a := State.emit noted [.reevaluate false false]) rfl ?_ rests ?_
      · show State.takeJoin { (s.atTime t).entered .joined with handed := [] } .joined = _
        rw [first]
        exact State.takeJoin_joined (by rw [psu, unarmed.power]; decide)
          (by show s.claim.phase ≠ _; rw [unarmed.claim]; decide) (by simp [State.entered, Presence.enter])
      · refine State.DrainsTo.content (m := .reevaluate false false) (rest := [.joinTail .learning .joined .timer])
          ?_ (.inl ⟨false, rfl⟩) ?_ ?_
        · simp [State.emit, handed]
        · exact second.symm ▸ content
        · exact drainsTo_joinTail (a := noted) handed rests
    · simp [State.joinTail, noted, psu]
      simp [State.entered, Presence.enter, silenceMs, hj]
  · have due : (s.atTime t).silenceDue = true := by
      have here : (s.pres.join == .learning || s.pres.join == .joined) = true := by simpa using hj
      simp [State.silenceDue, State.reached, State.atTime, here, timer, passed]
    have rule : ruleOf (.silenceDeadline t) (s.atTime t) = (s.atTime t).changeJoin .isolated .silence := if_pos due
    obtain ⟨few, known⟩ := (s.atTime t).bus.onJoin_notices (s.atTime t).pres.join .isolated
    have d := State.drainsTo_isolated (s := s.atTime t) (cause := .silence) calm.handed calm.rests claimed asked placed
      waits few known
    refine ⟨((s.atTime t).entered .isolated).joinTail s.pres.join .isolated .silence,
      ((s.atTime t).entered .isolated).recordOf (.join .isolated s.pres.join .silence),
      exec_of_drainsTo (n := 4) rfl ?_, ?_⟩
    · rw [rule, State.changeJoin_eq, show (s.atTime t).handed = [] from calm.handed, List.nil_append]
      exact d
    · simp [State.joinTail, State.entered, Presence.enter, Alert.onJoin]
      rfl

/-! ## The map's times (R80, R87, R88) -/

/-- A change of the rows that moves no own booking hands nothing out. -/
theorem State.withMap_of_own {s : State} {m : List TermRow} (held : ownHeld m = ownHeld s.map)
    (booked : ownBooked m = ownBooked s.map) : s.withMap m = { s with map := m } := by
  unfold State.withMap
  simp [held, booked, State.emit]

/-- The own bookings of rows changed one by one. -/
theorem ownIn_map {m : List TermRow} {st : BookState} {f : TermRow → TermRow} (hn : ∀ r, (f r).number = r.number)
    (hf : ∀ r, (f r).slots.find? (isOwn st) = r.slots.find? (isOwn st)) : ownIn (m.map f) st = ownIn m st := by
  unfold ownIn
  rw [List.map_map]
  congr 1
  refine List.map_congr_left fun r _ => ?_
  have kept := hf r
  unfold isOwn at kept
  simp only [Function.comp_apply, kept, hn r]

/-- R87: what a silent booking is. -/
theorem Booking.silent_eq (b : Booking) (n : Nat) : b.silent n
    = (decide (b.source = .heard) && decide (b.state = .held ∨ b.state = .booked) && decide (b.owner ≠ 0)
      && b.heard.any fun h => decide (h + 7 ≤ n)) := by
  unfold Booking.silent
  rcases b.heard with _ | h
  · simp
  · simp only [agingSeconds, Option.any_some]
    congr 1
    cases b.source <;> cases b.state <;> simp [bne, BEq.beq]

/-- R88: what an ended booking is. -/
theorem Booking.ended_eq (b : Booking) (n : Nat) : b.ended n
    = (decide (b.source = .heard) && decide (b.state = .booked) && b.till.any fun u => decide (u ≤ (n : Int))) := by
  unfold Booking.ended
  rcases b.till with _ | u <;> simp [Bool.beq_eq_decide_eq]

/-- R87: aging moves no own booking. -/
theorem TermRow.age_find? (r : TermRow) (n : Nat) (st : BookState) :
    (r.age n).slots.find? (isOwn st) = r.slots.find? (isOwn st) := by
  have stays (b : Booking) (own : isOwn st b = true) : b.silent n = false := by
    have source : b.source = .own := by
      simp [isOwn] at own
      exact own.1
    simp [Booking.silent, source]
  show List.find? _ (List.map _ (List.filter _ r.slots)) = _
  induction r.slots with
  | nil => rfl
  | cons b l ih =>
    by_cases own : isOwn st b = true
    · simp [stays b own, own]
    · have aged : isOwn st (if b.silent n then { b with state := .stale, till := none } else b) = false := by
        split
        · rename_i silent
          have source : b.source = .heard := by
            simp [Booking.silent] at silent
            exact silent.1.1.1
          simp [isOwn, source]
        · simpa using own
      rw [List.filter_cons]
      split
      · rw [List.map_cons, List.find?_cons, aged, List.find?_cons, show isOwn st b = false by simpa using own]
        exact ih
      · rw [List.find?_cons, show isOwn st b = false by simpa using own]
        exact ih

/-- R80: a mark ends when its time has come. -/
theorem mapUnmark_eq (m : List TermRow) (n : Nat) :
    mapUnmark m n = m.map fun r => { r with suspect := r.suspect.filter fun u => decide (n < u) } := by
  unfold mapUnmark
  refine List.map_congr_left fun r _ => ?_
  obtain ⟨number, load, low, high, rating, dedicated, suspect, occRun, freeRun, slots⟩ := r
  rcases suspect with _ | u
  · rfl
  · by_cases h : u ≤ n
    · simp [h, Option.filter, Nat.not_lt.mpr h]
    · simp [h, Option.filter, Nat.lt_of_not_le h]

theorem isOwnTerminal_mapUnmark (m : List TermRow) (n t : Nat) : isOwnTerminal (mapUnmark m n) t = isOwnTerminal m t := by
  have own (st : BookState) : ownIn (mapUnmark m n) st = ownIn m st := by
    rw [mapUnmark_eq]
    exact ownIn_map (fun _ => rfl) fun _ => rfl
  simp [isOwnTerminal, ownHeld, ownBooked, own]

/-- The own terminals whose suspect mark ends at a local second, one for each row. -/
def endedMarks (m : List TermRow) (n : Nat) : List Nat :=
  ((m.filter fun r => r.suspect.any fun u => decide (u ≤ n)).map (·.number)).filter (isOwnTerminal m)

theorem mem_endedMarks {m : List TermRow} {n x : Nat} : x ∈ endedMarks m n
    ↔ (isOwnTerminal m x && m.any fun r => decide (r.number = x) && r.suspect.any fun u => decide (u ≤ n)) = true := by
  simp only [endedMarks, List.mem_filter, List.mem_map, Bool.and_eq_true, List.any_eq_true, decide_eq_true_eq]
  constructor
  · rintro ⟨⟨r, ⟨hr, ends⟩, number⟩, own⟩
    exact ⟨own, r, hr, number, ends⟩
  · rintro ⟨own, r, hr, number, ends⟩
    exact ⟨⟨r, ⟨hr, ends⟩, number⟩, own⟩

theorem endedMarks_length (m : List TermRow) (n : Nat) : (endedMarks m n).length ≤ m.length :=
  (List.length_filter_le _ _).trans ((List.length_map _).trans_le (List.length_filter_le _ _))

/-- R80: the marks that end leave the rows, and a notice of each goes out. -/
theorem State.endMarks_eq {s : State} (hh : s.handed = []) : s.endMarks = { s with
    map := s.map.map fun r => { r with suspect := r.suspect.filter fun u => decide (s.localSecond < u) }
    handed := (endedMarks s.map s.localSecond).map fun t => .suspect t false } := by
  unfold State.endMarks State.emit endedMarks
  dsimp only
  rw [← mapUnmark_eq, show isOwnTerminal (mapUnmark s.map s.localSecond) = isOwnTerminal s.map from
    funext fun t => isOwnTerminal_mapUnmark s.map s.localSecond t]
  simp only [hh, List.nil_append]
  congr 4
  refine List.filter_congr fun r _ => ?_
  cases r.suspect <;> rfl

/-- R175: the caps of a context whose terminal is suspect no longer. -/
def Ctx.raised (c : Ctx) : Ctx := { c with cap := 100, taken := c.taken.map fun k => { k with suspect := false } }

/-- R175: the caps of a context once the marks of some terminals have ended. -/
def Ctx.uncapped (c : Ctx) (ms : List Nat) : Ctx := if c.terminal.any fun x => decide (x ∈ ms) then c.raised else c

/-- R165: an admission once the marks of some terminals have ended. -/
def Power.uncapped (p : Power) (ms : List Nat) : Power :=
  if (p.request.map (·.terminal)).any fun x => decide (x ∈ ms) then { p with suspectCap := none } else p

/-- R165, R175: what the ends of marks leave of an admission and of the contexts. -/
def State.uncapped (s : State) (ms : List Nat) : State :=
  { s with
    psu := s.psu.uncapped ms
    seq := { s.seq with cur := s.seq.cur.uncapped ms, nxt := s.seq.nxt.uncapped ms } }

theorem any_mem_cons (o : Option Nat) (t : Nat) (ms : List Nat) :
    (o.any fun x => decide (x ∈ t :: ms)) = ((o.any fun x => decide (x ∈ [t])) || o.any fun x => decide (x ∈ ms)) := by
  cases o <;> simp

theorem Ctx.raised_terminal (c : Ctx) : c.raised.terminal = c.terminal := by
  unfold Ctx.raised Ctx.terminal
  cases c.taken <;> rfl

theorem Ctx.raised_raised (c : Ctx) : c.raised.raised = c.raised := by
  simp [Ctx.raised, Function.comp_def]

theorem Ctx.uncapped_nil (c : Ctx) : c.uncapped [] = c := by
  unfold Ctx.uncapped
  cases c.terminal <;> simp

theorem Ctx.uncapped_cons (c : Ctx) (t : Nat) (ms : List Nat) : (c.uncapped [t]).uncapped ms = c.uncapped (t :: ms) := by
  unfold Ctx.uncapped
  rw [any_mem_cons _ t ms]
  generalize (c.terminal.any fun x => decide (x ∈ [t])) = head
  cases head
  · simp only [Bool.false_or, Bool.false_eq_true, if_false]
  · simp only [Bool.true_or, if_true, Ctx.raised_terminal, Ctx.raised_raised, ite_self]

theorem Power.uncapped_cons (p : Power) (t : Nat) (ms : List Nat) :
    (p.uncapped [t]).uncapped ms = p.uncapped (t :: ms) := by
  unfold Power.uncapped
  rw [any_mem_cons _ t ms]
  generalize ((p.request.map (·.terminal)).any fun x => decide (x ∈ [t])) = head
  cases head
  · simp only [Bool.false_or, Bool.false_eq_true, if_false]
  · simp only [Bool.true_or, if_true, ite_self]

theorem State.uncapped_nil (s : State) : s.uncapped [] = s := by
  have psu : s.psu.uncapped [] = s.psu := by
    unfold Power.uncapped
    cases s.psu.request <;> simp
  unfold State.uncapped
  rw [psu, Ctx.uncapped_nil, Ctx.uncapped_nil]

theorem State.uncapped_cons (s : State) (t : Nat) (ms : List Nat) :
    (s.uncapped [t]).uncapped ms = s.uncapped (t :: ms) := by
  unfold State.uncapped
  simp only [Ctx.uncapped_cons, Power.uncapped_cons]

theorem Power.uncapped_phase (p : Power) (ms : List Nat) : (p.uncapped ms).phase = p.phase := by
  unfold Power.uncapped
  split <;> rfl

theorem Ctx.uncapped_release (c : Ctx) (ms : List Nat) : (c.uncapped ms).release = c.release := by
  unfold Ctx.uncapped
  split <;> rfl

theorem Ctx.uncapped_state (c : Ctx) (ms : List Nat) : (c.uncapped ms).state = c.state := by
  unfold Ctx.uncapped
  split <;> rfl

theorem Ctx.uncapped_deferred (c : Ctx) (ms : List Nat) : (c.uncapped ms).deferred = c.deferred := by
  unfold Ctx.uncapped
  split <;> rfl

/-- No admitted step is above what the caps but the suspect one allow. -/
def Power.WithinCaps (p : Power) : Prop := ∀ a, p.admitted = some a → a ≤ min p.requestCap (min p.tripCap 100)

theorem Power.WithinCaps.uncapped {p : Power} (h : p.WithinCaps) (ms : List Nat) : (p.uncapped ms).WithinCaps := by
  unfold Power.uncapped
  split
  · exact h
  · exact h

theorem Sequencer.Rests.uncapped {s : State} (h : s.seq.Rests) (ms : List Nat) : (s.uncapped ms).seq.Rests :=
  ⟨h.ending, (Ctx.uncapped_release _ _).trans h.release, by
    show (s.seq.cur.uncapped ms).state ≠ _
    rw [Ctx.uncapped_state]
    exact h.await, (Ctx.uncapped_deferred _ _).trans h.search⟩

theorem Ctx.capAt_ended (c : Ctx) (t : Nat) : c.capAt (some t) false = c.uncapped [t] := by
  unfold Ctx.capAt Ctx.uncapped Ctx.terminal
  rcases e : c.taken with _ | k
  · simp
  · by_cases h : k.terminal = t
    · simp [h, Ctx.raised, capOf, e]
    · simp [h]

/-- R80, R165: the notice that a mark has ended raises the caps, with nothing waiting on them. -/
theorem State.takeSuspect_ended {s : State} (hp : s.psu.phase ≠ .wait) (caps : s.psu.WithinCaps) (t : Nat) :
    s.takeSuspect t false = s.uncapped [t] := by
  have link (a : State) : a.linkSuspect t false = a := by
    unfold State.linkSuspect
    cases a.link.ramp <;> simp
  have power : s.powerSuspect t false = { s with psu := s.psu.uncapped [t] } := by
    have stays : State.lowerTo { s with psu := { s.psu with suspectCap := none } } 100
        = { s with psu := { s.psu with suspectCap := none } } := by
      unfold State.lowerTo
      rcases a : s.psu.admitted with _ | k
      · simp
      · have : ¬ (min 100 (min s.psu.requestCap (min s.psu.tripCap 100)) < k) := by
          have := caps k a
          omega
        have goal : min 100 ({ s.psu with suspectCap := none } : Power).effectiveCap
            = min 100 (min s.psu.requestCap (min s.psu.tripCap 100)) := rfl
        dsimp only
        rw [goal, if_neg this]
    have idle : (s.psu.phase == .wait) = false := by simpa using hp
    have asked : ((s.psu.request.map (·.terminal)).any fun x => decide (x ∈ [t]))
        = ((s.psu.request.map (·.terminal)) == some t) := by
      rcases s.psu.request with _ | r <;> simp [Bool.beq_eq_decide_eq]
    unfold State.powerSuspect Power.uncapped
    rw [asked]
    split
    · dsimp only
      rw [if_neg (by decide), stays]
      unfold State.chooseIfWaiting
      dsimp only
      rw [idle]
      rfl
    · rfl
  unfold State.takeSuspect
  rw [power, link]
  unfold State.seqSuspect
  simp only [Ctx.capAt_ended]
  rfl

/-- A state with nothing handed out is where it drains to. -/
theorem State.drainsTo_none {s : State} (hh : s.handed = []) : State.DrainsTo { s with handed := [] } s 0 := by
  have : ({ s with handed := [] } : State) = s := by rw [← hh]
  rw [this]
  exact State.drainsTo_self hh

/-- R80, R165, R175: the notices of ended marks taken one after the other. -/
theorem State.drainsTo_uncapped {s : State} (ms : List Nat) (hh : s.handed = []) (hr : s.seq.Rests)
    (hp : s.psu.phase ≠ .wait) (caps : s.psu.WithinCaps) :
    State.DrainsTo { s with handed := ms.map fun t => .suspect t false } (s.uncapped ms) ms.length := by
  induction ms generalizing s with
  | nil =>
    rw [State.uncapped_nil]
    exact State.drainsTo_none hh
  | cons t ms ih =>
    have empty : ({ s with handed := [] } : State) = s := by rw [← hh]
    refine State.DrainsTo.takeRests (a := s.uncapped [t]) (m := .suspect t false)
      (rest := ms.map fun t => .suspect t false) rfl ?_ (hr.uncapped [t]) ?_
    · show State.takeSuspect { s with handed := [] } t false = _
      rw [empty]
      exact State.takeSuspect_ended hp caps t
    · rw [← State.uncapped_cons s t ms, show (s.uncapped [t]).handed = [] from hh, List.nil_append]
      exact ih (s := s.uncapped [t]) hh (hr.uncapped [t]) ((Power.uncapped_phase _ _).symm ▸ hp) (caps.uncapped [t])

/-- Settles O36. -/
theorem mapTimesRunOut : Obligations.MapTimesRunOut := by
  intro s t hh hj n silent
  have lives : (s.atTime t).mapLives = true := by simpa [State.mapLives, State.atTime] using hj
  have marked : ruleOf (.suspectExpiry t) (s.atTime t) = { s.atTime t with
      map := s.map.map fun r => { r with suspect := r.suspect.filter fun u => decide (n < u) }
      handed := (endedMarks s.map n).map fun t => .suspect t false } :=
    (if_pos lives).trans (State.endMarks_eq (s := s.atTime t) hh)
  refine ⟨?_, ?_, fun unarmed request few => ?_, fun none => ?_, fun calm few waits caps => ?_⟩
  · refine exec_quiet (t := t) rfl ?_ hh
    have own (st : BookState) : ownIn (s.map.map (·.age n)) st = ownIn s.map st :=
      ownIn_map (fun _ => rfl) fun r => r.age_find? n st
    refine (if_pos lives).trans ((State.withMap_of_own (s := s.atTime t) (own .held) (own .booked)).trans ?_)
    show ({ s.atTime t with map := s.map.map (·.age n) } : State) = _
    simp only [TermRow.age, Booking.silent_eq, silent, Bool.beq_eq_decide_eq]
  · refine exec_quiet (t := t) rfl ?_ hh
    have own (st : BookState) : ownIn (s.map.map fun r => r.drop fun b => b.ended n) st = ownIn s.map st := by
      refine ownIn_map (fun _ => rfl) fun r => find?_filter_of_kept (fun b own => ?_) r.slots
      have source : b.source = .own := by
        simp [isOwn] at own
        exact own.1
      simp [Booking.ended, source]
    refine (if_pos lives).trans ((State.withMap_of_own (s := s.atTime t) (own .held) (own .booked)).trans ?_)
    show ({ s.atTime t with map := s.map.map fun r => r.drop fun b => b.ended n } : State) = _
    simp only [TermRow.drop, Booking.ended_eq]
  · let unmarked : State := { s.atTime t with
      map := s.map.map fun r => { r with suspect := r.suspect.filter fun u => decide (n < u) } }
    have still : ∀ m ∈ (endedMarks s.map n).map fun t => Handed.suspect t false,
        Still { unmarked with handed := (endedMarks s.map n).map fun t => .suspect t false } m := by
      intro m hm
      obtain ⟨x, -, rfl⟩ := List.mem_map.mp hm
      exact Still.suspectEnd
        (s := { unmarked with handed := (endedMarks s.map n).map fun t => .suspect t false }) unarmed.seq request x
    have d : State.DrainsTo { unmarked with handed := (endedMarks s.map n).map fun t => .suspect t false } unmarked _ :=
      State.DrainsTo.stills (List.append_nil _).symm still (State.drainsTo_none (s := unmarked) hh)
    have short := endedMarks_length s.map n
    refine exec_of_drainsTo (n := 40) rfl (marked ▸ fun k hk => d k ?_)
    rw [List.length_map]
    omega
  · have empty : endedMarks s.map n = [] := by
      rw [List.eq_nil_iff_forall_not_mem]
      intro x hx
      obtain ⟨own, r, hr, number, ends⟩ : isOwnTerminal s.map x = true ∧ ∃ r ∈ s.map, r.number = x
          ∧ (r.suspect.any fun u => decide (u ≤ n)) = true := by
        simpa using mem_endedMarks.mp hx
      exact Bool.false_ne_true ((number ▸ none r hr).symm.trans (mem_endedMarks.mp hx))
    refine exec_quiet (t := t) rfl (marked.trans ?_) hh
    rw [empty, List.map_nil, ← hh]
    rfl
  · let unmarked : State := { s.atTime t with
      map := s.map.map fun r => { r with suspect := r.suspect.filter fun u => decide (n < u) } }
    have d := State.drainsTo_uncapped (s := unmarked) (endedMarks s.map n) hh calm.rests waits caps
    refine (exec_of_drainsTo rfl (marked ▸ d) ?_).trans ?_
    · have := endedMarks_length s.map n
      omega
    · have ends : (fun x => decide (x ∈ endedMarks s.map n)) = fun x => isOwnTerminal s.map x
          && s.map.any fun r => decide (r.number = x) && r.suspect.any fun u => decide (u ≤ n) := by
        funext x
        rw [Bool.eq_iff_iff, decide_eq_true_iff, mem_endedMarks]
      unfold State.uncapped Power.uncapped Ctx.uncapped
      rw [ends]
      rfl

end Sys2Proof.Machine

/-! PROOF. O55 and O56: the calendar (R34, R35) and the activity test (R4, R36). -/

namespace Sys2Proof.Machine

/-! ## Years -/

/-- R34: the days before the first day of a year. -/
def yearStart (year : Nat) : Nat := 365 * (year - 2000) + (year - 2000 + 3) / 4

/-- R35: the length of a year. -/
def yearLength (year : Nat) : Nat := if isLeap year then 366 else 365

theorem yearStart_succ {y : Nat} (h : 2000 ≤ y) : yearStart (y + 1) = yearStart y + yearLength y := by
  unfold yearStart yearLength isLeap
  by_cases leap : y % 4 = 0
  · simp only [leap, beq_self_eq_true, if_true]
    omega
  · simp only [beq_iff_eq, leap, if_false]
    omega

theorem yearAndRest_succ (fuel y d : Nat) : yearAndRest (fuel + 1) y d
    = if yearLength y ≤ d then yearAndRest fuel (y + 1) (d - yearLength y) else (y, d) := rfl

/-- R35 step 2: the year found, and the rest that lies in it. -/
theorem yearAndRest_spec {fuel y d : Nat} (hy : 2000 ≤ y) (hd : yearStart y + d < yearStart (y + fuel)) :
    y ≤ (yearAndRest fuel y d).1 ∧ (yearAndRest fuel y d).1 < y + fuel
      ∧ yearStart (yearAndRest fuel y d).1 + (yearAndRest fuel y d).2 = yearStart y + d
      ∧ (yearAndRest fuel y d).2 < yearLength (yearAndRest fuel y d).1 := by
  induction fuel generalizing y d with
  | zero => simp at hd
  | succ fuel ih =>
    rw [yearAndRest_succ]
    have next := yearStart_succ hy
    split
    · rename_i long
      have reach : y + 1 + fuel = y + (fuel + 1) := by omega
      obtain ⟨low, high, same, rest⟩ := ih (y := y + 1) (d := d - yearLength y) (by omega) (by rw [reach]; omega)
      exact ⟨by omega, by omega, by omega, rest⟩
    · exact ⟨le_rfl, by dsimp only; omega, rfl, Nat.lt_of_not_le (by assumption)⟩

/-- R35 step 2: a day of a year is found in that year. -/
theorem yearAndRest_eq {fuel y year r : Nat} (hy : 2000 ≤ y) (low : y ≤ year) (high : year < y + fuel)
    (hr : r < yearLength year) : yearAndRest fuel y (yearStart year - yearStart y + r) = (year, r) := by
  induction fuel generalizing y with
  | zero => omega
  | succ fuel ih =>
    rw [yearAndRest_succ]
    rcases Nat.eq_or_lt_of_le low with rfl | later
    · rw [Nat.sub_self, Nat.zero_add, if_neg (by omega)]
    · have next := yearStart_succ hy
      have grows : ∀ k, yearStart (y + 1) ≤ yearStart (y + 1 + k) := by
        intro k
        induction k with
        | zero => exact le_rfl
        | succ k ih =>
          have := yearStart_succ (y := y + 1 + k) (by omega)
          rw [← Nat.add_assoc]
          omega
      have after := grows (year - (y + 1))
      rw [show y + 1 + (year - (y + 1)) = year by omega] at after
      rw [if_pos (by omega), show yearStart year - yearStart y + r - yearLength y
        = yearStart year - yearStart (y + 1) + r by omega]
      exact ih (by omega) (by omega) (by omega)

/-! ## Months -/

theorem daysBefore_succ {y m : Nat} (low : 1 ≤ m) (high : m ≤ 11) :
    daysBefore y (m + 1) = daysBefore y m + daysInMonth y m := by
  unfold daysBefore daysInMonth
  cases isLeap y <;> interval_cases m <;> rfl

theorem daysBefore_first (y : Nat) : daysBefore y 1 = 0 := rfl

theorem daysBefore_last (y : Nat) : daysBefore y 12 + daysInMonth y 12 = yearLength y := by
  unfold daysBefore daysInMonth yearLength
  cases isLeap y <;> rfl

theorem daysBefore_mono {y a b : Nat} (low : 1 ≤ a) (hab : a ≤ b) (high : b ≤ 12) : daysBefore y a ≤ daysBefore y b := by
  induction b, hab using Nat.le_induction with
  | base => exact le_rfl
  | succ b hab ih =>
    rw [daysBefore_succ (by omega) (by omega)]
    exact (ih (by omega)).trans (Nat.le_add_right _ _)

/-- R35 step 3: the month found. -/
theorem monthFrom_spec (y d n : Nat) :
    1 ≤ monthFrom y d n ∧ monthFrom y d n ≤ max n 1 ∧ daysBefore y (monthFrom y d n) ≤ d
      ∧ (monthFrom y d n < n → d < daysBefore y (monthFrom y d n + 1)) := by
  induction n with
  | zero => exact ⟨le_rfl, le_rfl, by simp [monthFrom, daysBefore_first], fun h => absurd h (Nat.not_lt_zero _)⟩
  | succ n ih =>
    obtain ⟨low, high, before, after⟩ := ih
    unfold monthFrom
    split
    · exact ⟨by omega, by omega, by assumption, by omega⟩
    · refine ⟨low, by omega, before, fun h => ?_⟩
      rcases Nat.lt_or_ge (monthFrom y d n) n with h | h
      · exact after h
      · rw [show monthFrom y d n = n by omega]
        omega

/-- R35 step 3: a day of a month is found in that month. -/
theorem monthFrom_eq {y m d n : Nat} (low : 1 ≤ m) (mn : m ≤ n) (high : n ≤ 12) (before : daysBefore y m ≤ d)
    (after : m < 12 → d < daysBefore y (m + 1)) : monthFrom y d n = m := by
  induction n with
  | zero => omega
  | succ n ih =>
    unfold monthFrom
    rcases Nat.eq_or_lt_of_le mn with rfl | earlier
    · rw [if_pos before]
    · have := daysBefore_mono (y := y) (a := m + 1) (b := n + 1) (by omega) (by omega) high
      rw [if_neg (by have := after (by omega); omega)]
      exact ih (by omega) (by omega)

/-! ## Dates -/

theorem validDate_iff (y m d : Nat) : validDate y m d = true
    ↔ 2000 ≤ y ∧ y ≤ 2099 ∧ 1 ≤ m ∧ m ≤ 12 ∧ 1 ≤ d ∧ d ≤ daysInMonth y m := by
  simp [validDate, and_assoc]

theorem dateOfInstant_eq {x year rest : Nat} (h : yearAndRest 100 2000 (x / 1440) = (year, rest)) :
    dateOfInstant x =
      { year := year, month := monthFrom year rest 12, day := rest - daysBefore year (monthFrom year rest 12) + 1,
        hour := x % 1440 / 60, minute := x % 1440 - 60 * (x % 1440 / 60) } := by
  unfold dateOfInstant
  rw [h]

/-- Settles O55: the year, then the month, then the day is found. -/
theorem calendarTurnsBothWays : Obligations.CalendarTurnsBothWays := by
  refine ⟨fun y m d minute valid short => ?_, fun x range => ?_⟩
  · obtain ⟨y0, y1, m0, m1, d0, d1⟩ := (validDate_iff y m d).mp valid
    have ends : daysBefore y m + daysInMonth y m ≤ yearLength y := by
      rcases Nat.lt_or_ge m 12 with h | h
      · rw [← daysBefore_succ m0 (by omega), ← daysBefore_last y]
        exact (daysBefore_mono (by omega) (by omega) le_rfl).trans (Nat.le_add_right _ _)
      · rw [show m = 12 by omega]
        exact (daysBefore_last y).le
    have day : instantOf y m d minute / 1440 = yearStart y - yearStart 2000 + (daysBefore y m + (d - 1)) := by
      have : yearStart 2000 = 0 := rfl
      unfold instantOf dayNumber yearStart at *
      omega
    have found := yearAndRest_eq (fuel := 100) (y := 2000) (year := y) (r := daysBefore y m + (d - 1)) le_rfl y0
      (by omega) (by omega)
    have month : monthFrom y (daysBefore y m + (d - 1)) 12 = m :=
      monthFrom_eq m0 m1 le_rfl (Nat.le_add_right _ _) fun h => by rw [daysBefore_succ m0 (by omega)]; omega
    have time : instantOf y m d minute % 1440 = minute := by
      unfold instantOf
      omega
    rw [← day] at found
    rw [dateOfInstant_eq found, month, time]
    congr 1
    · omega
    · omega
  · have inside : yearStart 2000 + x / 1440 < yearStart (2000 + 100) := by
      have last : yearStart (2000 + 100) = 36525 := by norm_num [yearStart]
      have first : yearStart 2000 = 0 := rfl
      omega
    obtain ⟨y0, y1, same, rest⟩ := yearAndRest_spec (fuel := 100) (y := 2000) (d := x / 1440) le_rfl inside
    rcases e : yearAndRest 100 2000 (x / 1440) with ⟨year, day⟩
    rw [e] at y0 y1 same rest
    dsimp only at y0 y1 same rest
    obtain ⟨m0, m1, before, after⟩ := monthFrom_spec year day 12
    have fits : day - daysBefore year (monthFrom year day 12) < daysInMonth year (monthFrom year day 12) := by
      rcases Nat.lt_or_ge (monthFrom year day 12) 12 with h | h
      · have := after h
        rw [daysBefore_succ m0 (by omega)] at this
        omega
      · have last := daysBefore_last year
        have twelve : monthFrom year day 12 = 12 := by omega
        rw [twelve] at before ⊢
        omega
    rw [dateOfInstant_eq e]
    dsimp only
    refine ⟨(validDate_iff _ _ _).mpr ⟨y0, by omega, m0, by omega, by omega, by omega⟩, ?_⟩
    have start : yearStart year + day = x / 1440 := by
      rw [same]
      exact Nat.zero_add _
    unfold instantOf dayNumber
    unfold yearStart at start
    omega

/-! ## Activity (R4, R36) -/

/-- R4: the pieces of one day's interval cover a minute of the week on that day, or past midnight on the next one. -/
theorem dayPieces_cover {start stop i d m : Nat} (hi : i < 7) (hd : d < 7) (hm : m < 1440) (h0 : start < 1440)
    (h1 : stop < 1440) :
    ((dayPieces start stop i).any fun p => decide (p.1 ≤ d * 1440 + m) && decide (d * 1440 + m < p.2)) = true
      ↔ if start < stop then i = d ∧ start ≤ m ∧ m < stop
        else (i = d ∧ start ≤ m) ∨ (i = (d + 6) % 7 ∧ m < stop) := by
  unfold dayPieces
  split
  · simp only [List.any_cons, List.any_nil, Bool.or_false, Bool.and_eq_true, decide_eq_true_eq]
    omega
  · dsimp only
    split
    · simp only [List.any_cons, List.any_nil, Bool.or_false, Bool.and_eq_true, decide_eq_true_eq]
      omega
    · simp only [List.any_cons, List.any_nil, Bool.or_false, Bool.or_eq_true, Bool.and_eq_true, decide_eq_true_eq]
      omega

/-- Settles O56. -/
theorem activityAgreesWithTheWeek : Obligations.ActivityAgreesWithTheWeek := by
  intro e d m hd hm h0 h1
  have covered : ((weekPieces e).any fun p => decide (p.1 ≤ d * 1440 + m) && decide (d * 1440 + m < p.2)) = true
      ↔ ∃ i, i < 7 ∧ onDay e.days i = true ∧ if e.prog.start < e.prog.stop then i = d ∧ e.prog.start ≤ m ∧ m < e.prog.stop
        else (i = d ∧ e.prog.start ≤ m) ∨ (i = (d + 6) % 7 ∧ m < e.prog.stop) := by
    unfold weekPieces
    rw [List.any_flatMap, List.any_eq_true]
    simp only [List.mem_filter, List.mem_range]
    constructor
    · rintro ⟨i, ⟨hi, on⟩, cover⟩
      exact ⟨i, hi, on, (dayPieces_cover hi hd hm h0 h1).mp cover⟩
    · rintro ⟨i, hi, on, cover⟩
      exact ⟨i, ⟨hi, on⟩, (dayPieces_cover hi hd hm h0 h1).mpr cover⟩
  rw [Bool.eq_iff_iff, covered]
  unfold activeAt
  have before : (d + 6) % 7 < 7 := Nat.mod_lt _ (by decide)
  split
  · simp only [Bool.and_eq_true, decide_eq_true_eq]
    constructor
    · rintro ⟨⟨on, low⟩, high⟩
      exact ⟨d, hd, on, rfl, low, high⟩
    · rintro ⟨i, -, on, rfl, low, high⟩
      exact ⟨⟨on, low⟩, high⟩
  · simp only [Bool.or_eq_true, Bool.and_eq_true, decide_eq_true_eq]
    constructor
    · rintro (⟨on, low⟩ | ⟨on, high⟩)
      · exact ⟨d, hd, on, .inl ⟨rfl, low⟩⟩
      · exact ⟨_, before, on, .inr ⟨rfl, high⟩⟩
    · rintro ⟨i, -, on, ⟨rfl, low⟩ | ⟨rfl, high⟩⟩
      · exact .inl ⟨on, low⟩
      · exact .inr ⟨on, high⟩

end Sys2Proof.Machine

/-! SUPPORT. The records of the link (R139, R146), the newest records of the air log (R184), a change of the level handed
on (R165), a ramp from level 0 (R147) and a tune (R144). -/

namespace Sys2Proof.Machine

/-! ## The newest records (R184) -/

/-- R184: a record joins the newest ones. -/
theorem State.writeLog_newer (s : State) (b : LogBody) {n : Nat} (hn : n < 64) :
    (s.writeLog b).log.ring.drop ((s.writeLog b).log.ring.length - (n + 1))
      = s.log.ring.drop (s.log.ring.length - n) ++ [s.recordOf b] := by
  have place : (s.log.ring ++ [s.recordOf b]).length - ringCapacity
        + ((s.log.ring ++ [s.recordOf b]).length - ((s.log.ring ++ [s.recordOf b]).length - ringCapacity) - (n + 1))
      = s.log.ring.length - n := by
    simp only [List.length_append, List.length_singleton, ringCapacity]
    omega
  rw [State.writeLog_ring, List.length_drop, List.drop_drop, place, List.drop_append_of_le_length (Nat.sub_le _ _)]

/-! ## Records issued (R139, R146) -/

/-- R139: the output queue once a record has been issued. -/
def State.issuing (s : State) (r : TxRecord) : List TxOut :=
  if s.mayIssue then s.link.out ++ [{ record := r, ends := s.link.sentAt s.now r }] else s.link.out

theorem State.issue_out (s : State) (r : TxRecord) :
    s.issue r = { s with link := { s.link with out := s.issuing r } } := by
  unfold State.issue State.issuing
  split <;> rfl

theorem State.issuing_records {s : State} (h : s.mayIssue = true) (r : TxRecord) :
    (s.issuing r).map (·.record) = s.link.out.map (·.record) ++ [r] := by
  unfold State.issuing
  rw [if_pos h, List.map_append]
  rfl

/-- R139: what a change of the commanded level hands out. -/
def levelNews (old new : Nat) : List Handed := if old = new then [] else [.levelChanged]

theorem levelNews_length (old new : Nat) : (levelNews old new).length ≤ 1 := by
  unfold levelNews
  split <;> simp

theorem levelNews_self (n : Nat) : levelNews n n = [] := if_pos rfl

/-- R146: the value of a LEVEL record. -/
def State.limited (s : State) (kw : Nat) : Nat := min kw (s.levelLimit ((s.link.ramp.map (·.carrier)).getD kw))

theorem State.issueLevel_out (s : State) (kw : Nat) : s.issueLevel kw = { s with
    link := { s.link with out := s.issuing (.level (s.limited kw)), level := s.limited kw }
    handed := s.handed ++ levelNews s.link.level (s.limited kw) } := by
  unfold State.issueLevel
  dsimp only
  rw [State.issue_out, State.setLevel_eq]
  rfl

/-- R139: LEVEL 0 is 0 whatever the limit. -/
theorem State.limited_zero (s : State) : s.limited 0 = 0 := Nat.zero_min _

theorem State.rfOff_out (s : State) : s.rfOff = { s with
    link := { s.link with out := s.issuing (.rf false), level := 0 }
    handed := s.handed ++ levelNews s.link.level 0 } := by
  unfold State.rfOff
  rw [State.issue_out, State.setLevel_eq]
  rfl

/-- LEVEL 0 and RF off: the output queue after both. -/
def State.cutting (s : State) : List TxOut :=
  State.issuing { s with link := { s.link with out := s.issuing (.level 0), level := 0 } } (.rf false)

theorem State.cutRf_out (s : State) : s.cutRf = { s with
    link := { s.link with out := s.cutting, level := 0 }
    handed := s.handed ++ levelNews s.link.level 0 } := by
  unfold State.cutRf
  rw [State.issueLevel_out, State.limited_zero, State.rfOff_out]
  simp [levelNews_self, State.cutting, State.issuing, State.mayIssue]

theorem State.cutting_records {s : State} (h : s.mayIssue = true) :
    s.cutting.map (·.record) = s.link.out.map (·.record) ++ [.level 0, .rf false] := by
  unfold State.cutting
  rw [State.issuing_records (s := { s with link := { s.link with out := s.issuing (.level 0), level := 0 } }) h,
    State.issuing_records h]
  simp

/-! ## A change of the level handed on (R165) -/

/-- R165: with no lower and no Release that waits for it a change of the level is nothing more to a sequencer at rest. -/
theorem Still.level {s : State} (hl : s.psu.pendingLower = none) (hr : s.psu.releasePending = true → s.link.level ≠ 0)
    (rests : s.seq.Rests) : Still s .levelChanged :=
  ⟨State.powerLevel_of_still (s := { s with handed := [] }) hl hr,
    fun last => Sequencer.Rests.advance (s := { s with handed := [] }) rests last⟩

/-- A change of the level that is nothing to anyone comes before the rest. -/
theorem State.DrainsTo.news {s u : State} {old new : Nat} {rest : List Handed} {n : Nat}
    (hs : s.handed = levelNews old new ++ rest) (hl : Still s .levelChanged)
    (d : State.DrainsTo { s with handed := rest } u n) : s.DrainsTo u (n + 1) := by
  have few := levelNews_length old new
  have all := State.DrainsTo.stills hs (fun m hm => by
    unfold levelNews at hm
    split at hm
    · cases hm
    · rw [List.mem_singleton.mp hm]
      exact hl) d
  exact fun k hk => all k (by omega)

/-- The only hand-out is taken, and leaves what then drains. -/
theorem State.DrainsTo.only {s a u : State} {m : Handed} {n : Nat} (hs : s.handed = [m])
    (hm : State.take { s with handed := [] } m = a) (hr : a.seq.Rests) (d : a.DrainsTo u n) : s.DrainsTo u (n + 1) := by
  refine State.DrainsTo.takeRests hs hm hr ?_
  have e : ({ a with handed := a.handed ++ [] } : State) = a := by simp
  rw [e]
  exact d

/-- A command ends where the state that its rule leaves drains to. -/
theorem exec_drains {c : Instr} {s a u : State} {t n : Nat} (hc : c.time = some t) (hu : ruleOf c (s.atTime t) = a)
    (d : a.DrainsTo u n) (hn : n ≤ 4096 := by decide) : exec c s = .next u :=
  exec_of_drainsTo hc (hu ▸ d) hn

/-! ## A ramp from level 0 (R147) -/

/-- R147: ten rungs to a target from level 0. -/
theorem rungs_zero (target : Nat) : rungs target 0
    = max 1 (target * 1 / 10) :: (List.range 9).map fun i => max 1 (target * (i + 2) / 10) := by
  unfold rungs
  rw [List.filter_eq_self.mpr fun v hv => ?_]
  · rfl
  · obtain ⟨i, -, rfl⟩ := List.mem_map.mp hv
    simp

theorem planFrom_levels (due : Nat) (f : Nat → Nat) : planFrom due rampRungMs (((List.range 9).map f).map .level)
    = (List.range 9).map fun i => { due := due + 1000 * i, act := .level (f i) } := by
  simp [List.range, List.range.loop, planFrom, rampRungMs]

/-- R147: the nine rungs that wait when a ramp from level 0 has begun. -/
def rampPlan (now target : Nat) : List PlanItem :=
  (List.range 9).map fun i => { due := now + 1000 * (i + 1), act := .level (max 1 (target * (i + 2) / 10)) }

/-- R147: the first rung of a ramp. -/
def firstRung (target : Nat) : Nat := max 1 (target * 1 / 10)

/-- R147: the output queue once RF on and the first rung of a ramp have been issued. -/
def State.ramping (s : State) (kw : Nat) : List TxOut :=
  State.issuing { s with link := { s.link with out := s.issuing (.rf true) } } (.level kw)

theorem State.ramping_records {s : State} (h : s.mayIssue = true) (kw : Nat) :
    (s.ramping kw).map (·.record) = s.link.out.map (·.record) ++ [.rf true, .level kw] := by
  unfold State.ramping
  rw [State.issuing_records (s := { s with link := { s.link with out := s.issuing (.rf true) } }) h,
    State.issuing_records h]
  simp

/-- R147 step 2: a first rung is commanded, with others to follow. -/
theorem State.endRamp_first (s : State) (v : Nat) {plan : List PlanItem} (hp : plan.isEmpty = false) :
    State.endRamp { s.issueLevel v with link := { (s.issueLevel v).link with op := .rampUp, plan := plan } }
      = { s with
        link := { s.link with
          out := s.issuing (.level (s.limited v)), level := s.limited v, op := .rampUp, plan := plan }
        handed := s.handed ++ levelNews s.link.level (s.limited v) } := by
  rw [State.issueLevel_out]
  unfold State.endRamp
  simp [hp]

/-- R147: the link once a ramp from level 0 has begun. -/
def State.rampLink (s : State) (p : RampParams) (recycle : Bool) : Link :=
  let kw := min (firstRung p.target) (s.levelLimit p.carrier)
  { s.link with
    ramp := some p, recycleAt := none, recycling := recycle, out := s.ramping kw, level := kw, op := .rampUp
    plan := rampPlan s.now p.target }

/-- R147: a ramp from level 0 begins. -/
theorem State.startRamp_zero {s : State} (h : s.link.level = 0) (p : RampParams) (recycle : Bool) :
    s.startRamp p recycle = { s with
      link := s.rampLink p recycle, handed := s.handed ++ levelNews 0 (s.rampLink p recycle).level } := by
  let begun : State :=
    { s with link := { s.link with ramp := some p, recycleAt := none, recycling := recycle, plan := [] } }
  have plan : planFrom (s.now + rampRungMs) rampRungMs
      (((List.range 9).map fun i => max 1 (p.target * (i + 2) / 10)).map .level) = rampPlan s.now p.target := by
    rw [planFrom_levels]
    unfold rampPlan
    refine List.map_congr_left fun i _ => ?_
    rw [show s.now + rampRungMs + 1000 * i = s.now + 1000 * (i + 1) by unfold rampRungMs; omega]
  have started : s.startRamp p recycle = State.endRamp { (begun.issue (.rf true)).issueLevel (firstRung p.target) with
      link := { ((begun.issue (.rf true)).issueLevel (firstRung p.target)).link with
        op := .rampUp, plan := rampPlan s.now p.target } } := by
    unfold State.startRamp
    rw [h, rungs_zero, ← plan]
    rfl
  rw [started, State.endRamp_first _ _ rfl, State.issue_out]
  simp only [begun, h]
  rfl

/-- R147, R165: a ramp from level 0 is nothing more to a sequencer at rest. -/
theorem State.drainsTo_startRamp {s : State} (level : s.link.level = 0) (lower : s.psu.pendingLower = none)
    (carry : s.psu.releasePending = false) (rests : s.seq.Rests) (hh : s.handed = []) (p : RampParams) (recycle : Bool) :
    (s.startRamp p recycle).DrainsTo { s with link := s.rampLink p recycle } 1 := by
  rw [State.startRamp_zero level]
  refine State.DrainsTo.news (old := 0) (new := (s.rampLink p recycle).level) (rest := []) ?_
    (Still.level lower (fun hc => absurd (hc.symm.trans carry) (by decide)) rests) ?_
  · rw [hh]
    simp
  · rw [← hh]
    exact State.drainsTo_self hh

/-! ## A tune (R142, R144) -/

/-- R68: a change notice moves the presence unit and the bus alone. -/
theorem State.noticeChange_shape (s : State) :
    s.noticeChange = { s with pres := s.noticeChange.pres, bus := s.noticeChange.bus } := by
  rcases s.noticeChange_cases with e | e | e <;> rw [e]
  rfl

/-- R157: the announced demand moves, and the NOTICE that tells of it. -/
theorem State.announce_shape (s : State) : s.announce = { s with
    psu := { s.psu with announced := s.demandNow }, pres := s.announce.pres, bus := s.announce.bus } := by
  rw [← State.announce_psu]
  rcases s.announce_cases with e | e
  · rw [e]
  · rw [e, State.noticeChange_psu]
    exact State.noticeChange_shape _

/-- Only the ladder, TRIPPED and a NOTICE that tells of it have moved. -/
def State.LadderMoved (s u : State) : Prop :=
  ∃ ladder tripped p b,
    u = { s with link := { s.link with ladder := ladder, tripped := tripped }, pres := p, bus := b }
      ∧ p.join = s.pres.join

/-- R144: a ladder begun afresh moves nothing else. -/
theorem State.freshLadder_moves (s : State) (k : OccKey) (t : Nat) : s.LadderMoved (s.freshLadder k t) := by
  unfold State.freshLadder
  exact iteInduction (fun _ => ⟨s.link.ladder, s.link.tripped, s.pres, s.bus, rfl, rfl⟩) fun _ =>
    iteInduction (fun _ => ⟨_, _, _, _, State.noticeChange_shape _, State.noticeChange_join _⟩)
      fun _ => ⟨_, _, _, _, rfl, rfl⟩

/-- R144: the output queue once TUNE and PROGRAMME have been issued. -/
def State.tuning (s : State) (freq : Nat) (mode : Mode) (programme : Nat) : List TxOut :=
  State.issuing { s with link := { s.link with out := s.issuing (.tune freq mode) } } (.programme programme)

theorem State.tuning_records {s : State} (h : s.mayIssue = true) (freq : Nat) (mode : Mode) (programme : Nat) :
    (s.tuning freq mode programme).map (·.record)
      = s.link.out.map (·.record) ++ [.tune freq mode, .programme programme] := by
  unfold State.tuning
  rw [State.issuing_records (s := { s with link := { s.link with out := s.issuing (.tune freq mode) } }) h,
    State.issuing_records h]
  simp

/-- R144: a tune that no test refuses begins. -/
theorem State.tune_taken {s : State} {k : OccKey} {t freq programme : Nat} {mode : Mode} (h : s.tuneRefusal t = none) :
    ∃ ladder tripped p b, s.tune k t freq mode programme = { s with
      link := { s.link with
        opTerminal := some t, permit := true, out := s.tuning freq mode programme, seenClear := false
        tuneDeadline := some (s.now + s.cfg.tune * 1000), op := .tuning, ladder := ladder, tripped := tripped }
      pres := p, bus := b } ∧ p.join = s.pres.join := by
  unfold State.tune
  rw [h]
  dsimp only
  rw [State.issue_out, State.issue_out]
  exact State.freshLadder_moves _ k t

/-- R144: the tests of a tune on a crosspoint that is switched. -/
theorem State.tuneRefusal_of_switched {s : State} {t : Nat} (hs : s.Switched t) (up : s.link.state = .up)
    (remote : s.link.localFlag = false) (sound : s.link.faultCode = 0)
    (rest : s.link.op = .none ∨ s.link.op = .tuning ∨ s.link.op = .tuned) : s.tuneRefusal t = none := by
  have ready : s.permitReady t = true := by
    simp [State.permitReady, hs.closed, hs.atRest, hs.held, up, remote, sound]
  unfold State.tuneRefusal
  rcases rest with op | op | op <;> simp [up, remote, sound, op, ready]

/-- R175: Tune for C's occurrence on its terminal. -/
theorem State.tuneCur_eq {s : State} {o : Occurrence} {t : Nat} (occ : s.seq.cur.occ = some o)
    (terminal : s.seq.cur.terminal = some t) :
    s.tuneCur = State.tune (s.setCur (s.seq.cur.goto .tuning)) o.key t o.prog.freq o.prog.mode o.prog.programme := by
  unfold State.tuneCur
  rw [occ, terminal]

end Sys2Proof.Machine

/-! SUPPORT and PROOF. The power share unit and the claim engine at their times: O49, O50, O51, O52, O53 (R105, R107,
R113, R115, R159, R161 to R164). -/

namespace Sys2Proof.Machine

/-! ## The ramp time (R161, R163, R175) -/

/-- R156: with no cap every step is a candidate. -/
theorem Power.find_full {p : Power} {test : Nat → Bool} (hc : p.effectiveCap = 100) (ht : test 100 = true) :
    p.candidates.find? test = some 100 :=
  Power.find_candidate (by decide) hc.ge ht fun _ _ h _ => h.trans hc.le

/-- R161: an Admit whose full step fits places its INTENT. -/
theorem State.requestStep_places {s : State} {r : AdmitReq} (hl : s.psu.localMark = false) (hp : s.psu.phase = .none)
    (ha : s.psu.admitted = none) (hc : s.psu.lastAdmit ≠ some (r.occ, r.terminal) ∨ s.psu.tripCap = 100)
    (hs : isSuspect s.map r.terminal s.localSecond = false) (hj : s.pres.join = .joined)
    (fits : othersCommitted s.psu.table + totalDemand s.cfg r.carrier 100 r.mode ≤ s.cfg.limit - s.cfg.reserve) :
    s.requestStep r 100 = State.placeIntent { s with psu := { s.psu with
      request := some r, requestCap := 100, tripCap := 100, lastAdmit := some (r.occ, r.terminal), suspectCap := none,
      phase := .choose, waitHanded := false } } r 100 := by
  have cap : (if s.psu.lastAdmit == some (r.occ, r.terminal) then s.psu.tripCap else 100) = 100 := by
    rcases hc with other | full
    · simp [other]
    · simp [full]
  unfold State.requestStep
  simp only [hl, hp, hs, cap, Bool.false_eq_true, if_false]
  rw [if_neg (by decide)]
  exact State.chooseStep_places rfl
    (Power.find_full rfl ((State.stepFits_of_joined (s := { s with psu := _ }) hj r 100).trans (decide_eq_true fits))) ha hj

/-- R175: without a step that stands TUNED is waited on until the ramp time. -/
theorem State.onTuned_waits {s : State} (fresh : s.seq.cur.heldStep = false)
    (early : (s.now : Int) < s.seq.cur.rampTime) : s.onTuned = s.setCur { s.seq.cur with brk := none, retry := none } := by
  unfold State.onTuned
  simp [fresh, Int.not_le.mpr early]

/-- R175: from the ramp time on the occurrence asks for power. -/
theorem State.onTuned_admits {s : State} (fresh : s.seq.cur.heldStep = false) (due : s.seq.cur.rampTime ≤ (s.now : Int)) :
    s.onTuned = State.admitCur (s.setCur
      { ({ s.seq.cur with brk := none, retry := none } : Ctx).goto .admitting with former := none }) := by
  unfold State.onTuned
  simp [fresh, due]

/-- R161, R175: what Admit asks for. -/
def Occurrence.admitReq (o : Occurrence) (t : Nat) : AdmitReq :=
  { occ := o.key, terminal := t, carrier := o.prog.carrier, mode := o.prog.mode, cls := o.prog.cls }

theorem State.admitCur_eq {s : State} {o : Occurrence} {t : Nat} (occ : s.seq.cur.occ = some o)
    (terminal : s.seq.cur.terminal = some t) : s.admitCur = s.requestStep (o.admitReq t) s.seq.cur.cap := by
  unfold State.admitCur
  rw [occ, terminal]
  rfl

/-- Settles O53: the tuned transmitter's occurrence asks for its full step. -/
theorem rampTimeAsksForPower : Obligations.RampTimeAsksForPower := by
  intro s t o k hh state occ taken op terminal fresh passed cap mark phase admitted again clean joined fits
  let c : Ctx := { ({ s.seq.cur with brk := none, retry := none } : Ctx).goto .admitting with former := none }
  have due : ruleOf (.rampTime t) (s.atTime t) = (s.atTime t).onTuned := by
    show State.rampTimeComes _ = _
    unfold State.rampTimeComes
    rw [if_pos]
    simpa [State.atTime, state, op, terminal, taken, Ctx.terminal, fresh] using passed
  have asks : (s.atTime t).onTuned = ((s.atTime t).setCur c).requestStep (o.admitReq k.terminal) 100 := by
    rw [State.onTuned_admits (s := s.atTime t) fresh passed, ← cap]
    exact State.admitCur_eq (s := (s.atTime t).setCur c) occ (by show s.seq.cur.taken.map _ = _; rw [taken]; rfl)
  have places := State.requestStep_places (s := (s.atTime t).setCur c) (r := o.admitReq k.terminal) mark phase admitted
    again clean joined fits
  exact ⟨_, exec_quiet (t := t) rfl (due.trans (asks.trans places)) hh, rfl, occ, taken, rfl, rfl, rfl, rfl, rfl, rfl,
    rfl⟩

/-! ## Window, backoff and life of an intent (R159, R163, R164) -/

/-- R160: what is ahead of an own intent of a class, as R160 has it. -/
theorem othersAhead_eq (table : List DemandRec) (cls : Nat) : othersAhead table cls
    = (table.map fun (x : DemandRec) => x.current.getD 0 + match x.intent with
      | some i => if i.cls < cls ∨ (i.cls = cls ∧ i.earlier = true) then i.intended - x.current.getD 0 else 0
      | none => 0).sum := by
  unfold othersAhead demandSum DemandRec.rise
  congr 1
  refine List.map_congr_left fun x _ => ?_
  rcases x.intent with _ | i
  · rfl
  · by_cases h : i.cls < cls ∨ (i.cls = cls ∧ i.earlier = true)
    · simp [h]
    · simp [h]

/-- R159: the intents whose life has run out leave the table. -/
theorem DemandRec.expire_eq (r : DemandRec) (now : Nat) :
    r.expire now = { r with intent := r.intent.filter fun i => decide (now < i.arrival + 15000) } := by
  unfold DemandRec.expire DemandRec.hasExpired
  obtain ⟨current, intent⟩ := r
  rcases intent with _ | i
  · rfl
  · by_cases h : i.arrival + 15000 ≤ now
    · simp [Intent.expired, intentLifeMs, h, Option.filter, Nat.not_lt.mpr h]
    · simp [Intent.expired, intentLifeMs, h, Option.filter, Nat.lt_of_not_le h]

/-- R164: a step is admitted, and announced. -/
theorem State.admitStep_eq {s : State} (hh : s.handed = []) (mark : s.psu.localMark = false) (r : AdmitReq) (k : Nat) :
    ∃ p b, s.admitStep r k = { s with
      psu := { s.psu with
        admitted := some k, pendingLower := none, basis := some { carrier := r.carrier, mode := r.mode }
        candidate := none, ownStart := none, windowEnd := none, phase := .none
        announced := totalDemand s.cfg r.carrier k r.mode }
      pres := p, bus := b
      handed := [.pwAdmitted k (totalDemand s.cfg r.carrier k r.mode) (commandedCarrier r.carrier k)] } := by
  let admitted : State := { s with psu := { s.psu with
    admitted := some k, pendingLower := none, basis := some { carrier := r.carrier, mode := r.mode }
    candidate := none, ownStart := none, windowEnd := none, phase := .none } }
  have demand : admitted.demandNow = totalDemand s.cfg r.carrier k r.mode := by simp [admitted, State.demandNow, mark]
  have shape := State.announce_shape admitted
  rw [demand] at shape
  refine ⟨admitted.announce.pres, admitted.announce.bus, ?_⟩
  have hands : s.admitStep r k
      = admitted.announce.emit [.pwAdmitted k admitted.announce.psu.announced (commandedCarrier r.carrier k)] := rfl
  have told : admitted.announce.psu.announced = totalDemand s.cfg r.carrier k r.mode := by
    rw [State.announce_psu, demand]
  rw [hands, told, shape]
  simp [State.emit, admitted, hh]

/-- R175: an admitted step ramps the occurrence up. -/
theorem State.seqAdmitted_ramps {s : State} {o : Occurrence} (state : s.seq.cur.state = .admitting)
    (occ : s.seq.cur.occ = some o) (former : s.seq.cur.former = none) (k : Nat) :
    s.seqAdmitted k = State.rampUp (s.setCur
      (({ s.seq.cur with admitted := some k, stands := true, former := none } : Ctx).goto .ramping)) o.prog.carrier k := by
  unfold State.seqAdmitted
  simp only [state, occ, former]

/-- R147, R175: a Ramp-up from level 0, refused or not, leaves an occurrence in RAMPING there. -/
theorem State.drainsTo_rampUp {s : State} (hh : s.handed = []) (rests : s.seq.Rests) (level : s.link.level = 0)
    (lower : s.psu.pendingLower = none) (carry : s.psu.releasePending = false) (state : s.seq.cur.state = .ramping)
    (carrier step : Nat) : ∃ l retry, State.DrainsTo (s.rampUp carrier step)
      { s with
        link := l, handed := [], seq := { s.seq with cur := { s.seq.cur with retry := retry } } } 1
      ∧ l.permit = s.link.permit ∧ (s.rampUp carrier step).seq = s.seq := by
  unfold State.rampUp
  rcases s.rampRefusal with _ | r
  · let r : RampParams := { carrier := carrier, step := step, target := s.targetOf carrier step }
    have none : ({ s with link := s.rampLink r false, handed := [] } : State) = { s with link := s.rampLink r false } := by
      rw [← hh]
    refine ⟨s.rampLink r false, s.seq.cur.retry, ?_, rfl,
      (congrArg State.seq (State.startRamp_zero level r false)).trans rfl⟩
    have d := State.drainsTo_startRamp level lower carry rests hh r false
    rw [← none] at d
    exact d
  · refine ⟨s.link, some { kind := .rampUp, due := s.now + sequencerRetryMs }, ?_, rfl, rfl⟩
    have told : s.emit [.txRefused .rampUp r] = { s with handed := [.txRefused .rampUp r] } := by
      simp [State.emit, hh]
    dsimp only
    rw [told]
    refine drainsTo_one (s := s) ?_ ⟨rests.ending, rests.release, rests.await, rests.search⟩ rfl
    show State.seqTxRefused _ _ = _
    unfold State.seqTxRefused
    simp [state, State.setCur]

/-- Settles O49. -/
theorem intentTimesRunOut : Obligations.IntentTimesRunOut := by
  intro s t hh
  refine ⟨fun r k v phase ends passed request candidate => ?_, fun r k v phase ends passed request admitted joined step
    cap top fits => ?_, fun waits => ?_⟩
  · intro ahead demand
    have due : ruleOf (.intentWindowEnd t) (s.atTime t) = (s.atTime t).endIntentWindow :=
      if_pos (by simp [State.intentWindowDue, State.reached, State.atTime, phase, ends, passed])
    have sum : othersAhead s.psu.table r.cls = ahead := othersAhead_eq _ _
    refine ⟨fun fits calm state occ former level mark carry => ?_, fun exceeds => ?_⟩
    · obtain ⟨o, occ⟩ := Option.isSome_iff_exists.mp occ
      have admits : (s.atTime t).endIntentWindow = (s.atTime t).admitStep r k := by
        unfold State.endIntentWindow
        rw [show (s.atTime t).psu.request = some r from request, show (s.atTime t).psu.candidate = some k from candidate]
        exact if_pos (by rw [show (s.atTime t).psu.table = s.psu.table from rfl, sum]; exact fits)
      obtain ⟨p, b, admitted⟩ := State.admitStep_eq (s := s.atTime t) hh mark r k
      let given : State := { s.atTime t with
        psu := { s.psu with
          admitted := some k, pendingLower := none, basis := some { carrier := r.carrier, mode := r.mode }
          candidate := none, ownStart := none, windowEnd := none, phase := .none, announced := demand }
        pres := p, bus := b }
      let c : Ctx := ({ s.seq.cur with admitted := some k, stands := true, former := none } : Ctx).goto .ramping
      have ramps : given.seqAdmitted k = (given.setCur c).rampUp o.prog.carrier k :=
        State.seqAdmitted_ramps (s := given) state occ former k
      obtain ⟨l, retry, d, permit, still⟩ := State.drainsTo_rampUp (s := given.setCur c) hh
        ⟨calm.ending, calm.release, SeqState.noConfusion, calm.search⟩ level rfl carry rfl o.prog.carrier k
      have none : ({ given with handed := [] } : State) = given := by rw [← hh]; rfl
      have drained := State.DrainsTo.only
        (s := { given with handed := [.pwAdmitted k demand (commandedCarrier r.carrier k)] }) rfl
        ((congrArg (State.seqAdmitted · k) none).trans ramps)
        (still ▸ ⟨calm.ending, calm.release, SeqState.noConfusion, calm.search⟩) d
      exact ⟨_, exec_drains rfl (due.trans (admits.trans admitted)) drained, rfl, rfl, rfl, rfl, rfl, rfl, rfl, rfl, rfl,
        permit⟩
    · have fails : (s.atTime t).endIntentWindow = { s.atTime t with
          psu := { s.psu with phase := .backoff, candidate := none, backoffEnd := some (max s.now t + 2000) }
          bus := if s.pres.join = .joined then
              s.bus.placeIntent
                { intended := s.psu.announced, current := s.psu.announced, cls := r.cls, withdrawal := true }
            else s.bus } := by
        unfold State.endIntentWindow
        rw [show (s.atTime t).psu.request = some r from request, show (s.atTime t).psu.candidate = some k from candidate]
        dsimp only
        rw [if_neg (by show ¬ othersAhead s.psu.table r.cls + demand ≤ s.cfg.limit - s.cfg.reserve; omega)]
        unfold State.placeWithdrawal
        rw [show (s.atTime t).psu.request = some r from request]
        by_cases joined : s.pres.join = .joined <;> simp [State.atTime, joined, backoffMs]
      exact exec_quiet (t := t) rfl (due.trans fails) hh
  · have due : ruleOf (.backoffEnd t) (s.atTime t) = (s.atTime t).endBackoff :=
      if_pos (by simp [State.backoffDue, State.reached, State.atTime, phase, ends, passed])
    refine exec_quiet (t := t) rfl (due.trans ?_) hh
    let choosing : State := { s.atTime t with psu := { s.psu with phase := .choose, backoffEnd := none } }
    have fit (j : Nat) : choosing.stepFits r j
        = decide (othersCommitted s.psu.table + totalDemand s.cfg r.carrier j r.mode ≤ s.cfg.limit - s.cfg.reserve) :=
      State.stepFits_of_joined (s := choosing) joined r j
    have found : choosing.psu.candidates.find? (choosing.stepFits r) = some k :=
      Power.find_candidate step cap (by simpa [fit] using fits) fun j hj hc ht => top j hj hc (by simpa [fit] using ht)
    exact State.chooseStep_places (s := choosing) request found admitted joined
  · have table : (s.psu.table.map (DemandRec.expire · (max s.now t))) = s.psu.table.map fun x => { x with
        intent := x.intent.filter fun i => decide (max s.now t < i.arrival + 15000) } :=
      List.map_congr_left fun x _ => x.expire_eq _
    refine exec_quiet (t := t) rfl ?_ hh
    rw [← table]
    by_cases due : (s.atTime t).intentsDue = true
    · refine (if_pos due).trans ?_
      unfold State.expireIntents
      exact if_neg (by simpa using waits)
    · have none : (s.psu.table.map (DemandRec.expire · (max s.now t))) = s.psu.table := by
        refine (List.map_congr_left fun x hx => ?_).trans (List.map_id _)
        exact if_neg fun expired => due (List.any_eq_true.mpr ⟨x, hx, expired⟩)
      rw [none]
      exact if_neg due

end Sys2Proof.Machine

/-! SUPPORT and PROOF. The claim engine's window, retry and watch: O50, O51, O52 (R105, R107, R108, R113, R115, R173,
R179). -/

namespace Sys2Proof.Machine

/-! ## Notices of a change (R68, R77, R157) -/

/-- R68: only a NOTICE has been placed, or marked as pending. -/
def State.Noticed (s u : State) : Prop :=
  ∃ p n m, u = { s with
      pres := p
      bus := { s.bus with notice := n, noticeNext := m } } ∧ p.join = s.pres.join

theorem State.Noticed.refl (s : State) : s.Noticed s := ⟨s.pres, s.bus.notice, s.bus.noticeNext, rfl, rfl⟩

theorem State.noticeChange_noticed (s : State) : s.Noticed s.noticeChange := by
  have placed : s.Noticed s.placeNotice := by
    unfold State.placeNotice Bus.placeNotice
    split
    · exact ⟨_, _, _, rfl, rfl⟩
    · exact ⟨_, _, _, rfl, rfl⟩
  rcases s.noticeChange_cases with e | e | e <;> rw [e]
  · exact State.Noticed.refl s
  · exact placed
  · exact ⟨_, _, _, rfl, rfl⟩

/-- R157: the announced demand moves, and the NOTICE that tells of it. -/
theorem State.announce_noticed (s : State) :
    State.Noticed { s with psu := { s.psu with announced := s.demandNow } } s.announce := by
  have demand := s.announce_psu
  rcases s.announce_cases with e | e
  · rw [e] at demand ⊢
    rw [← demand]
    exact State.Noticed.refl s
  · rw [e]
    exact State.noticeChange_noticed _

/-- R77, R142: rows that keep the own HELD booking where it is, with the notice of a change of the own BOOKED one. -/
theorem State.withMap_noticed {s : State} {m : List TermRow} (held : ownHeld m = ownHeld s.map) :
    State.Noticed { s with map := m } (s.withMap m) := by
  unfold State.withMap
  rw [held]
  simp only [bne_self_eq_false, Bool.false_eq_true, if_false, Bool.false_or, State.emit_nil]
  split
  · exact State.noticeChange_noticed _
  · exact State.Noticed.refl _

/-! ## The end of a search that the current context waits for (R165, R171, R179) -/

/-- Only a record has been written. -/
def State.Logged (s u : State) : Prop := ∃ l b, u = { s with log := l, bus := b }

theorem State.writeLog_logged (s : State) (b : LogBody) : s.Logged (s.writeLog b) := by
  unfold State.writeLog
  split <;> exact ⟨_, _, rfl⟩

theorem State.writeEnd_logged (s : State) (c : Ctx) (code : EndCode) : s.Logged (s.writeEnd c code) := by
  unfold State.writeEnd
  split
  · exact ⟨_, _, rfl⟩
  · exact iteInduction (fun _ => s.writeLog_logged _) fun _ => s.writeLog_logged _

/-- R172: the occurrence that ends without a terminal has its record, or none. -/
def State.closing (s : State) (code : EndCode) : State :=
  if s.seq.cur.unrecorded s.instant then s else s.writeEnd s.seq.cur code

theorem State.closing_logged (s : State) (code : EndCode) : s.Logged (s.closing code) :=
  iteInduction (fun _ => ⟨_, _, rfl⟩) fun _ => s.writeEnd_logged _ code

theorem State.closing_unrun {s : State} {code : EndCode} (off : s.seq.cur.onAir = none) (fresh : s.seq.cur.running = false) :
    s.closing code = s :=
  if_pos (by simp [Ctx.unrecorded, off, fresh])

theorem State.closing_missed {s : State} {code : EndCode} {o : Occurrence} {g : SeqState} (occ : s.seq.cur.occ = some o)
    (off : s.seq.cur.onAir = none) (ran : s.seq.cur.running = true) (late : s.seq.cur.early s.instant = false)
    (furthest : s.seq.cur.furthest = some g) : s.closing code = s.writeLog (.entryMissed o.source o.number code g) := by
  refine (if_neg (by simp [Ctx.unrecorded, ran, late])).trans ?_
  unfold State.writeEnd
  simp [occ, off, furthest]

theorem State.closing_off {s : State} {code : EndCode} {o : Occurrence} (occ : s.seq.cur.occ = some o)
    (on : s.seq.cur.onAir.isSome = true) : s.closing code = s.writeLog (.entryOff o.source o.number code
      (s.seq.cur.terminal.or s.seq.cur.lastTerm) s.seq.cur.admitted s.seq.cur.trips (s.seq.cur.offAir s.now)) := by
  refine (if_neg (by simp [Ctx.unrecorded, Option.isSome_iff_ne_none.mp on])).trans ?_
  unfold State.writeEnd
  simp [occ, on]

/-- R165: at level 0 a Release ends the admission at once. -/
theorem State.releaseAdmission_zero {s : State} (phase : s.psu.phase = .none) (level : s.link.level = 0) :
    State.Noticed { s with psu := { s.psu with
      admitted := none, pendingLower := none, basis := none, request := none, releasePending := false,
      announced := s.releaseAdmission.psu.announced } } s.releaseAdmission := by
  rw [State.releaseAdmission_eq phase]
  unfold State.settleRelease
  simp only [level, beq_self_eq_true, Bool.and_self, if_true]
  rw [State.announce_psu]
  exact State.announce_noticed _

/-- R165, R172: at level 0 the admission ends after the record, and C is emptied. -/
theorem State.Logged.released {s e : State} (h : s.Logged e) (phase : s.psu.phase = .none) (level : s.link.level = 0)
    (c : Ctx) : ∃ demand b p, e.releaseAdmission.setCur c = { s with
      log := e.log
      psu := { s.psu with
        admitted := none, pendingLower := none, basis := none, request := none, releasePending := false,
        announced := demand }
      bus := b, pres := p
      seq := { s.seq with cur := c } } := by
  obtain ⟨l, b, rfl⟩ := h
  obtain ⟨p, n, m, released, -⟩ := State.releaseAdmission_zero (s := { s with log := l, bus := b }) phase level
  exact ⟨_, _, _, congrArg (State.setCur · c) released⟩

/-- R171, R179: at level 0 the occurrence ends with its record and its admission, and C is IDLE. -/
theorem State.endSearch_zero {s : State} (found : s.seq.foundOffer = false) (phase : s.psu.phase = .none)
    (level : s.link.level = 0) (code : EndCode) (spent : Option OccKey) :
    ∃ demand b p, s.endSearch code spent = { s with
      log := (s.closing code).log
      psu := { s.psu with
        admitted := none, pendingLower := none, basis := none, request := none, releasePending := false,
        announced := demand }
      bus := b, pres := p
      seq := { s.seq with cur := { s.seq.cur.emptied .idle with spent := spent } } } := by
  obtain ⟨demand, b, p, e⟩ := (s.closing_logged code).released phase level { s.seq.cur.emptied .idle with spent := spent }
  refine ⟨demand, b, p, (congrArg State.offerEnds e).trans (if_neg ?_)⟩
  simpa using found

/-- What is handed out where nothing waits. -/
theorem State.emit_of {s : State} (hh : s.handed = []) (ms : List Handed) : s.emit ms = { s with handed := ms } := by
  unfold State.emit
  rw [hh, List.nil_append]

/-- R173: the engine is done with an occurrence that no end waits for. -/
theorem State.endOn_none {s : State} (h : s.seq.ending = none) (k : OccKey) : s.endOn k = s := by
  unfold State.endOn
  rw [h]

/-- Settles O51. -/
theorem retryWalksAgain : Obligations.RetryWalksAgain := by
  intro s t v o hh phase retry passed occ
  have due : ruleOf (.claimRetry t) (s.atTime t) = (s.atTime t).retryWalk :=
    if_pos (by simp [State.claimRetryDue, State.reached, State.atTime, phase, retry, passed])
  refine ⟨fun calm found past => ?_, fun x m ts early cands mark opened clean usable unowned undedicated join empty => ?_⟩
  · let idle : State := { s.atTime t with claim := { Claim.reset with watched := s.claim.watched } }
    have ends : (s.atTime t).retryWalk = { idle with handed := [.expired o.key] } := by
      unfold State.retryWalk
      rw [show (s.atTime t).claim.occ = some o from occ]
      dsimp only
      rw [if_pos (by exact past)]
      exact State.emit_of (s := idle) hh _
    have none : ({ idle with handed := [] } : State) = idle := by rw [← hh]; rfl
    have key : s.seq.nxt.deferred = false := calm.search
    refine ⟨fun other => ?_, fun c cur same state power level => ?_⟩
    · let emptied : State := { idle with
        seq := if s.seq.nxt.key = some o.key then { s.seq with nxt := Ctx.reset } else s.seq }
      have taken : State.take { idle with handed := [] } (.expired o.key) = emptied := by
        show (State.seqExpired { idle with handed := [] } o.key).endOn o.key = _
        rw [none, show idle.seqExpired o.key = emptied from ?_]
        · exact State.endOn_none (by simp only [emptied]; split <;> exact calm.ending) _
        · unfold State.seqExpired
          have away : (idle.seq.cur.key == some o.key) = false := by simpa [idle] using other
          simp only [away, Bool.false_eq_true, if_false, emptied]
          by_cases next : s.seq.nxt.key = some o.key
          · simp [idle, next, State.setNxt]
          · simp [idle, next]
      have rests : emptied.seq.Rests :=
        iteInduction (fun _ => ⟨calm.ending, calm.release, calm.await, rfl⟩) fun _ => calm.rests
      exact exec_drains rfl (due.trans ends) (drainsTo_one (s := idle) taken rests hh)
    · intro code
      obtain ⟨demand, b, p, ended⟩ := State.endSearch_zero (s := idle) found power level code s.seq.cur.spent
      have taken : State.take { idle with handed := [] } (.expired o.key) = idle.endSearch code s.seq.cur.spent := by
        show (State.seqExpired { idle with handed := [] } o.key).endOn o.key = _
        have own : idle.seqExpired o.key = idle.endSearch code s.seq.cur.spent :=
          if_pos (by simp [idle, Ctx.key, cur, same])
        rw [none, own]
        exact State.endOn_none (by rw [ended]; exact calm.ending) _
      have emptied : { s.seq.cur.emptied .idle with spent := s.seq.cur.spent } =
        { Ctx.reset with spent := s.seq.cur.spent } := by
        unfold Ctx.emptied
        rw [calm.release]
        rfl
      refine ⟨_, exec_drains rfl (due.trans ends) (drainsTo_one (s := idle) (taken.trans ended)
        ⟨calm.ending, calm.release, SeqState.noConfusion, calm.search⟩ hh), rfl, ?_, rfl, rfl, rfl, rfl, rfl, rfl, rfl,
        fun off fresh => ?_, fun g off ran late furthest => ?_, fun on => ?_⟩
      · exact congrArg (fun c => { s.seq with cur := c }) emptied
      · show (idle.closing code).log = idle.log
        rw [State.closing_unrun (s := idle) off fresh]
      · show ∃ r, (idle.closing code).log.ring.getLast? = _ ∧ _
        rw [State.closing_missed (s := idle) cur off ran late furthest]
        exact State.writeLog_newestBody _ _
      · show ∃ r, (idle.closing code).log.ring.getLast? = _ ∧ _
        rw [State.closing_off (s := idle) cur on]
        exact State.writeLog_newestBody _ _
  · let again : State := { s.atTime t with claim := { s.claim with
      marks := s.claim.marks.map (fun k => if k = .lost then .opened else k), pass := .normal, skipped := false,
      index := 0, retry := none } }
    have walks : (s.atTime t).retryWalk = again.walk := by
      unfold State.retryWalk
      rw [show (s.atTime t).claim.occ = some o from occ]
      dsimp only
      rw [if_neg (by show ¬ s.claim.till ≤ ((max s.now t / 1000 : Nat) : Int); omega)]
      simp [again, State.atTime]
    have opens : again.claim.marks[again.claim.index]? = some .opened := by
      cases m <;> simp_all [again]
    refine exec_quiet (t := t) rfl ((due.trans walks).trans ((State.walk_claims (s := again) occ
      (by simp [cands, again]) opens clean usable unowned undedicated join empty).trans ?_)) hh
    rfl

/-- R105: with no candidate left and one of them lost the walk waits for the retry. -/
theorem State.walk_waits {s : State} {o : Occurrence} (occ : s.claim.occ = some o)
    (last : s.claim.index = o.prog.cands.length) (skipped : s.claim.skipped = false) {m : Mark} (hm : m ∈ s.claim.marks)
    (left : m ≠ .exhausted) (hh : s.handed = []) : s.walk = { s with
      claim := { s.claim with phase := .retryWait, retry := some (s.now + 30000) }
      handed := [.waiting o.key] } := by
  have some_left : s.claim.marks.all (· == .exhausted) = false := by
    refine Bool.eq_false_iff.mpr fun all => left ?_
    simpa using List.all_eq_true.mp all m hm
  have ends : s.walk = s.endWalk := by
    unfold State.walk walkFuel State.walkFrom
    simp [occ, last, skipped]
  have told : (s.claim.occ.map fun o => Handed.waiting o.key).toList = [.waiting o.key] := by simp [occ]
  refine ends.trans ((if_neg (Bool.eq_false_iff.mp some_left)).trans ?_)
  rw [told]
  exact State.emit_of
    (s := { s with claim := { s.claim with phase := .retryWait, retry := some (s.now + claimRetryMs) } }) hh _

theorem Bus.placeFree_noticed (b : Bus) (n m : Option NoticeFrame) (f : FreeFrame) :
    ({ b with notice := n, noticeNext := m } : Bus).placeFree f = { b.placeFree f with notice := n, noticeNext := m } := by
  unfold Bus.placeFree
  dsimp only
  split
  · rfl
  · split
    · rfl
    · split <;> rfl

/-- R115: a HELD, STALE or DEDICATED booking of another station that overlaps a span blocks it. -/
theorem blocked_of {m : List TermRow} {station x : Nat} {r : TermRow} {b : Booking} {since : Int} {till : Option Int}
    (row : rowOf m x = some r) (hb : b ∈ r.slots) (other : b.owner ≠ station)
    (holds : b.state = .held ∨ b.state = .stale ∨ b.state = .dedicated)
    (overlap : spansOverlap b.since (if b.state = .stale then none else b.till) since till = true) :
    blocked m station x since till = true := by
  unfold blocked askRow
  rw [row]
  refine List.any_eq_true.mpr ⟨b, hb, ?_⟩
  have occupies : b.occupies station = true := by
    rcases holds with h | h | h <;> simp [Booking.occupies, other, h]
  have overlaps : b.overlaps since till = true := by
    simpa [Booking.overlaps, Booking.reach] using overlap
  rw [occupies, overlaps]
  rfl

/-- R115: a FREE for the lost booking's terminal waits on the bus. -/
def Watched.freed (w : Watched) (k : Booking) (b : Bus) : Bus := b.placeFree { terminal := w.terminal, cls := k.cls }

/-- R77: the own BOOKED booking of a terminal leaves. -/
def unbooked (m : List TermRow) (t : Nat) : List TermRow := mapDropAt m t (isOwn .booked)

theorem unbooked_eq (m : List TermRow) (t : Nat) : unbooked m t = m.map fun q => if q.number = t then
    { q with slots := q.slots.filter fun c => ! (c.source == .own && c.state == .booked) } else q :=
  List.map_congr_left fun r _ => by
    by_cases h : r.number = t
    · simp [h, TermRow.drop, isOwn]
    · simp [h]

theorem ownHeld_unbooked (m : List TermRow) (t : Nat) : ownHeld (unbooked m t) = ownHeld m :=
  ownIn_mapDropAt fun x hx => by
    simp only [isOwn, Bool.and_eq_true, beq_iff_eq] at hx
    simp [isOwn, hx.2]

/-- R115: the engine is halted, with its candidate LOST, and watches nothing. -/
def Claim.lost (c : Claim) : Claim :=
  { c with marks := c.marks.set (c.index - 1) .lost, phase := .halted, watched := none }

/-- R115: the watched booking is given back, and the search for its occurrence halted. -/
theorem State.loseWatched_eq {s : State} {w : Watched} {k : Booking} (booked : ownBooked s.map = some (w.terminal, k))
    (phase : s.claim.phase = .booked) (occ : s.claim.occ = some w.occ) (hh : s.handed = []) (cause : LostCause) :
    ∃ p n m, s.loseWatched w cause = { s with
      map := unbooked s.map w.terminal, pres := p, claim := s.claim.lost
      bus := { w.freed k s.bus with notice := n, noticeNext := m }
      handed := [.lostBooking w.terminal w.occ.key cause] } := by
  obtain ⟨p, n, m, removed, -⟩ := State.withMap_noticed (ownHeld_unbooked s.map w.terminal)
  have removed : s.removeOwn w.terminal .booked = { s with
      map := unbooked s.map w.terminal, pres := p
      bus := { s.bus with notice := n, noticeNext := m } } := removed
  have halted : s.claim.halt w.occ.key
      = { s.claim with marks := s.claim.marks.set (s.claim.index - 1) .lost, phase := .halted } :=
    if_pos (by simp [phase, occ])
  refine ⟨p, n, m, ?_⟩
  unfold State.loseWatched
  rw [booked, removed]
  simp only [State.placeFree, Option.map_some, Option.getD_some, Bus.placeFree_noticed, halted]
  exact State.emit_of (s := { s with
    map := unbooked s.map w.terminal, pres := p, claim := s.claim.lost
    bus := { w.freed k s.bus with notice := n, noticeNext := m } }) hh _

/-- R173: the booking that the next context had is lost, and the walk for its occurrence goes on. -/
theorem State.seqLost_next {s : State} {o : Occurrence} (nxt : s.seq.nxt.occ = some o) (away : s.seq.cur.key ≠ some o.key)
    (serves : s.claim.serving = some o.key) (halted : s.claim.phase = .halted) (t : Nat) : s.seqLost t o.key
      = State.walk (s.setNxt { s.seq.nxt.goto .claiming with taken := none, cap := 100, deferred := false }) := by
  have key : s.seq.nxt.key = some o.key := by simp [Ctx.key, nxt]
  unfold State.seqLost
  simp only [beq_iff_eq, away, key, serves, if_true, if_false, bne_self_eq_false]
  exact if_pos (by simp [State.setNxt, halted])

/-- Settles O52. -/
theorem overtakenBookingIsGivenUp : Obligations.OvertakenBookingIsGivenUp := by
  intro s t w k b r calm watched booked row hb other holds overlap nxt away phase occ index counted marks skipped
  obtain ⟨p, n, m, loses⟩ := State.loseWatched_eq (s := s.atTime t) booked phase occ calm.handed .overtaken
  let lost : State := { s.atTime t with
    map := unbooked s.map w.terminal, pres := p, claim := s.claim.lost
    bus := { w.freed k s.bus with notice := n, noticeNext := m } }
  have rule : ruleOf (.claimWatch t) (s.atTime t) = (s.atTime t).loseWatched w .overtaken := by
    show State.watchSecond _ = _
    unfold State.watchSecond
    rw [show (s.atTime t).claim.watched = some w from watched,
      show ownBooked (s.atTime t).map = some (w.terminal, k) from booked]
    exact (if_pos (beq_self_eq_true _)).trans (if_pos (blocked_of row hb other holds overlap))
  have none : ({ lost with handed := [] } : State) = lost := by rw [← calm.handed]; rfl
  have halted := State.seqLost_next (s := lost) nxt away (by simp [lost, Claim.lost, Claim.serving, occ]) rfl w.terminal
  let back : State := lost.setNxt { s.seq.nxt.goto .claiming with taken := Option.none, cap := 100, deferred := false }
  let waits : State := { back with
    claim := { s.claim.lost with phase := .retryWait, retry := some (max s.now t + 30000) } }
  have walks : back.walk = { waits with handed := [.waiting w.occ.key] } :=
    State.walk_waits (m := .lost) occ index skipped
      (List.mem_set (l := s.claim.marks) (i := s.claim.index - 1) (by omega) .lost) (by decide) calm.handed
  have still : ({ waits with handed := [] } : State) = waits := by rw [← calm.handed]; rfl
  have told : State.take { waits with handed := [] } (.waiting w.occ.key) = waits := by
    rw [still]
    show (waits.seqWaiting w.occ.key).endOn w.occ.key = waits
    have aside : waits.seqWaiting w.occ.key = waits :=
      if_neg (by show ¬ (s.seq.cur.key == some w.occ.key) = true; simpa using away)
    rw [aside]
    exact State.endOn_none (s := waits) calm.ending _
  have rests : waits.seq.Rests := ⟨calm.ending, calm.release, calm.await, rfl⟩
  have taken : State.take { lost with handed := [] } (.lostBooking w.terminal w.occ.key .overtaken)
      = { waits with handed := [.waiting w.occ.key] } := by
    rw [none]
    exact halted.trans walks
  have d := State.DrainsTo.only (s := { lost with handed := [.lostBooking w.terminal w.occ.key .overtaken] }) rfl taken
    rests (drainsTo_one (s := waits) told rests calm.handed)
  exact ⟨waits, exec_drains rfl (rule.trans loses) d, rfl, unbooked_eq s.map w.terminal, rfl, rfl, rfl, rfl, rfl, rfl,
    nxt, rfl, rfl, rfl, rfl, rfl⟩

/-- R77: the map with the own BOOKED booking in a free slot of a terminal of the reach. -/
theorem State.enterOwnBooked_free {s : State} {t cls : Nat} {since till : Int} {r : TermRow} (distinct : RowsDistinct s.map)
    (row : rowOf s.map t = some r) (room : r.slots.length < 4) (unbooked : ownBooked s.map = none) (hh : s.handed = []) :
    let b := ownBooking s.cfg.station .booked cls since (some till) false
    let rows := setRow s.map { r with slots := insertBooking b r.slots }
    ∃ p n m, s.enterOwnBooked t cls since till = ({ s with
      map := rows, pres := p
      bus := { s.bus with notice := n, noticeNext := m }
      handed := [.entered t] }, .entered) := by
  intro b rows
  have number : r.number = t := rowOf_number row
  have held : ownHeld rows = ownHeld s.map :=
    ownIn_updateWhere (fun _ _ _ => rfl) fun x hx hn => by
      rw [distinct.eq_of_number row hx (hn.trans number)]
      exact find?_insertBooking (by simp [isOwn, b, ownBooking]) r.slots
  obtain ⟨p, n, m, entered, -⟩ := State.withMap_noticed held
  refine ⟨p, n, m, ?_⟩
  have place : mapEnter s.map t b = some rows := by
    unfold mapEnter TermRow.enter
    rw [row, Option.bind_some, if_pos (show r.slots.length < slotCapacity from room)]
    rfl
  unfold State.enterOwnBooked
  rw [unbooked, place]
  refine Prod.ext ?_ rfl
  show (s.withMap rows).emit _ = _
  rw [entered]
  exact State.emit_of (s := { s with
    map := rows, pres := p
    bus := { s.bus with notice := n, noticeNext := m } }) hh _

/-- R113: the booking that was entered is watched. -/
theorem State.enterBooked_of {s a : State} {o : Occurrence} {t : Nat} (unbooked : ownBooked s.map = none)
    (h : s.enterOwnBooked t o.prog.cls s.claim.since s.claim.till = (a, .entered)) :
    s.enterBooked o t = (a.watch o t, true) := by
  unfold State.enterBooked
  simp [unbooked, h]

/-- R113: the terminal of the own claim is booked. -/
theorem State.endClaimWindow_of {s a : State} {o : Occurrence} {t : Nat} (occ : s.claim.occ = some o)
    (terminal : s.claim.terminal = some t) (h : s.enterBooked o t = (a, true)) :
    s.endClaimWindow = a.handBooked o t .claimed := by
  unfold State.endClaimWindow
  simp [occ, terminal, h]

/-- R173: the next context has the terminal booked for it. -/
theorem State.seqBooked_next {s : State} {o : Occurrence} (nxt : s.seq.nxt.occ = some o) (away : s.seq.cur.key ≠ some o.key)
    (t : Nat) (how : HowTaken) (suspect : Bool) : s.seqBooked o.key t how suspect
      = s.setNxt { s.seq.nxt.goto .awaitTerminal with
          taken := some { terminal := t, how := how, suspect := suspect }, cap := capOf suspect, lastTerm := some t
          deferred := false } := by
  have key : s.seq.nxt.key = some o.key := by simp [Ctx.key, nxt]
  unfold State.seqBooked
  simp [away, key]

/-- Settles O50. -/
theorem unlostClaimIsBooked : Obligations.UnlostClaimIsBooked := by
  intro s t v x o r calm nxt away phase ends passed occ terminal unbooked row room distinct still
  obtain ⟨p, n, m, entered⟩ := State.enterOwnBooked_free (s := s.atTime t) (cls := o.prog.cls) (since := s.claim.since)
    (till := s.claim.till) distinct row room unbooked calm.handed
  let b := ownBooking s.cfg.station .booked o.prog.cls s.claim.since (some s.claim.till) false
  let q : TermRow := { r with slots := insertBooking b r.slots }
  let rows := setRow s.map q
  have number : r.number = x := rowOf_number row
  have there : rowOf rows x = some q := by
    rw [rowOf_setRow, if_pos (by exact number.symm), row]
    rfl
  have suspect : isSuspect rows x (max s.now t / 1000) = isSuspect s.map x (max s.now t / 1000) := by
    unfold isSuspect
    rw [there, row]
    rfl
  let a : State := { s.atTime t with
    map := rows, pres := p
    bus := { s.bus with notice := n, noticeNext := m }
    claim := { s.claim with
      phase := .booked, terminal := none, ownStart := none, ownStartsIn := 0, windowEnd := none, crossing := [],
      watched := some { terminal := x, occ := o } } }
  let told : Handed := .booked o.key x s.claim.index .claimed (isSuspect s.map x (max s.now t / 1000))
  have named : told = .booked o.key x s.claim.index .claimed (isSuspect rows x (max s.now t / 1000)) := by rw [suspect]
  have rule : ruleOf (.claimWindowEnd t) (s.atTime t) = (s.atTime t).endClaimWindow :=
    if_pos (by simp [State.claimWindowDue, State.reached, State.atTime, phase, ends, passed])
  have books : (s.atTime t).endClaimWindow = { a with handed := [.entered x, told] } := by
    rw [State.endClaimWindow_of (s := s.atTime t) occ terminal
      (State.enterBooked_of (s := s.atTime t) unbooked entered), named]
    rfl
  have next := State.seqBooked_next (s := a) nxt away x .claimed (isSuspect s.map x (max s.now t / 1000))
  have none : ({ a with handed := [] } : State) = a := by rw [← calm.handed]; rfl
  have quiet : Still a (.entered x) := by
    refine ⟨?_, fun last => ?_⟩
    · rw [none]
      show a.matrixEntered x = a
      simp [State.matrixEntered, a, still, State.atTime]
    · rw [none]
      exact Sequencer.Rests.advance (s := a) calm.rests last
  have taken : State.take { a with handed := [] } told = a.setNxt { s.seq.nxt.goto .awaitTerminal with
      taken := some { terminal := x, how := .claimed, suspect := isSuspect s.map x (max s.now t / 1000) }
      cap := capOf (isSuspect s.map x (max s.now t / 1000)), lastTerm := some x, deferred := false } := by
    rw [none]
    show (a.seqBooked o.key x .claimed _).endOn o.key = _
    rw [State.endOn_none (by rw [next]; exact calm.ending)]
    exact next
  have d := State.DrainsTo.still (s := { a with handed := [.entered x, told] }) rfl ⟨quiet.take, quiet.advance⟩
    (drainsTo_one (s := a) taken ⟨calm.ending, calm.release, calm.await, rfl⟩ calm.handed)
  exact ⟨_, q, exec_drains rfl (rule.trans books) d, there, mem_insertBooking.mpr (.inl rfl),
    fun c hc => mem_insertBooking.mpr (.inr hc),
    fun i hi => (rowOf_setRow _ _ _).trans (if_neg fun h => hi (h.trans number)), rfl, rfl, nxt, rfl, rfl, rfl, rfl, rfl⟩

end Sys2Proof.Machine

/-! SUPPORT and PROOF. The transmitter link at its times and edges: O54, O47, O46, O44 (R144, R146 to R148, R150, R151,
R175). -/

namespace Sys2Proof.Machine

/-! ## A refused Tune (R144, R175) -/

/-- R144, R175: Tune for C's occurrence on a crosspoint that is switched, taken by a link that is ready. -/
theorem State.tuneCur_taken {s : State} {o : Occurrence} {x : Nat} (occ : s.seq.cur.occ = some o)
    (terminal : s.seq.cur.terminal = some x) (hs : s.Switched x) (up : s.link.state = .up)
    (remote : s.link.localFlag = false) (sound : s.link.faultCode = 0)
    (rest : s.link.op = .none ∨ s.link.op = .tuning ∨ s.link.op = .tuned) :
    ∃ ladder tripped p b, s.tuneCur = { s with
      link := { s.link with
        opTerminal := some x, permit := true, out := s.tuning o.prog.freq o.prog.mode o.prog.programme, seenClear := false
        tuneDeadline := some (s.now + s.cfg.tune * 1000), op := .tuning, ladder := ladder, tripped := tripped }
      pres := p, bus := b, seq := { s.seq with cur := s.seq.cur.goto .tuning } } := by
  obtain ⟨ladder, tripped, p, b, tuned, -⟩ := State.tune_taken (s := s.setCur (s.seq.cur.goto .tuning)) (k := o.key)
    (freq := o.prog.freq) (programme := o.prog.programme) (mode := o.prog.mode)
    (State.tuneRefusal_of_switched (s := s.setCur (s.seq.cur.goto .tuning)) ⟨hs.closed, hs.atRest, hs.held⟩ up remote sound
      rest)
  exact ⟨ladder, tripped, p, b, (State.tuneCur_eq occ terminal).trans tuned⟩

/-- R144: a Tune that the link refuses. -/
theorem State.tuneCur_refused {s : State} {o : Occurrence} {x : Nat} {r : TxRefusal} (occ : s.seq.cur.occ = some o)
    (terminal : s.seq.cur.terminal = some x) (refused : s.tuneRefusal x = some r) (hh : s.handed = []) :
    s.tuneCur = { s.setCur (s.seq.cur.goto .tuning) with handed := [.txRefused .tune r] } := by
  rw [State.tuneCur_eq occ terminal]
  unfold State.tune
  rw [show (s.setCur (s.seq.cur.goto .tuning)).tuneRefusal x = some r from refused]
  exact State.emit_of (s := s.setCur (s.seq.cur.goto .tuning)) hh _

/-- R175: a Tune that the link refuses is handed again. -/
theorem State.drainsTo_tuneRefused {s : State} {o : Occurrence} {x : Nat} {r : TxRefusal} (occ : s.seq.cur.occ = some o)
    (terminal : s.seq.cur.terminal = some x) (refused : s.tuneRefusal x = some r) (rests : s.seq.Rests)
    (hh : s.handed = []) : s.tuneCur.DrainsTo { s with seq := { s.seq with cur := { s.seq.cur.goto .tuning with
      retry := some { kind := .tune, due := s.now + 1000 } } } } 1 := by
  let a := s.setCur (s.seq.cur.goto .tuning)
  have none : ({ a with handed := [] } : State) = a := by rw [← hh]; rfl
  rw [State.tuneCur_refused occ terminal refused hh]
  refine drainsTo_one (s := a) ?_ ⟨rests.ending, rests.release, SeqState.noConfusion, rests.search⟩ hh
  rw [none]
  rfl

/-- R175: the Tune is handed again. -/
theorem State.retryNow_tune {s : State} {v : Nat} (retry : s.seq.cur.retry = some { kind := .tune, due := v })
    (state : s.seq.cur.state = .tuning) : s.retryNow = State.tuneCur (s.setCur { s.seq.cur with retry := none }) := by
  unfold State.retryNow
  simp only [retry, state]
  rfl

/-- Settles O54. -/
theorem refusedTuneIsHandedAgain : Obligations.RefusedTuneIsHandedAgain := by
  intro s t v o k calm state occ taken retry passed
  let a : State := (s.atTime t).setCur { s.seq.cur with retry := none }
  have rule : ruleOf (.sequencerRetry t) (s.atTime t) = a.tuneCur :=
    (if_pos (by simp [State.retryDue, State.reached, State.atTime, retry, passed])).trans
      (State.retryNow_tune (s := s.atTime t) retry state)
  have terminal : a.seq.cur.terminal = some k.terminal := by simp [a, State.setCur, Ctx.terminal, taken]
  refine ⟨fun up remote sound op join closed rest held => ?_, fun down => ?_⟩
  · obtain ⟨ladder, tripped, p, b, tuned⟩ := State.tuneCur_taken (s := a) occ terminal ⟨closed, rest, held⟩ up remote sound
      (.inl op)
    have issues : a.mayIssue = true := State.mayIssue_of join (by rw [show a.link.state = .up from up]; decide) remote
    exact ⟨_, exec_quiet (t := t) rfl (rule.trans tuned) calm.handed, rfl, rfl, rfl, rfl, rfl, rfl,
      State.tuning_records issues _ _ _, rfl, rfl, rfl, rfl⟩
  · have refused : a.tuneRefusal k.terminal = some .linkLost := if_pos (by simpa [a, State.atTime, State.setCur] using down)
    exact ⟨_, exec_drains rfl rule (State.drainsTo_tuneRefused occ terminal refused
      ⟨calm.ending, calm.release, calm.await, calm.search⟩ calm.handed), rfl, rfl, rfl, rfl, rfl⟩

/-! ## The recycle ramp (R150) -/

/-- R150: the recycle ramp starts. -/
theorem State.recycle_ramps {s : State} {p : RampParams} {v : Nat} (op : s.link.op = .recycle)
    (ramp : s.link.ramp = some p) (recycle : s.link.recycleAt = some v) (passed : v ≤ s.now) (line : s.tripLine = false) :
    s.recycle = s.startRamp p true := by
  unfold State.recycle
  simp [ramp, op, recycle, State.reached, passed, line]

/-- R150: before its time the recycle ramp does not start. -/
theorem State.recycle_waits {s : State} {v : Nat} (recycle : s.link.recycleAt = some v) (early : s.now < v) :
    s.recycle = s := by
  unfold State.recycle
  split
  · exact if_neg (by simp [recycle, State.reached, early])
  · rfl

/-- Settles O47. -/
theorem recycleRampStarts : Obligations.RecycleRampStarts := by
  intro s t v p c calm lower carry join known remote level op ramp recycle cmd
  let a : State := { s.atTime t with tripLine := false }
  have rule : c.time = some t ∧ ruleOf c (s.atTime t) = a.recycle := by
    rcases cmd with ⟨rfl, line⟩ | rfl
    · refine ⟨rfl, ?_⟩
      rw [show a = s.atTime t from congrArg (fun b => ({ s.atTime t with tripLine := b } : State)) line.symm]
      rfl
    · exact ⟨rfl, rfl⟩
  refine ⟨fun passed => ?_, fun early => ?_⟩
  · have issues : a.mayIssue = true := State.mayIssue_of join known remote
    have d := State.drainsTo_startRamp (s := a) level lower carry calm.rests calm.handed p true
    exact ⟨_, exec_drains rule.1 (rule.2.trans (State.recycle_ramps (s := a) op ramp recycle passed rfl)) d, rfl, rfl, rfl,
      rfl, rfl, rfl, State.ramping_records issues _, rfl, rfl, rfl, rfl⟩
  · exact exec_quiet (t := t) rfl (State.recycle_waits (s := a) recycle early) calm.handed

end Sys2Proof.Machine

/-! SUPPORT and PROOF. An emptied context whose carrier settles, and O44 and O46 (R146 to R148, R151, R165, R175, R177). -/

namespace Sys2Proof.Machine

/-! ## A change of the level with a Release that waits (R165) -/

/-- R165: what a change of the level leaves of the power share unit: at level 0 a Release that waits is made. -/
structure Power.AfterLevel (p q : Power) (level : Nat) : Prop where
  lower : q.pendingLower = none
  still : p.releasePending = false ∨ level ≠ 0 → q = p
  made  : p.releasePending = true → level = 0 → q.admitted = none ∧ q.request = none ∧ q.releasePending = false

/-- R165: with no lower that waits a change of the level moves the power share unit alone, with a NOTICE. -/
theorem State.powerLevel_of_lower {s : State} (lower : s.psu.pendingLower = none) :
    ∃ q, State.Noticed { s with psu := q } s.powerLevel ∧ s.psu.AfterLevel q s.link.level := by
  have settled : s.settleLower = s := by
    unfold State.settleLower
    simp [lower]
  unfold State.powerLevel
  rw [settled]
  by_cases waits : s.psu.releasePending = true ∧ s.link.level = 0
  · refine ⟨s.settleRelease.psu, ?_, s.settleRelease_waits lower |>.1, fun h => ?_, fun _ _ => ?_⟩
    · unfold State.settleRelease
      rw [if_pos (by simp [waits]), State.announce_psu]
      exact State.announce_noticed _
    · rcases h with h | h
      · simp [h] at waits
      · exact absurd waits.2 h
    · unfold State.settleRelease
      rw [if_pos (by simp [waits]), State.announce_psu]
      exact ⟨rfl, rfl, rfl⟩
  · refine ⟨s.psu, ?_, lower, fun _ => rfl, fun h k => absurd ⟨h, k⟩ waits⟩
    have still : s.settleRelease = s := if_neg (by simpa using waits)
    rw [still]
    exact State.Noticed.refl s

/-! ## An emptied context in ENDING (R177) -/

/-- R129: the opening of a terminal that is neither OPEN nor JAMMED is queued, or joined to its drive. -/
theorem State.openTerminal_quiet {s : State} {t : Nat}
    (h : ∀ x, s.mat.row t = some x → x.pos ≠ some .opened ∧ x.drive ≠ .jammed) :
    ∃ m, s.openTerminal t = { s with mat := m } := by
  unfold State.openTerminal
  dsimp only
  split
  · exact ⟨_, rfl⟩
  · rename_i x row
    obtain ⟨away, sound⟩ := h x row
    rw [if_neg (by simpa using sound), if_neg (by simp [away])]
    split
    · exact ⟨_, rfl⟩
    · split
      · exact ⟨_, rfl⟩
      · split <;> exact ⟨_, rfl⟩

/-- R129: the opening of a terminal at rest is queued. -/
theorem State.openTerminal_asked {s : State} {t : Nat} {x : XRow} (row : s.mat.row t = some x)
    (closed : x.pos = some .closed) (idle : x.drive = .idle) (rest : s.mat.active = none)
    (pending : s.mat.pendingClose = none) (work : s.mat.openWork = []) :
    s.openTerminal t = { s with mat := { s.mat with openWork := [{ terminal := t, purpose := .requested }] } } := by
  unfold State.openTerminal
  have there (p : Option PendingClose) : ({ s.mat with pendingClose := p } : Matrix).row t = some x := row
  simp only [there]
  simp [pending, idle, closed, rest, work, addOpen]

/-- R173, R174: an empty C has nothing to close, and a search that is not deferred is not handed. -/
theorem State.advance_tail {s : State} (occ : s.seq.cur.occ = none) (search : s.seq.nxt.deferred = false) (last : Bool) :
    (s.advanceAwait last).tryNextSearch = s := by
  have await : s.advanceAwait last = s := by
    unfold State.advanceAwait
    simp [occ]
  rw [await]
  unfold State.tryNextSearch
  split
  · rfl
  · simp [search]

theorem State.holderOf_none {s : State} {t : Nat} (cur : s.seq.cur.taken = none) (nxt : s.seq.nxt.terminal ≠ some t) :
    s.holderOf t = none := by
  unfold State.holderOf
  simp [Ctx.terminal, cur, show s.seq.nxt.taken.map (·.terminal) ≠ some t from nxt]

/-- R177: a terminal that no context holds is opened once the link has settled. -/
theorem State.advanceRelease_opens {s : State} {t : Nat} {last : Bool}
    (hr : s.seq.cur.release = some { terminal := t, stage := .settle, waitLink := false }) (free : s.holderOf t = none)
    (may : s.mayOpen last = true) : s.advanceRelease last = (s.startRelease t .opening false).openTerminal t := by
  unfold State.advanceRelease
  simp [hr, free, may]

/-- R177: C is IDLE once its ramp-down has settled, with a release under way. -/
def State.idled (s : State) (m : Matrix) (r : Option Release) : State := { s with
  mat := m
  seq := { s.seq with cur := { s.seq.cur with state := .idle, retry := none, closeWaits := false, release := r } } }

/-- R129, R177: a terminal to be released that is read CLOSED, with nothing else in hand, is being opened. -/
def State.Opens (s : State) (m : Matrix) (r' : Option Release) : Prop :=
  ∀ r x, s.seq.cur.release = some r → s.mat.row r.terminal = some x → x.pos = some .closed → x.drive = .idle →
    s.mat.active = none → s.mat.pendingClose = none → s.mat.openWork = [] →
    r' = some { r with stage := .opening } ∧ m = { s.mat with openWork := [{ terminal := r.terminal, purpose := .requested }] }

namespace State.Ending
variable {s : State} (h : s.Ending)
include h

/-- R177: the terminal to be released is held by no context. -/
theorem unheld {t : Nat} (hr : s.seq.cur.release = some { terminal := t, stage := .settle, waitLink := false }) :
    s.holderOf t = none := by
  obtain ⟨-, -, other, -⟩ := h.release _ hr
  exact State.holderOf_none h.taken other

/-- R171, R177: until the link has settled and all is taken an emptied C stays as it is. -/
theorem advance_waits {last : Bool} (waits : s.mayOpen last = false) : s.advance last = s := by
  have release : s.advanceRelease last = s := by
    unfold State.advanceRelease
    split
    · rename_i t hr
      simp [h.unheld hr, waits]
    · rfl
  unfold State.advance State.advanceEnding
  simp only [h.ending]
  rw [release]
  exact State.advance_tail h.occ h.search last

/-- R177: at SETTLED an emptied C is IDLE, and its terminal is opened. -/
theorem advance_settled (op : s.link.op = .none) : ∃ m r,
    (s.idled s.mat s.seq.cur.release).advance true = s.idled m r ∧ s.Opens m r := by
  let a : State := s.idled s.mat s.seq.cur.release
  have ending : a.advanceEnding = a := by
    unfold State.advanceEnding
    rw [show a.seq.ending = none from h.ending]
  have tail (m : Matrix) (r : Option Release) : ((s.idled m r).advanceAwait true).tryNextSearch = s.idled m r :=
    State.advance_tail (s := s.idled m r) h.occ h.search true
  rcases released : s.seq.cur.release with _ | ⟨t, stage, wait⟩
  · have stays : a.advanceRelease true = a := by
      unfold State.advanceRelease
      rw [show a.seq.cur.release = none from released]
    refine ⟨s.mat, s.seq.cur.release, ?_, fun r x hr => absurd (hr.symm.trans released) (by simp)⟩
    rw [← released]
    unfold State.advance
    rw [ending, stays]
    exact tail _ _
  · obtain ⟨settle, free, other, sound⟩ := h.release _ released
    have stage : stage = .settle := settle
    have wait : wait = false := free
    subst stage wait
    let r : Release := { terminal := t, stage := .opening, waitLink := false }
    have opens : a.advanceRelease true = (s.idled s.mat (some r)).openTerminal t := by
      refine (State.advanceRelease_opens (s := a) released ?_ ?_).trans ?_
      · exact State.holderOf_none (s := a) h.taken other
      · simp [State.mayOpen, State.searchHeld, a, State.idled, op, h.handed]
      · rfl
    obtain ⟨m, asked⟩ := State.openTerminal_quiet (s := s.idled s.mat (some r)) sound
    refine ⟨m, some r, ?_, fun q x hq row closed idle rest pending work => ?_⟩
    · rw [← released]
      unfold State.advance
      rw [ending, opens, asked]
      exact tail m (some r)
    · obtain rfl : q = { terminal := t, stage := .settle, waitLink := false } := Option.some.inj (hq.symm.trans released)
      have queued := State.openTerminal_asked (s := s.idled s.mat (some r)) row closed idle rest pending work
      exact ⟨rfl, congrArg State.mat (asked.symm.trans queued)⟩

end State.Ending

/-! ## The carrier settles (R148) -/

/-- R148: what the end of a carrier hands out: SETTLED, with no RF present. -/
def settledNews (rf : Bool) : List Handed := if rf then [] else [.txSettled]

/-- R148, R177: an emptied C once the carrier has been cut: with RF present nothing moves; with none it is IDLE, and its
terminal is opened. -/
structure State.SettledTo (s u : State) : Prop where
  link    : u.link = s.link
  map     : u.map = s.map
  log     : u.log = s.log
  line    : u.tripLine = s.tripLine
  waits   : s.rfPresent = true → u.seq = s.seq ∧ u.mat = s.mat
  settles : s.rfPresent = false → ∃ m r, u.seq = (s.idled m r).seq ∧ u.mat = m ∧ s.Opens m r

namespace State.Ending
variable {s : State} (h : s.Ending) (op : s.link.op = if s.rfPresent then .settling else .none)
include h

theorem takeSettled_eq : s.takeSettled = s.idled s.mat s.seq.cur.release := by
  have other : s.seq.cur.tunesAtSettled = false := by simp [Ctx.tunesAtSettled, h.state]
  unfold State.takeSettled
  rw [other]
  refine (if_neg Bool.false_ne_true).trans ((if_pos ?_).trans ?_)
  · simp [State.noRetry, State.setCur, h.state, h.occ]
  · simp [State.noRetry, State.setCur, State.idled, Ctx.goto, SeqState.place]

include op

/-- R148, R177: SETTLED is taken. -/
theorem drainsTo_settledNews : ∃ u, State.DrainsTo { s with handed := settledNews s.rfPresent } u 1 ∧ s.SettledTo u := by
  have none : ({ s with handed := [] } : State) = s := by rw [← h.handed]
  by_cases rf : s.rfPresent = true
  · rw [show settledNews s.rfPresent = [] from if_pos rf, none]
    exact ⟨s, fun k _ => State.drainsTo_self h.handed k (Nat.zero_le k), rfl, rfl, rfl, rfl, fun _ => ⟨rfl, rfl⟩,
      fun h => absurd (rf.symm.trans h) (by decide)⟩
  · rw [show settledNews s.rfPresent = [.txSettled] from if_neg rf]
    obtain ⟨m, r, advanced, opens⟩ := h.advance_settled (op.trans (if_neg rf))
    refine ⟨s.idled m r, State.DrainsTo.take (rest := []) (a := s.idled m r) rfl ?_ ?_,
      rfl, rfl, rfl, rfl, fun h => absurd h rf, fun _ => ⟨m, r, rfl, rfl, opens⟩⟩
    · rw [none]
      show (s.takeSettled).advance true = _
      rw [h.takeSettled_eq, advanced]
    · have e : ({ s.idled m r with handed := (s.idled m r).handed ++ [] } : State) = s.idled m r := by simp
      rw [e]
      exact State.drainsTo_self h.handed

/-- R148, R165, R177: the change of the level is taken first. -/
theorem drainsTo_settled (lower : s.psu.pendingLower = none) (old new : Nat) :
    ∃ u, State.DrainsTo { s with handed := levelNews old new ++ settledNews s.rfPresent } u 2 ∧ s.SettledTo u := by
  unfold levelNews
  split
  · obtain ⟨u, d, settled⟩ := h.drainsTo_settledNews op
    exact ⟨u, fun k hk => d k (by omega), settled⟩
  · have none : ({ s with handed := [] } : State) = s := by rw [← h.handed]
    obtain ⟨q, ⟨p, n, m, level, -⟩, -⟩ := State.powerLevel_of_lower lower
    let b : State := { s with
      psu := q, pres := p
      bus := { s.bus with notice := n, noticeNext := m } }
    have hb : b.Ending := ⟨h.handed, h.ending, h.state, h.occ, h.taken, h.release, h.search⟩
    obtain ⟨u, d, settled⟩ := hb.drainsTo_settledNews op
    have waits : b.mayOpen (settledNews s.rfPresent).isEmpty = false := by
      by_cases rf : s.rfPresent = true
      · simp [State.mayOpen, b, op, rf]
      · simp [State.mayOpen, settledNews, rf]
    refine ⟨u, State.DrainsTo.take (a := b) (rest := settledNews s.rfPresent) rfl ?_ ?_, settled.link, settled.map,
      settled.log, settled.line, settled.waits,
      settled.settles⟩
    · rw [none]
      show (s.powerLevel).advance _ = b
      rw [level]
      exact hb.advance_waits waits
    · have e : b.handed ++ settledNews s.rfPresent = settledNews b.rfPresent := by
        rw [show b.handed = [] from h.handed]
        rfl
      rw [e]
      exact d

end State.Ending

/-- R148: the link once the carrier has ended. -/
def State.endedLink (s : State) : Link := { s.link with
  out := s.issuing (.rf false), level := 0, plan := [], tuneDeadline := none, recycleAt := none, recycling := false
  permit := false, op := if s.rfPresent then .settling else .none
  opTerminal := if s.rfPresent then s.link.opTerminal else none }

/-- R148: with RF present the link settles; with none it has settled. -/
theorem State.trySettle_out (s : State) (l : Link) (hs : List Handed) :
    State.trySettle { s with
        link := { l with op := .settling }
        handed := hs }
      = { s with
        link := { l with
          op := if s.rfPresent then .settling else .none, opTerminal := if s.rfPresent then l.opTerminal else none }
        handed := hs ++ settledNews s.rfPresent } := by
  unfold State.trySettle settledNews
  by_cases rf : s.rfPresent = true
  · simp [rf]
  · simp [rf, State.emit]

theorem State.endCarrier_out (s : State) : s.endCarrier = { s with
    link := s.endedLink, handed := s.handed ++ levelNews s.link.level 0 ++ settledNews s.rfPresent } := by
  unfold State.endCarrier
  rw [State.rfOff_out]
  exact State.trySettle_out s { s.link with
    out := s.issuing (.rf false), level := 0, plan := [], tuneDeadline := none, recycleAt := none, recycling := false
    permit := false } _

/-- R148, R177: how a carrier that has ended settles. -/
theorem State.SettledTo.settles_of {s a u : State} (h : a.SettledTo u) (hs : a.seq = s.seq) (hm : a.mat = s.mat)
    (rf : a.rfPresent = s.rfPresent) (op : a.link.op = if s.rfPresent then .settling else .none)
    (terminal : s.rfPresent = false → a.link.opTerminal = none) (occ : s.seq.cur.occ = none) : s.Settles u where
  waits := fun present => by
    obtain ⟨seq, mat⟩ := h.waits (rf.trans present)
    exact ⟨by rw [h.link, op, if_pos present], seq.trans hs, mat.trans hm⟩
  settles := fun absent => by
    obtain ⟨m, r, seq, -, -⟩ := h.settles (rf.trans absent)
    rw [seq, h.link, op, absent, terminal absent]
    exact ⟨rfl, rfl, by show a.seq.nxt = _; rw [hs], rfl, by show a.seq.cur.occ = _; rw [hs]; exact occ⟩
  opens := fun absent r x hr row closed idle rest pending work => by
    obtain ⟨m, q, seq, mat, opens⟩ := h.settles (rf.trans absent)
    rw [← hs] at hr
    rw [← hm] at row rest pending work ⊢
    obtain ⟨hq, queued⟩ := opens r x hr row closed idle rest pending work
    exact ⟨by rw [seq]; exact hq, mat.trans queued⟩

/-- R148: LEVEL 0 before RF off. -/
theorem State.cutCarrier_out (s : State) : (s.issueLevel 0).endCarrier = { s with
    link := { s.endedLink with out := s.cutting }
    handed := s.handed ++ (levelNews s.link.level 0 ++ settledNews s.rfPresent) } := by
  rw [State.issueLevel_out, State.limited_zero, State.endCarrier_out]
  simp only [levelNews_self, List.append_nil, List.append_assoc]
  rfl

theorem State.Ending.atTime {s : State} (h : s.Ending) (t : Nat) : (s.atTime t).Ending :=
  ⟨h.handed, h.ending, h.state, h.occ, h.taken, h.release, h.search⟩

/-- Settles O46. -/
theorem tripOutsideARampIsRecorded : Obligations.TripOutsideARampIsRecorded := by
  intro s t line image
  let a : State := { s.atTime t with tripLine := true }
  have rule : ruleOf (.tripAsserted t) (s.atTime t) = a.takeTrip := by
    show State.tripIn _ = _
    unfold State.tripIn
    rw [show (s.atTime t).tripLine = false from line]
    exact (if_neg Bool.false_ne_true).trans (if_pos (Option.isSome_iff_ne_none.mpr image))
  refine ⟨fun hh elsewhere => ?_, fun h op remote lower => ?_⟩
  · have records : a.takeTrip = a.writeLog (.trip s.link.opTerminal 0 .none s.link.level s.link.forward) := by
      have uncounted : a.takeTrip = a.uncountedTrip := if_neg (by
        rcases elsewhere with ⟨up, steady, -⟩ | under
        · simp [a, State.atTime, up, steady]
        · simp [a, State.atTime, under])
      refine uncounted.trans (if_neg ?_)
      rcases elsewhere with ⟨-, -, down⟩ | under
      · simp [a, State.atTime, down]
      · simp [a, State.atTime, under]
    obtain ⟨r, newest, body⟩ := State.writeLog_newestBody a (.trip s.link.opTerminal 0 .none s.link.level s.link.forward)
    exact ⟨_, r, exec_quiet (t := t) rfl (rule.trans records) (by simpa [a] using hh), by simp [a], by simp [a], newest, body,
      by simp [a, State.atTime], by simp [a, State.atTime], by simp [a, State.atTime], by simp [a, State.atTime]⟩
  · let body : LogBody := .trip s.link.opTerminal 0 .ended s.link.level s.link.forward
    obtain ⟨l, b, written⟩ := a.writeLog_logged body
    obtain ⟨r, newest, named⟩ := State.writeLog_newestBody a body
    let x : State := { a with log := l, bus := b, link := a.link.stopWork }
    have ends : a.takeTrip = (x.issueLevel 0).endCarrier := by
      have uncounted : a.takeTrip = a.uncountedTrip := if_neg (by simp [a, State.atTime, op])
      refine uncounted.trans ((if_pos (by simp [a, State.atTime, op, remote])).trans ?_)
      show (State.issueLevel { a.writeLog body with link := (a.writeLog body).link.stopWork } 0).endCarrier = _
      rw [written]
    let y : State := { x with link := { x.endedLink with out := x.cutting } }
    have hy : y.Ending := ⟨h.handed, h.ending, h.state, h.occ, h.taken, h.release, h.search⟩
    obtain ⟨u, d, settled⟩ := hy.drainsTo_settled rfl lower x.link.level 0
    have shape : (x.issueLevel 0).endCarrier = { y with handed := levelNews x.link.level 0 ++ settledNews y.rfPresent } := by
      rw [State.cutCarrier_out, show x.handed = [] from h.handed, List.nil_append]
    refine ⟨u, r, exec_drains rfl (rule.trans (ends.trans shape)) d, settled.line, ?_, ?_, ?_, fun known join => ?_, ?_,
      named, settled.map, settled.settles_of rfl rfl rfl rfl (fun rf => ?_) h.occ⟩
    · rw [settled.link]
      rfl
    · rw [settled.link]
      rfl
    · rw [settled.link]
      rfl
    · rw [settled.link]
      exact State.cutting_records (s := x) (State.mayIssue_of join known remote)
    · rw [settled.log]
      rw [written] at newest
      exact newest
    · exact if_neg (by rw [show x.rfPresent = false from rf]; decide)

/-- R165, R177: a rung down is a change of the level alone, with the Release that waits for level 0. -/
theorem State.Ending.drainsTo_level {s : State} (h : s.Ending) (busy : s.link.op ≠ .none)
    (lower : s.psu.pendingLower = none) (old : Nat) : ∃ q p n m,
      State.DrainsTo { s with handed := levelNews old s.link.level } { s with
        psu := q, pres := p
        bus := { s.bus with notice := n, noticeNext := m } } 1
      ∧ (s.psu.releasePending = false ∨ s.link.level ≠ 0 → q = s.psu)
      ∧ (s.psu.releasePending = true → s.link.level = 0 → old ≠ 0 →
          q.admitted = none ∧ q.request = none ∧ q.releasePending = false) := by
  have none : ({ s with handed := [] } : State) = s := by rw [← h.handed]
  unfold levelNews
  split
  · rename_i same
    refine ⟨s.psu, s.pres, s.bus.notice, s.bus.noticeNext, ?_, fun _ => rfl, fun _ zero old => absurd (same.trans zero) old⟩
    rw [none]
    exact fun k _ => State.drainsTo_self h.handed k (Nat.zero_le k)
  · obtain ⟨q, ⟨p, n, m, level, -⟩, after⟩ := State.powerLevel_of_lower lower
    let b : State := { s with
      psu := q, pres := p
      bus := { s.bus with notice := n, noticeNext := m } }
    have hb : b.Ending := ⟨h.handed, h.ending, h.state, h.occ, h.taken, h.release, h.search⟩
    refine ⟨q, p, n, m, State.DrainsTo.take (a := b) (rest := []) rfl ?_ ?_, after.still, fun waits zero _ =>
      after.made waits zero⟩
    · rw [none]
      show (s.powerLevel).advance _ = b
      rw [level]
      exact hb.advance_waits (by simp [State.mayOpen, b, busy])
    · have e : ({ b with handed := b.handed ++ [] } : State) = b := by simp
      rw [e]
      exact State.drainsTo_self h.handed

/-- R175: the first time that the carrier has come up the occurrence is on the air. -/
theorem State.seqRamped_first {s : State} {o : Occurrence} (state : s.seq.cur.state = .ramping) (occ : s.seq.cur.occ = some o)
    (off : s.seq.cur.onAir = none) (level : Nat) : s.seqRamped level
      = (s.setCur
          { ({ s.seq.cur with offSecs := s.seq.cur.offAir s.now, offSince := none, retry := none } : Ctx).goto .onAir with
            onAir := some (s.lateness o) }).writeLog
          (.entryOn o.source o.number s.seq.cur.terminal s.seq.cur.admitted level (s.lateness o)) := by
  unfold State.seqRamped State.writeOn
  simp [state, occ, off]

/-- R146: a LEVEL of a ramp is at the lesser of its own value and the limit of the entry carrier. -/
theorem State.limited_of_ramp {s : State} {p : RampParams} (h : s.link.ramp = some p) (v : Nat) :
    s.limited v = min v (s.levelLimit p.carrier) := by
  unfold State.limited
  rw [h]
  rfl

/-- Settles O44. -/
theorem rungsMoveTheLevel : Obligations.RungsMoveTheLevel := by
  intro s t due p act rest join known remote lower ramp plan passed
  let x : State := { s.atTime t with link := { (s.atTime t).link with plan := rest } }
  have issues : x.mayIssue = true := State.mayIssue_of join known remote
  have reached (op : Operation) (h : s.link.op = op) : (s.atTime t).rungDue op = true := by
    simp [State.rungDue, State.reached, State.atTime, h, plan, passed]
  refine ⟨fun v hv => ?_, fun off h op => ?_⟩
  · intro kw
    have limit : x.limited v = kw := State.limited_of_ramp (s := x) ramp v
    let y : State := { x with link := { x.link with out := x.issuing (.level kw), level := kw } }
    have issued : x.issueLevel v = { y with handed := x.handed ++ levelNews s.link.level kw } := by
      rw [State.issueLevel_out, limit]
      rfl
    have records : y.link.out.map (·.record) = (s.atTime t).link.out.map (·.record) ++ [.level kw] :=
      State.issuing_records (s := x) issues _
    refine ⟨fun calm carry op => ?_, fun h op => ?_⟩
    · have rung : ruleOf (.rampRungDue t) (s.atTime t) = (x.issueLevel v).endRamp := by
        refine (if_pos (reached .rampUp op)).trans ?_
        unfold State.nextRung
        rw [show (s.atTime t).link.plan = _ from plan, hv]
      have none : ({ y with handed := [] } : State) = y := by rw [← calm.handed]; rfl
      have still : Still y .levelChanged := Still.level lower (fun hc => absurd (hc.symm.trans carry) (by decide)) calm.rests
      refine ⟨fun more => ?_, fun o last state occ off => ?_⟩
      · have ends : (x.issueLevel v).endRamp = { y with handed := levelNews s.link.level kw ++ [] } := by
          have left : rest.isEmpty = false := by simpa using more
          rw [issued, show x.handed = [] from calm.handed, List.append_nil]
          exact if_neg (by show ¬ rest.isEmpty = true; simp [left])
        have d : State.DrainsTo { y with handed := levelNews s.link.level kw ++ [] } y 1 :=
          State.DrainsTo.news rfl ⟨still.take, still.advance⟩ (by rw [none]; exact State.drainsTo_self calm.handed)
        exact ⟨y, exec_drains rfl (rung.trans ends) d, rfl, rfl, op, rfl, records, rfl, rfl, rfl, rfl, rfl⟩
      · subst last
        intro late
        let z : State := { y with link := { y.link with op := .steady, recycling := false } }
        have ends : (x.issueLevel v).endRamp
            = { z with handed := levelNews s.link.level kw ++ [.txRamped kw s.link.forward s.link.recycling] } := by
          rw [issued, show x.handed = [] from calm.handed]
          rfl
        let ramped : LogBody := .entryOn o.source o.number s.seq.cur.terminal s.seq.cur.admitted kw late
        have first : z.noRetry.seqRamped kw = _ := State.seqRamped_first (s := z.noRetry) state occ off kw
        have clear : ({ z with handed := [] } : State) = z := by rw [← calm.handed]; rfl
        have rests : (z.noRetry.seqRamped kw).seq.Rests := by
          rw [first, State.writeLog_seq]
          exact ⟨calm.ending, calm.release, SeqState.noConfusion, calm.search⟩
        have none : (z.noRetry.seqRamped kw).handed = [] := by
          rw [first, State.writeLog_handed]
          exact calm.handed
        have d := State.DrainsTo.news
          (s := { z with handed := levelNews s.link.level kw ++ [.txRamped kw s.link.forward s.link.recycling] }) rfl
          ⟨(Still.level (s := z) lower (fun hc => absurd (hc.symm.trans carry) (by decide)) calm.rests).take,
            (Still.level (s := z) lower (fun hc => absurd (hc.symm.trans carry) (by decide)) calm.rests).advance⟩
          (drainsTo_one (s := z) (congrArg (fun a => a.noRetry.seqRamped kw) clear) rests none)
        obtain ⟨r, newest, body⟩ := State.writeLog_newestBody
          (z.noRetry.setCur { ({ z.noRetry.seq.cur with
            offSecs := z.noRetry.seq.cur.offAir z.noRetry.now, offSince := .none, retry := .none } : Ctx).goto .onAir with
              onAir := some (z.noRetry.lateness o) }) ramped
        refine ⟨_, r, exec_drains rfl (rung.trans ends) d, ?_, ?_, ?_, ?_, ?_, ?_, ?_, ?_, ?_, body, ?_, ?_, ?_⟩
        all_goals rw [first]
        · rw [State.writeLog_link]; rfl
        · rw [State.writeLog_link]; rfl
        · rw [State.writeLog_link]; rfl
        · rw [State.writeLog_link]; rfl
        · rw [State.writeLog_link]; exact records
        · rw [State.writeLog_seq]; rfl
        · rw [State.writeLog_seq]; rfl
        · rw [State.writeLog_seq]; exact occ
        · exact newest
        · rw [State.writeLog_mat]; rfl
        · rw [State.writeLog_map]; rfl
        · rw [State.writeLog_psu]; rfl
    · obtain ⟨q, a, n, m, d, kept, made⟩ := State.Ending.drainsTo_level (s := y)
        ⟨h.handed, h.ending, h.state, h.occ, h.taken, h.release, h.search⟩
        (by rw [show y.link.op = .rampDown from op]; decide) lower s.link.level
      have rung : ruleOf (.rampDownRungDue t) (s.atTime t) = { y with handed := levelNews s.link.level kw } := by
        refine (if_pos (reached .rampDown op)).trans ?_
        unfold State.nextDownRung
        rw [show (s.atTime t).link.plan = _ from plan, hv]
        refine issued.trans ?_
        rw [show x.handed = [] from h.handed, List.nil_append]
      exact ⟨_, exec_drains rfl rung d, rfl, rfl, op, rfl, records, rfl, rfl, rfl, kept, made⟩
  · subst off
    let y : State := { s.atTime t with link := (s.atTime t).endedLink }
    have hy : y.Ending := ⟨h.handed, h.ending, h.state, h.occ, h.taken, h.release, h.search⟩
    obtain ⟨u, d, settled⟩ := hy.drainsTo_settled rfl lower s.link.level 0
    have rung : ruleOf (.rampDownRungDue t) (s.atTime t)
        = { y with handed := levelNews s.link.level 0 ++ settledNews y.rfPresent } := by
      refine (if_pos (reached .rampDown op)).trans ?_
      unfold State.nextDownRung
      rw [show (s.atTime t).link.plan = _ from plan]
      refine (State.endCarrier_out (s.atTime t)).trans ?_
      rw [show (s.atTime t).handed = [] from h.handed, List.nil_append]
      rfl
    refine ⟨u, exec_drains rfl rung d, ?_, ?_, ?_, ?_, settled.map,
      settled.settles_of rfl rfl rfl rfl (fun rf => if_neg (by rw [show (s.atTime t).rfPresent = false from rf]; decide)) h.occ⟩
    all_goals rw [settled.link]
    · rfl
    · rfl
    · rfl
    · exact State.issuing_records (s := s.atTime t) issues _

end Sys2Proof.Machine

/-! SUPPORT and PROOF. A sequencer with a release that waits elsewhere, and O42: the loss of the link (R141, R177, R180). -/

namespace Sys2Proof.Machine

/-! ## The power share unit alone (R157, R165) -/

/-- Only the power share unit has moved, with its INTENT and the NOTICE that tells of it. -/
def State.PowerOnly (s u : State) : Prop := ∃ q p b, u = { s with psu := q, pres := p, bus := b }

theorem State.PowerOnly.refl (s : State) : s.PowerOnly s := ⟨_, _, _, rfl⟩

theorem State.PowerOnly.trans {s a u : State} (h : s.PowerOnly a) (k : a.PowerOnly u) : s.PowerOnly u := by
  obtain ⟨q, p, b, rfl⟩ := h
  obtain ⟨q, p, b, rfl⟩ := k
  exact ⟨_, _, _, rfl⟩

theorem State.powerOnly_psu (s : State) (q : Power) : s.PowerOnly { s with psu := q } := ⟨_, _, _, rfl⟩

/-- The power share unit has moved in its phase, with no more than a NOTICE. -/
def State.PowerNoticed (s u : State) : Prop := ∃ q, State.Noticed { s with psu := q } u ∧ q.phase = s.psu.phase

theorem State.PowerNoticed.refl (s : State) : s.PowerNoticed s := ⟨s.psu, .refl s, rfl⟩

theorem State.PowerNoticed.trans {s a u : State} (h : s.PowerNoticed a) (k : a.PowerNoticed u) : s.PowerNoticed u := by
  obtain ⟨q, ⟨p, n, m, rfl, join⟩, phase⟩ := h
  obtain ⟨q', ⟨p', n', m', rfl, join'⟩, phase'⟩ := k
  exact ⟨q', ⟨_, _, _, rfl, join'.trans join⟩, phase'.trans phase⟩

theorem State.PowerNoticed.only {s u : State} (h : s.PowerNoticed u) : s.PowerOnly u := by
  obtain ⟨q, ⟨p, n, m, rfl, -⟩, -⟩ := h
  exact ⟨_, _, _, rfl⟩

theorem State.powerNoticed_announce (s : State) : s.PowerNoticed s.announce := ⟨_, s.announce_noticed, rfl⟩

theorem State.powerNoticed_psu (s : State) {q : Power} (h : q.phase = s.psu.phase) : s.PowerNoticed { s with psu := q } :=
  ⟨q, .refl _, h⟩

theorem State.powerNoticed_settleLower (s : State) : s.PowerNoticed s.settleLower := by
  unfold State.settleLower
  split
  · exact iteInduction (fun _ => .trans (s.powerNoticed_psu rfl) (State.powerNoticed_announce _)) fun _ => .refl s
  · exact .refl s

theorem State.powerNoticed_settleRelease (s : State) : s.PowerNoticed s.settleRelease :=
  iteInduction (fun _ => .trans (s.powerNoticed_psu rfl) (State.powerNoticed_announce _)) fun _ => .refl s

theorem State.powerNoticed_powerLevel (s : State) : s.PowerNoticed s.powerLevel :=
  s.powerNoticed_settleLower.trans (State.powerNoticed_settleRelease _)

theorem State.powerNoticed_lowerTo (s : State) (k : Nat) : s.PowerNoticed (s.lowerTo k) := by
  unfold State.lowerTo
  split
  · exact .refl s
  · exact iteInduction (fun _ => .trans (s.powerNoticed_psu rfl) (State.powerNoticed_settleLower _)) fun _ => .refl s

theorem State.powerOnly_placeWithdrawal (s : State) : s.PowerOnly s.placeWithdrawal := by
  unfold State.placeWithdrawal
  split
  · exact iteInduction (fun _ => ⟨_, _, _, rfl⟩) fun _ => .refl s
  · exact .refl s

theorem State.powerOnly_cancelAdmission (s : State) : s.PowerOnly s.cancelAdmission :=
  iteInduction (fun _ => .refl s) fun _ =>
    (iteInduction (motive := s.PowerOnly) (fun _ => s.powerOnly_placeWithdrawal) fun _ => .refl s).trans
      (State.powerOnly_psu _ _)

theorem State.powerOnly_releaseAdmission (s : State) : s.PowerOnly s.releaseAdmission :=
  (s.powerOnly_cancelAdmission.trans (State.powerOnly_psu _ _)).trans (State.powerNoticed_settleRelease _).only

/-! ## A sequencer whose release waits elsewhere (R177) -/

/-- R177: the sequencer does nothing of its own: a release under way waits for the link, the drive or the jam. -/
structure Sequencer.Quiet (q : Sequencer) : Prop where
  ending  : q.ending = none
  release : ∀ r, q.cur.release = some r → r.stage = .settle → r.waitLink = true
  await   : q.cur.state ≠ .awaitTerminal
  search  : q.nxt.deferred = false

theorem Sequencer.Rests.quiet {q : Sequencer} (h : q.Rests) : q.Quiet :=
  ⟨h.ending, fun _ hr => absurd (hr.symm.trans h.release) (by simp), h.await, h.search⟩

theorem Sequencer.Quiet.advance {s : State} (h : s.seq.Quiet) (last : Bool) : s.advance last = s := by
  have ending : s.advanceEnding = s := by unfold State.advanceEnding; rw [h.ending]
  have release : s.advanceRelease last = s := by
    unfold State.advanceRelease
    split
    · rename_i hr
      exact absurd (h.release _ hr rfl) Bool.false_ne_true
    · rfl
  have await : s.advanceAwait last = s := by
    unfold State.advanceAwait
    split
    · rw [if_pos (by simp [h.await])]
    · rfl
  have search : s.tryNextSearch = s := by
    unfold State.tryNextSearch
    split
    · rfl
    · rw [if_neg (by simp [h.search])]
  unfold State.advance
  rw [ending, release, await, search]

/-- A hand-out taken with more to come. -/
theorem State.DrainsTo.takeQuiet {s a u : State} {m : Handed} {rest : List Handed} {n : Nat} (hs : s.handed = m :: rest)
    (ha : State.take { s with handed := [] } m = a) (hr : a.seq.Quiet) (hh : a.handed = [])
    (d : State.DrainsTo { a with handed := rest } u n) : s.DrainsTo u (n + 1) := by
  refine State.DrainsTo.take hs (a := a) ?_ ?_
  · rw [ha, hr.advance]
  · rw [hh]
    exact d

/-- R147: a change of the level, if there is one, is taken before the rest. -/
theorem State.DrainsTo.level {s a u : State} {old new : Nat} {rest : List Handed} {n : Nat}
    (hs : s.handed = levelNews old new ++ rest) (still : old = new → a = { s with handed := [] })
    (ha : State.powerLevel { s with handed := [] } = a) (hr : a.seq.Quiet) (hh : a.handed = [])
    (d : State.DrainsTo { a with handed := rest } u n) : s.DrainsTo u (n + 1) := by
  by_cases same : old = new
  · have e : ({ a with handed := rest } : State) = s := by
      rw [still same, show rest = s.handed by rw [hs, levelNews, if_pos same, List.nil_append]]
    rw [e] at d
    exact fun k hk => d k (by omega)
  · rw [levelNews, if_neg same] at hs
    exact State.DrainsTo.takeQuiet hs ha hr hh d

/-- A state left quiet has nothing more to hand out. -/
theorem State.drainsTo_rest {s : State} (hh : s.handed = []) (n : Nat) : State.DrainsTo { s with handed := [] } s n := by
  rw [show ({ s with handed := [] } : State) = s by rw [← hh]]
  exact fun k _ => State.drainsTo_self hh k (Nat.zero_le k)

/-- R147, R165: a change of the level, if there is one, moves the power share unit alone. -/
theorem State.level_taken {s : State} (quiet : s.seq.Quiet) (hh : s.handed = []) (old new : Nat) :
    ∃ a, s.PowerNoticed a ∧ ∀ (u : State) (rest : List Handed) (n : Nat), State.DrainsTo { a with handed := rest } u n →
      State.DrainsTo { s with handed := levelNews old new ++ rest } u (n + 1) := by
  have none : ({ s with handed := [] } : State) = s := by rw [← hh]
  by_cases same : old = new
  · refine ⟨s, .refl s, fun u rest n d k hk => ?_⟩
    rw [levelNews, if_pos same]
    exact d k (by omega)
  · obtain ⟨q, ⟨p, n, m, level, -⟩, -⟩ := s.powerNoticed_powerLevel
    refine ⟨s.powerLevel, s.powerNoticed_powerLevel, fun u rest n d => ?_⟩
    rw [levelNews, if_neg same]
    exact State.DrainsTo.takeQuiet rfl (congrArg State.powerLevel none) (by rw [level]; exact quiet)
      (by rw [level]; exact hh) d

/-! ## SETTLED (R175, R180) -/

/-- R175, R180: SETTLED is nothing to an occurrence that neither waits for it nor for the handing again of a request. -/
theorem State.takeSettled_still {s : State} (retry : s.seq.cur.retry = none)
    (ending : s.seq.cur.state = .ending → s.seq.cur.occ ≠ none)
    (brk : s.seq.cur.breakable = true → s.seq.cur.brk ≠ some .permitMove ∧ s.seq.cur.brk ≠ some .permitOther) :
    s.takeSettled = s := by
  have noRetry : s.noRetry = s := by
    unfold State.noRetry State.setCur
    rw [← retry]
  have other : s.seq.cur.tunesAtSettled = false := by simp [Ctx.tunesAtSettled, retry]
  unfold State.takeSettled
  rw [other, noRetry]
  refine (if_neg Bool.false_ne_true).trans ?_
  unfold State.seqSettled
  dsimp only
  rw [if_neg (by simpa using ending)]
  split
  · rename_i h
    obtain ⟨move, other⟩ := brk h
    split
    · rename_i h
      exact absurd h move
    · rename_i h
      exact absurd h other
    · rfl
  · rfl

/-! ## The newest records (R184) -/

/-- R184: the last records of the air log, in the order in which they were written. -/
def AirLog.NewestAre (l : AirLog) (rs : List LogRecord) : Prop := l.ring.drop (l.ring.length - rs.length) = rs

theorem AirLog.newestAre_writeLog (s : State) (b : LogBody) : (s.writeLog b).log.NewestAre [s.recordOf b] := by
  refine (s.writeLog_newer b (n := 0) (by decide)).trans ?_
  rw [Nat.sub_zero, List.drop_length]
  rfl

theorem AirLog.NewestAre.writeLog {s : State} {rs : List LogRecord} (h : s.log.NewestAre rs) (few : rs.length < 64)
    (b : LogBody) : (s.writeLog b).log.NewestAre (rs ++ [s.recordOf b]) := by
  unfold AirLog.NewestAre at h ⊢
  rw [List.length_append]
  refine (s.writeLog_newer b few).trans ?_
  rw [h]

theorem AirLog.NewestAre.getLast? {l : AirLog} {rs : List LogRecord} {r : LogRecord} (h : l.NewestAre (rs ++ [r])) :
    l.ring.getLast? = some r := by
  unfold AirLog.NewestAre at h
  have split := List.take_append_drop (l.ring.length - (rs ++ [r]).length) l.ring
  rw [h] at split
  rw [← split]
  simp

/-! ## The loss of the link (R141) -/

/-- R141: the link once it is lost. -/
def State.lostLink (s : State) : Link := { s.link with
  state := .lost, lossDeadline := none, permit := false, out := s.link.emptyOut, lostOp := s.link.op, level := 0
  plan := [], tuneDeadline := none, recycleAt := none, recycling := false, op := if s.rfPresent then .settling else .none
  opTerminal := if s.link.op = .none ∨ s.rfPresent then s.link.opTerminal else none }

/-- R141, R153: what a cut of the operation hands out: its own notice, and SETTLED at last where there was one with no RF
present. -/
def State.cutNews (s : State) (m : Handed) : List Handed :=
  m :: if s.link.op = .none ∨ s.rfPresent then [] else [.txSettled]

/-- R141: what the loss hands out. -/
def State.lossNews (s : State) : List Handed := s.cutNews (.txLinkLost s.link.op)

/-- R141: the record of the loss. -/
def State.lossRecord (s : State) : LogBody := .linkLoss false s.link.op ((ownHeld s.map).map (·.1))

theorem State.loseLink_out (s : State) : ∃ l b, s.loseLink = { s with
      link := s.lostLink, log := l, bus := b, alert := { s.alert with linkLost := true }
      handed := s.handed ++ (levelNews s.link.level 0 ++ s.lossNews) }
    ∧ ∃ r, l.NewestAre [r] ∧ r.body = s.lossRecord := by
  let x : State := { s with
    link := { s.link with
      state := .lost, lossDeadline := none, permit := false, out := s.link.emptyOut, lostOp := s.link.op, level := 0 }
    handed := s.handed ++ levelNews s.link.level 0 }
  obtain ⟨l, b, written⟩ := x.writeLog_logged s.lossRecord
  have newest := AirLog.newestAre_writeLog x s.lossRecord
  rw [written] at newest
  refine ⟨l, b, ?_, _, newest, x.recordOf_body _⟩
  have step : s.loseLink = (State.emit { x.writeLog s.lossRecord with
      alert := { (x.writeLog s.lossRecord).alert with linkLost := true }
      link := { (x.writeLog s.lossRecord).link.stopWork with
        op := if s.link.op == .none && ! s.rfPresent then .none else .settling } }
      [.txLinkLost s.link.op]).trySettle := by
    unfold State.loseLink
    dsimp only
    rw [State.setLevel_eq]
    rfl
  rw [step, written]
  unfold State.trySettle State.lostLink State.lossNews State.cutNews State.emit
  by_cases rf : s.rfPresent = true
  · simp [rf, x, Link.stopWork]
  · by_cases idle : s.link.op = .none
    · simp [rf, x, idle, Link.stopWork]
    · simp [rf, x, idle, Link.stopWork]

/-- R141, R153: the notice of a cut is taken, and SETTLED after it is nothing more. -/
theorem State.drainsTo_cutNews {s b c : State} {m : Handed} (taken : State.take { b with handed := [] } m = c)
    (quiet : c.seq.Quiet) (hh : c.handed = []) (settled : c.takeSettled = c) :
    State.DrainsTo { b with handed := s.cutNews m } c 2 := by
  have none : ({ c with handed := [] } : State) = c := by rw [← hh]
  unfold State.cutNews
  refine State.DrainsTo.takeQuiet rfl taken quiet hh ?_
  split
  · rw [none]
    exact fun k _ => State.drainsTo_self hh k (Nat.zero_le k)
  · exact State.DrainsTo.takeQuiet rfl ((congrArg State.takeSettled none).trans settled) quiet hh
      (State.drainsTo_rest hh 0)

/-- R180: a break of the link by its loss, of an occurrence that has not been on the air. -/
theorem State.seqLinkLost_breaks {s : State} (breaks : s.seq.cur.breakable = true) (off : s.seq.cur.onAir = none)
    (brk : s.seq.cur.brk = none) : s.seqLinkLost = s.setCur (s.seq.cur.broken .link s.now) := by
  unfold State.seqLinkLost
  simp [breaks, off, brk]

/-- R172: the record of an occurrence that has been on the air. -/
theorem State.writeEnd_off {s : State} {c : Ctx} {o : Occurrence} {code : EndCode} (occ : c.occ = some o)
    (on : c.onAir.isSome = true) : s.writeEnd c code = s.writeLog (.entryOff o.source o.number code
      (c.terminal.or c.lastTerm) c.admitted c.trips (c.offAir s.now)) := by
  unfold State.writeEnd
  simp [occ, on]

/-- R180: the loss of the link ends the occurrence that has been on the air; its terminal waits for the link. -/
theorem State.seqLinkLost_ends {s : State} {o : Occurrence} {x : Nat} {rs : List LogRecord}
    (breaks : s.seq.cur.breakable = true) (occ : s.seq.cur.occ = some o) (on : s.seq.cur.onAir.isSome = true)
    (terminal : s.seq.cur.terminal = some x) (newest : s.log.NewestAre rs) (few : rs.length < 64) :
    ∃ l q p b, s.seqLinkLost = { s with
        log := l, psu := q, pres := p, bus := b
        seq := { s.seq with cur := { Ctx.reset with
          spent := s.seq.cur.key, release := some { terminal := x, stage := .settle, waitLink := true } } } }
      ∧ ∃ r, l.NewestAre (rs ++ [r]) ∧ r.body = .entryOff o.source o.number .lost (some x) s.seq.cur.admitted
          s.seq.cur.trips (s.seq.cur.offAir s.now) := by
  let off : LogBody := .entryOff o.source o.number .lost (some x) s.seq.cur.admitted s.seq.cur.trips
    (s.seq.cur.offAir s.now)
  have written : s.writeEnd s.seq.cur .lost = s.writeLog off := by
    rw [State.writeEnd_off occ on, terminal]
    rfl
  obtain ⟨l, b, logged⟩ := s.writeLog_logged off
  obtain ⟨q, p, m, released⟩ := (s.writeLog off).powerOnly_releaseAdmission
  have both := newest.writeLog few off
  rw [logged] at both
  refine ⟨l, q, p, m, ?_, _, both, s.recordOf_body off⟩
  have ends : s.seqLinkLost = (s.writeEnd s.seq.cur .lost).releaseAdmission.setCur { s.seq.cur.emptied .idle with
      spent := s.seq.cur.key, release := some { terminal := x, stage := .settle, waitLink := true } } := by
    unfold State.seqLinkLost
    simp [breaks, on, terminal, State.startRelease, State.setCur]
  rw [ends, written, released, logged]
  rfl

/-- R180: the states in which a break acts. -/
theorem Ctx.breakable_of {c : Ctx} (occ : c.occ.isSome = true)
    (state : c.state = .tuning ∨ c.state = .admitting ∨ c.state = .ramping ∨ c.state = .onAir ∨ c.state = .recycling) :
    c.breakable = true := by
  unfold Ctx.breakable
  rcases state with h | h | h | h | h <;> simp [occ, h]

/-- Settles O42. -/
theorem linkLossDropsPermit : Obligations.LinkLossDropsPermit := by
  intro s t v deadline passed lost record
  obtain ⟨l, b, loses, r, newest, named⟩ := (s.atTime t).loseLink_out
  let a : State := { s.atTime t with
    link := (s.atTime t).lostLink, log := l, bus := b, alert := { s.alert with linkLost := true } }
  have rule : ruleOf (.linkLossDeadline t) (s.atTime t) = (s.atTime t).loseLink :=
    if_pos (by simp [State.lossDue, State.reached, State.atTime, deadline, passed])
  have told (hh : s.handed = []) : ruleOf (.linkLossDeadline t) (s.atTime t)
      = { a with handed := levelNews s.link.level 0 ++ (s.atTime t).lossNews } := by
    rw [rule, loses, show (s.atTime t).handed = [] from hh, List.nil_append]
    rfl
  have is_lost {u : State} (hl : u.link = a.link) (ha : u.alert = a.alert) (hm : u.map = s.map) (hx : u.mat = s.mat) :
      lost u := by
    refine ⟨?_, ?_, ?_, ?_, ?_, ?_, ?_, ?_, ?_, ha, hm, hx⟩ <;> rw [hl]
    all_goals rfl
  have level (hh : s.handed = []) (low : s.psu.pendingLower = none) (carry : s.psu.releasePending = false) :
      State.powerLevel { a with handed := [] } = a := by
    rw [show ({ a with handed := [] } : State) = a by rw [← hh]; rfl]
    exact State.powerLevel_of_still low fun hc => absurd (hc.symm.trans carry) (by decide)
  refine ⟨fun h => ?_, fun calm occ state => ⟨fun off brk low carry => ?_, fun k x on taken hk => ?_⟩⟩
  · have quiet : a.seq.Quiet := h.rests.quiet
    have none : ({ a with handed := [] } : State) = a := by rw [← h.handed]; rfl
    have d := State.DrainsTo.level (s := { a with handed := levelNews s.link.level 0 ++ (s.atTime t).lossNews }) (a := a) rfl
      (fun _ => none.symm) (level h.handed h.lower h.carry) quiet h.handed
      (State.drainsTo_cutNews (s := s.atTime t) (m := .txLinkLost s.link.op) (b := a) (c := a)
        ((Still.txLinkLost (s := a) h.seq _).take.trans none) quiet h.handed
        (State.takeSettled_still (by rw [show a.seq = _ from h.seq]; rfl)
          (fun hs => by rw [show a.seq = _ from h.seq] at hs; cases hs)
          (fun hb => by rw [show a.seq = _ from h.seq] at hb; cases hb)))
    exact ⟨a, r, exec_drains rfl (told h.handed) d, is_lost rfl rfl rfl rfl, rfl, rfl, newest.getLast? (rs := []), named⟩
  · have breaks : a.noRetry.seq.cur.breakable = true := Ctx.breakable_of occ state
    let c : State := a.noRetry.setCur (a.noRetry.seq.cur.broken .link a.now)
    have lostNow : a.noRetry.seqLinkLost = c := State.seqLinkLost_breaks breaks off brk
    have none : ({ a with handed := [] } : State) = a := by rw [← calm.handed]; rfl
    have away : a.noRetry.seq.cur.goOff a.now = a.noRetry.seq.cur := if_neg (by
      rw [show a.noRetry.seq.cur.onAir = Option.none from off]; decide)
    have cur : c.seq.cur = { a.noRetry.seq.cur.goto .tuning with
        brk := some .link, heldStep := s.seq.cur.stands, former := Option.none } := by
      show Ctx.broken _ _ _ = _
      unfold Ctx.broken
      rw [away]
      rfl
    have quiet : c.seq.Quiet := Sequencer.Rests.quiet
      ⟨calm.ending, by rw [cur]; exact calm.release, by rw [cur]; exact SeqState.noConfusion, calm.search⟩
    have d := State.DrainsTo.level (s := { a with handed := levelNews s.link.level 0 ++ (s.atTime t).lossNews }) (a := a) rfl
      (fun _ => none.symm) (level calm.handed low carry) calm.rests.quiet calm.handed
      (State.drainsTo_cutNews (s := s.atTime t) (m := .txLinkLost s.link.op) (b := a) (c := c)
        (none ▸ lostNow) quiet calm.handed
        (State.takeSettled_still (by rw [cur]; rfl) (fun hs => by rw [cur] at hs; cases hs)
          (fun _ => by rw [cur]; exact ⟨by simp, by simp⟩)))
    refine ⟨c, r, exec_drains rfl (told calm.handed) d, is_lost rfl rfl rfl rfl, rfl, ?_, ?_, ?_, ?_, ?_, rfl,
      newest.getLast? (rs := []), named⟩
    all_goals rw [cur]
    all_goals rfl
  · obtain ⟨o, occ'⟩ := Option.isSome_iff_exists.mp occ
    have quiet : a.seq.Quiet := calm.rests.quiet
    obtain ⟨e, level, drains⟩ := State.level_taken (s := a) quiet calm.handed s.link.level 0
    obtain ⟨q, p, m, rfl⟩ := level.only
    let e : State := State.noRetry { a with psu := q, pres := p, bus := m }
    have terminal : e.seq.cur.terminal = some x := by
      show s.seq.cur.taken.map (·.terminal) = some x
      rw [taken, ← hk]
      rfl
    obtain ⟨l', q', p', m', lostNow, r', both, named'⟩ := State.seqLinkLost_ends (s := e) (Ctx.breakable_of occ state) occ' on
      terminal newest (by simp)
    let c : State := { e with
      log := l', psu := q', pres := p', bus := m'
      seq := { e.seq with cur := { Ctx.reset with
        spent := e.seq.cur.key, release := some { terminal := x, stage := .settle, waitLink := true } } } }
    have quiet : c.seq.Quiet :=
      ⟨calm.ending, fun _ hr _ => by rw [← Option.some.inj hr], SeqState.noConfusion, calm.search⟩
    have none : ({ a with psu := q, pres := p, bus := m, handed := [] } : State) =
      { a with psu := q, pres := p, bus := m } := by
      rw [← calm.handed]
      rfl
    have d := drains c _ _ (State.drainsTo_cutNews (s := s.atTime t) (m := .txLinkLost s.link.op) (c := c)
      ((congrArg (fun s => s.noRetry.seqLinkLost) none).trans lostNow) quiet calm.handed
      (State.takeSettled_still rfl (fun hs => by cases hs) (fun hb => by cases hb)))
    exact ⟨c, r, r', exec_drains rfl (told calm.handed) d, is_lost rfl rfl rfl rfl, rfl, both, named, fun o₂ h₂ => by
      obtain rfl : o = o₂ := Option.some.inj (occ'.symm.trans h₂)
      exact ⟨_, named'⟩⟩

end Sys2Proof.Machine

/-! SUPPORT and PROOF. The terminal given up, and O43: the tune limit (R102, R105, R145, R177, R179). -/

namespace Sys2Proof.Machine

/-! ## A terminal that is given up (R101, R179) -/

/-- R179: C once its terminal has been given up. -/
def Ctx.gaveUp (c : Ctx) (t : Nat) (stage : ReleaseStage) (now : Nat) : Ctx :=
  let given : Ctx := { c with
    givenUp := c.givenUp ++ [t], offSince := if c.onAir.isSome then c.offSince.or (some now) else none
    lastTerm := some t, stands := false, heldStep := false, former := none, brk := none
    release := some { terminal := t, stage := stage, waitLink := false } }
  { given.goto .claiming with taken := none, closeAgain := false, cap := 100 }

/-- R101: the candidate is exhausted. -/
def Claim.without (c : Claim) (o : Occurrence) (t : Nat) : Claim :=
  { c with marks := List.zipWith (fun m x => if x == t then .exhausted else m) c.marks o.prog.cands }

@[simp] theorem Bus.placeLogrec_claim (b : Bus) (r : LogRecord) : (b.placeLogrec r).claim = b.claim := by
  unfold Bus.placeLogrec; split
  · rfl
  · split <;> rfl

@[simp] theorem Bus.placeLogrec_fault (b : Bus) (r : LogRecord) : (b.placeLogrec r).fault = b.fault := by
  unfold Bus.placeLogrec; split
  · rfl
  · split <;> rfl

@[simp] theorem Bus.placeLogrec_free (b : Bus) (r : LogRecord) : (b.placeLogrec r).free = b.free := by
  unfold Bus.placeLogrec; split
  · rfl
  · split <;> rfl

@[simp] theorem State.writeLog_claimSlot (s : State) (b : LogBody) : (s.writeLog b).bus.claim = s.bus.claim := by
  rw [State.writeLog_bus]; split <;> simp

@[simp] theorem State.writeLog_faultSlot (s : State) (b : LogBody) : (s.writeLog b).bus.fault = s.bus.fault := by
  rw [State.writeLog_bus]; split <;> simp

@[simp] theorem State.writeLog_freeSlot (s : State) (b : LogBody) : (s.writeLog b).bus.free = s.bus.free := by
  rw [State.writeLog_bus]; split <;> simp

/-- R165: with no admission in progress a Release places nothing but a NOTICE. -/
theorem State.releaseAdmission_noticed {s : State} (phase : s.psu.phase = .none) :
    ∃ q, State.Noticed { s with psu := q } s.releaseAdmission ∧ q.phase = .none := by
  rw [State.releaseAdmission_eq phase]
  unfold State.settleRelease
  split
  · exact ⟨_, State.announce_noticed _, phase⟩
  · exact ⟨_, .refl _, phase⟩

theorem State.exhaust_of {s : State} {o : Occurrence} (phase : s.claim.phase = .booked) (serves : s.claim.occ = some o)
    (t : Nat) : s.exhaust t = { s with claim := s.claim.without o t } := by
  unfold State.exhaust
  split
  · rename_i idle
    exact absurd (idle.symm.trans phase) (by decide)
  · rename_i none _
    exact absurd (none.symm.trans serves) (by simp)
  · rename_i own _
    obtain rfl := Option.some.inj (own.symm.trans serves)
    rfl

/-- R101, R179: a terminal of the occurrence that the engine serves is given up with a record, and the walk goes on. -/
theorem State.giveUp_walks {s : State} {o : Occurrence} {rs : List LogRecord} (occ : s.seq.cur.occ = some o)
    (phase : s.claim.phase = .booked) (serves : s.claim.occ = some o) (power : s.psu.phase = .none)
    (newest : s.log.NewestAre rs) (few : rs.length < 64) (t : Nat) (cause : FaultCause) (stage : ReleaseStage) :
    ∃ l q p b, s.giveUp t cause stage = State.walk { s with
        log := l, psu := q, pres := p, bus := b, claim := s.claim.without o t
        seq := { s.seq with cur := s.seq.cur.gaveUp t stage s.now } }
      ∧ (∃ r, l.NewestAre (rs ++ [r]) ∧ r.body = .terminalFault o.source o.number t cause)
      ∧ q.phase = .none ∧ p.join = s.pres.join ∧ b.claim = s.bus.claim ∧ b.fault = s.bus.fault
      ∧ b.free = s.bus.free := by
  let fault : LogBody := .terminalFault o.source o.number t cause
  obtain ⟨l, b, logged⟩ := s.writeLog_logged fault
  have both := newest.writeLog few fault
  have claim := s.writeLog_claimSlot fault
  have slot := s.writeLog_faultSlot fault
  have free := s.writeLog_freeSlot fault
  rw [logged] at both claim slot free
  obtain ⟨q, ⟨p, n, m, released, join⟩, idle⟩ := State.releaseAdmission_noticed (s := { s with log := l, bus := b }) power
  refine ⟨l, q, p, { b with notice := n, noticeNext := m }, ?_, ⟨_, both, s.recordOf_body fault⟩, idle, join, claim, slot, free⟩
  have serving : s.claim.serving = some o.key := by simp [Claim.serving, phase, serves]
  have same : (s.claim.without o t).serving = some o.key := by simp [Claim.serving, Claim.without, phase, serves]
  have given : (s.writeLog fault).releaseAdmission = { s with
      log := l, psu := q, pres := p
      bus := { b with notice := n, noticeNext := m } } := by
    rw [logged, released]
  let c : Ctx := { s.seq.cur with
    givenUp := s.seq.cur.givenUp ++ [t]
    offSince := if s.seq.cur.onAir.isSome then s.seq.cur.offSince.or (some s.now) else none
    lastTerm := some t, stands := false, heldStep := false, former := none, brk := none
    release := some { terminal := t, stage := stage, waitLink := false } }
  let e : State := { s with
    log := l, psu := q, pres := p
    bus := { b with notice := n, noticeNext := m }
    seq := { s.seq with cur := c } }
  have gives : s.giveUp t cause stage = (if e.claim.serving == some o.key then e.exhaust t else e).reclaim := by
    unfold State.giveUp
    dsimp only
    split
    · rename_i none
      exact absurd (none.symm.trans occ) (by simp)
    · rename_i o' own
      obtain rfl : o' = o := Option.some.inj (own.symm.trans occ)
      rw [given]
      rfl
  have exhausts : e.exhaust t = { e with claim := s.claim.without o t } := State.exhaust_of (s := e) phase serves t
  rw [gives, if_pos (by rw [show e.claim.serving = _ from serving]; exact beq_self_eq_true _), exhausts]
  unfold State.reclaim State.resumeCur
  refine (if_pos ?_).trans (if_pos ?_)
  · simp only [State.setCur, Ctx.key, Ctx.goto, same, occ, e, c, Option.map_some, beq_self_eq_true]
  · simp [State.setCur, Claim.without, phase]

/-- R105: with every candidate exhausted the search has ended. -/
theorem State.walk_exhausted {s : State} {o : Occurrence} (occ : s.claim.occ = some o)
    (last : s.claim.index = o.prog.cands.length) (skipped : s.claim.skipped = false)
    (all : ∀ m ∈ s.claim.marks, m = .exhausted) (hh : s.handed = []) :
    s.walk = { s with claim := s.claim.idle, handed := [.exhausted o.key] } := by
  have ends : s.walk = s.endWalk := by
    unfold State.walk walkFuel State.walkFrom
    simp [occ, last, skipped]
  have told : (s.claim.occ.map fun o => Handed.exhausted o.key).toList = [.exhausted o.key] := by simp [occ]
  refine ends.trans ((if_pos (List.all_eq_true.mpr fun m hm => by simp [all m hm])).trans ?_)
  rw [told]
  exact State.emit_of (s := { s with claim := s.claim.idle }) hh _

/-! ## A release that begins with the end of a search (R177) -/

/-- R177: the terminal of a context that has let it go waits to be opened, and nothing else is under way. -/
structure State.LetsGo (s : State) (t : Nat) : Prop where
  ending  : s.seq.ending = none
  release : s.seq.cur.release = some { terminal := t, stage := .settle, waitLink := false }
  taken   : s.seq.cur.taken = none
  await   : s.seq.cur.state ≠ .awaitTerminal
  search  : s.seq.nxt.deferred = false

namespace State.LetsGo
variable {s : State} {t : Nat} (h : s.LetsGo t)
include h

theorem advanceEnding : s.advanceEnding = s := by
  unfold State.advanceEnding
  rw [h.ending]

/-- R177: it waits while the link, another hand-out or a search does not let it be opened. -/
theorem waits {last : Bool} (may : s.mayOpen last = false) : s.advance last = s := by
  have release : s.advanceRelease last = s := by
    unfold State.advanceRelease
    simp only [h.release, Ctx.terminal, h.taken, may]
    split <;> rfl
  have quiet : (s.advanceAwait last).tryNextSearch = s := by
    have await : s.advanceAwait last = s := by
      unfold State.advanceAwait
      simp [Ctx.terminal, h.taken]
    rw [await]
    unfold State.tryNextSearch
    split
    · rfl
    · simp [h.search]
  unfold State.advance
  rw [h.advanceEnding, release, quiet]

/-- R177: it is opened once all is taken, with the crosspoint at rest. -/
theorem opens {x : XRow} (other : s.seq.nxt.terminal ≠ some t) (may : s.mayOpen true = true)
    (row : s.mat.row t = some x) (closed : x.pos = some .closed)
    (idle : x.drive = .idle) (rest : s.mat.active = none) (pending : s.mat.pendingClose = none)
    (work : s.mat.openWork = []) : s.advance true = { s with
      mat := { s.mat with openWork := [{ terminal := t, purpose := .requested }] }
      seq := { s.seq with cur := { s.seq.cur with
        release := some { terminal := t, stage := .opening, waitLink := false } } } } := by
  let a := s.startRelease t .opening false
  have release : s.advanceRelease true = { a with
      mat := { s.mat with openWork := [{ terminal := t, purpose := .requested }] } } :=
    (State.advanceRelease_opens h.release (State.holderOf_none h.taken other) may).trans
      (State.openTerminal_asked (s := a) row closed idle rest pending work)
  unfold State.advance
  rw [h.advanceEnding, release]
  have await : State.advanceAwait { a with
      mat := { s.mat with openWork := [{ terminal := t, purpose := .requested }] } } true = { a with
      mat := { s.mat with openWork := [{ terminal := t, purpose := .requested }] } } := by
    unfold State.advanceAwait
    simp [a, State.startRelease, State.setCur, Ctx.terminal, h.taken]
  rw [await]
  unfold State.tryNextSearch
  split
  · rfl
  · exact if_neg (by simp [a, State.startRelease, State.setCur, h.search])

end State.LetsGo

/-! ## The end of a search that found nothing (R179) -/

theorem State.closing_slots (s : State) (code : EndCode) :
    (s.closing code).bus.fault = s.bus.fault ∧ (s.closing code).bus.free = s.bus.free := by
  have kept : ∀ u, (∃ b, u = s.writeLog b) ∨ u = s → u.bus.fault = s.bus.fault ∧ u.bus.free = s.bus.free := by
    rintro u (⟨b, rfl⟩ | rfl)
    · exact ⟨s.writeLog_faultSlot b, s.writeLog_freeSlot b⟩
    · exact ⟨rfl, rfl⟩
  refine kept _ ?_
  unfold State.closing State.writeEnd
  split
  · exact .inr rfl
  · split
    · exact .inr rfl
    · split <;> exact .inl ⟨_, rfl⟩

/-- R171, R179: the occurrence ends with its record and its admission, and C is IDLE. -/
theorem State.endSearch_closes {s : State} (found : s.seq.foundOffer = false) (power : s.psu.phase = .none) (code : EndCode)
    (spent : Option OccKey) : ∃ q p b, s.endSearch code spent = { s with
        log := (s.closing code).log, psu := q, pres := p, bus := b
        seq := { s.seq with cur := { s.seq.cur.emptied .idle with spent := spent } } }
      ∧ b.fault = s.bus.fault ∧ b.free = s.bus.free := by
  obtain ⟨slot, free⟩ := s.closing_slots code
  obtain ⟨l, b, closed⟩ := s.closing_logged code
  obtain ⟨q, ⟨p, n, m, released, -⟩, -⟩ := State.releaseAdmission_noticed (s := s.closing code)
    (by rw [closed]; exact power)
  refine ⟨q, p, { (s.closing code).bus with notice := n, noticeNext := m }, ?_, slot, free⟩
  have ends : s.endSearch code spent = ((s.closing code).releaseAdmission.setCur
      { s.seq.cur.emptied .idle with spent := spent }).offerEnds := rfl
  rw [ends, released, closed]
  exact if_neg (by simpa [State.setCur] using found)

/-- R179: a search that the occurrence waits for has found nothing. -/
theorem State.take_exhausted {s : State} {o : Occurrence} (occ : s.seq.cur.occ = some o) (ending : s.seq.ending = none)
    (found : s.seq.foundOffer = false) (power : s.psu.phase = .none) :
    ∃ q p b, s.take (.exhausted o.key) = { s with
        log := (s.closing .lost).log, psu := q, pres := p, bus := b
        seq := { s.seq with cur := { s.seq.cur.emptied .idle with spent := some o.key } } }
      ∧ b.fault = s.bus.fault ∧ b.free = s.bus.free := by
  obtain ⟨q, p, b, closes, slots⟩ := State.endSearch_closes found power .lost (some o.key)
  refine ⟨q, p, b, ?_, slots⟩
  have own : s.seqExhausted o.key = s.endSearch .lost (some o.key) :=
    if_pos (beq_iff_eq.mpr (congrArg (Option.map Occurrence.key) occ))
  have idle : (s.endSearch .lost (some o.key)).seq.ending = none := by rw [closes]; exact ending
  show (s.seqExhausted o.key).endOn o.key = _
  rw [own, State.endOn_none idle, closes]

/-- Settles O43. -/
theorem tuneLimitEndsTheTuning : Obligations.TuneLimitEndsTheTuning := by
  intro s t v x o k row calm found op opTerminal deadline passed state occ taken hk off other power phase serves index
    skipped normal hrow closed idle rest pending work detuned opening given
  let a : State := State.noRetry { s.atTime t with link := detuned }
  have rule : ruleOf (.tuneDeadline t) (s.atTime t)
      = { s.atTime t with link := detuned, handed := [.txTuneFailed (some x) true] } := by
    refine (if_pos (by simp [State.tuneDue, State.reached, State.atTime, op, deadline, passed])).trans ?_
    refine (State.emit_of (s := { s.atTime t with link := detuned }) calm.handed _).trans ?_
    rw [show (s.atTime t).link.opTerminal = some x from opTerminal]
  have terminal : a.seq.cur.terminal = some x := by
    show s.seq.cur.taken.map (·.terminal) = some x
    rw [taken, ← hk]
    rfl
  obtain ⟨l, q, p, b, walks, ⟨r, newest, named⟩, power', join, claim, -⟩ := State.giveUp_walks (s := a)
    (rs := []) occ phase serves
    power (by simp [AirLog.NewestAre]) (by decide) x .tuneFailed .settle
  let w : State := { a with
    log := l, psu := q, pres := p, bus := b, claim := a.claim.without o x
    seq := { a.seq with cur := a.seq.cur.gaveUp x .settle a.now } }
  have taken' : State.take { s.atTime t with link := detuned, handed := [] } (.txTuneFailed (some x) true) = w.walk := by
    rw [show ({ s.atTime t with link := detuned, handed := [] } : State) = { s.atTime t with link := detuned } by
      rw [← calm.handed]; rfl]
    refine (if_pos (by simp [State.atTime, state])).trans ((if_pos ?_).trans walks)
    exact beq_iff_eq.mpr terminal
  have furthest : ∀ g, s.seq.cur.furthest = some g → (g = .tuning ∨ g = .admitting ∨ g = .ramping) →
      w.seq.cur.furthest = some g := fun g hg late => by
    show (if ((s.seq.cur.furthest.map SeqState.place).getD 0) < SeqState.claiming.place then some .claiming
      else s.seq.cur.furthest) = some g
    rw [hg]
    rcases late with rfl | rfl | rfl <;> rfl
  refine ⟨fun cands marks => ?_, fun y ts ms cands marks away clean usable unowned undedicated joined empty => ?_⟩
  · let e : State := { w with claim := w.claim.idle }
    have all : ∀ m ∈ w.claim.marks, m = .exhausted := by
      simp [w, a, State.noRetry, State.setCur, State.atTime, Claim.without, cands, marks]
    have ended : w.walk = { e with handed := [.exhausted o.key] } :=
      State.walk_exhausted (s := w) serves (index.trans (by simp [cands])) skipped all calm.handed
    have none : ({ e with handed := [] } : State) = e := by rw [← calm.handed]; rfl
    obtain ⟨q', p', b', closes, -⟩ := State.take_exhausted (s := e) occ calm.ending found power'
    let f : State := { e with
      log := (e.closing .lost).log, psu := q', pres := p', bus := b'
      seq := { e.seq with cur := { e.seq.cur.emptied .idle with spent := some o.key } } }
    have exhausted : State.take { e with handed := [] } (.exhausted o.key) = f := by rw [none, closes]
    have go : f.LetsGo x := ⟨calm.ending, rfl, rfl, SeqState.noConfusion, calm.search⟩
    have may : f.mayOpen true = true := by
      simp [State.mayOpen, State.searchHeld, show f.handed = [] from calm.handed, show f.link.op = .none from rfl,
        show f.seq.cur.state = .idle from rfl]
    have opened := go.opens other may hrow closed idle rest pending work
    have still : State.LetsGo { e with handed := [.exhausted o.key] } x :=
      ⟨calm.ending, rfl, rfl, SeqState.noConfusion, calm.search⟩
    let u : State := { f with
      mat := opening
      seq := { f.seq with cur := { f.seq.cur with release := some { terminal := x, stage := .opening, waitLink := false } } } }
    have last : State.DrainsTo { e with handed := [.exhausted o.key] } u 1 := by
      refine State.DrainsTo.take (rest := []) rfl (a := u) ((congrArg (State.advance · true) exhausted).trans opened) ?_
      rw [List.append_nil]
      exact State.drainsTo_self calm.handed
    have d : State.DrainsTo { s.atTime t with link := detuned, handed := [.txTuneFailed (some x) true] } u 2 := by
      refine State.DrainsTo.take (rest := []) rfl (a := { e with handed := [.exhausted o.key] })
        ((congrArg (State.advance · true) (taken'.trans ended)).trans (still.waits ?_)) last
      simp [State.mayOpen]
    refine ⟨u, exec_drains rfl rule d, rfl, rfl, rfl, rfl, rfl, fun fresh => ⟨r, ?_, named⟩, fun g ran late hg many =>
      ⟨r, e.recordOf (.entryMissed o.source o.number .lost g), ?_, named, e.recordOf_body _⟩⟩
    · show (e.closing .lost).log.ring.getLast? = some r
      rw [State.closing_unrun (s := e) off fresh]
      exact newest.getLast? (rs := [])
    · show (e.closing .lost).log.NewestAre [r, _]
      rw [State.closing_missed (s := e) occ off ran late (furthest g hg many)]
      exact AirLog.NewestAre.writeLog (s := e) newest (by simp) _
  · have marked : w.claim.marks = .exhausted :: .opened :: List.zipWith
      (fun m c => if c == x then .exhausted else m) ms ts := by
      simp [w, a, State.noRetry, State.setCur, State.atTime, Claim.without, cands, marks, away]
    have one : w.claim.index = 1 := index
    have claims := State.walk_claims (s := w) serves (x := y) (by rw [one, cands]; rfl) (by rw [one, marked]; rfl) clean usable
      unowned undedicated (join.trans joined) (claim.trans empty)
    let f : State := { w with
      bus := { w.bus with
        claim := some { terminal := y, cls := o.prog.cls, since := w.claim.since, till := w.claim.till } }
      claim := { w.claim with index := w.claim.index + 1, terminal := some y, crossing := [], phase := .placed } }
    have go : f.LetsGo x := ⟨calm.ending, rfl, rfl, SeqState.noConfusion, calm.search⟩
    have may : f.mayOpen true = true := by
      simp [State.mayOpen, State.searchHeld, show f.handed = [] from calm.handed, show f.link.op = .none from rfl,
        show f.claim.phase = .placed from rfl]
    have opened := go.opens other may hrow closed idle rest pending work
    let u : State := { f with
      mat := opening
      seq := { f.seq with cur := { f.seq.cur with release := some { terminal := x, stage := .opening, waitLink := false } } } }
    have d : State.DrainsTo { s.atTime t with link := detuned, handed := [.txTuneFailed (some x) true] } u 1 := by
      refine State.DrainsTo.take (rest := []) rfl (a := u)
        ((congrArg (State.advance · true) (taken'.trans claims)).trans opened) ?_
      rw [List.append_nil]
      exact State.drainsTo_self calm.handed
    refine ⟨u, r, exec_drains rfl rule d, rfl, rfl, rfl, rfl, rfl, rfl, ?_, rfl, occ, rfl, rfl, rfl,
      newest.getLast? (rs := []), named⟩
    rw [show u.claim.marks = w.claim.marks from rfl, marked]
    rfl

end Sys2Proof.Machine

/-! SUPPORT and PROOF. A counted trip, and O45 (R149, R150, R165, R179). -/

namespace Sys2Proof.Machine

/-- A hand-out that waits on a state with no other is taken, with more to come. -/
theorem State.DrainsTo.taken {e a u : State} {m : Handed} {rest : List Handed} {n : Nat} (hh : e.handed = [])
    (ha : e.take m = a) (hr : a.seq.Quiet) (ha' : a.handed = []) (d : State.DrainsTo { a with handed := rest } u n) :
    State.DrainsTo { e with handed := m :: rest } u (n + 1) := by
  refine State.DrainsTo.takeQuiet rfl ?_ hr ha' d
  rw [← ha, show ({ e with handed := [] } : State) = e by rw [← hh]]

/-- The only hand-out is taken, and leaves what then drains. -/
theorem State.DrainsTo.takenOnly {e a u : State} {m : Handed} {n : Nat} (hh : e.handed = []) (ha : e.take m = a)
    (hr : a.seq.Rests) (d : a.DrainsTo u n) : State.DrainsTo { e with handed := [m] } u (n + 1) := by
  refine State.DrainsTo.only rfl ?_ hr d
  rw [← ha, show ({ e with handed := [] } : State) = e by rw [← hh]]

/-! ## A counted trip (R149) -/

/-- R149: the number of a trip. -/
def Ladder.number (l : Ladder) (now : Nat) : Nat :=
  if l.last.any fun v => decide (v + 120000 < now) then 1 else min (l.count + 1) 4

theorem Ladder.counted_eq (l : Ladder) (now : Nat) :
    l.counted now = { l with count := l.number now, last := some now } := by
  unfold Ladder.counted Ladder.number
  rcases l with ⟨key, terminal, count, _ | v⟩
  · rfl
  · by_cases late : v + 120000 < now <;> simp [tripWindowMs, late]

/-- R149: the link once a trip has been counted. -/
def State.trippedLink (s : State) (l : Ladder) : Link := { s.link with
  ladder := some { l with count := l.number s.now, last := some s.now }, plan := [], recycling := false
  out := s.cutting, level := 0, tripped := true }

theorem State.setTripped_noticed (s : State) :
    State.Noticed { s with link := { s.link with tripped := true } } s.setTripped := by
  unfold State.setTripped
  split
  · rename_i h
    rw [show ({ s with link := { s.link with tripped := true } } : State) = s by rw [← h]]
    exact .refl s
  · exact State.noticeChange_noticed _

/-- R149: a counted trip is recorded, and the action follows. -/
theorem State.countTrip_acts {s : State} {l : Ladder} (ladder : s.link.ladder = some l) :
    ∃ g p b, s.countTrip = State.takeTripAction { s with
        link := s.trippedLink l, log := g, pres := p, bus := b
        handed := s.handed ++ levelNews s.link.level 0 } (l.number s.now) (tripAction (l.number s.now))
      ∧ p.join = s.pres.join ∧ b.fault = s.bus.fault
      ∧ ∃ r, g.NewestAre [r] ∧ r.body
        = .trip s.link.opTerminal (l.number s.now) (tripAction (l.number s.now)) s.link.level s.link.forward := by
  let body : LogBody :=
    .trip s.link.opTerminal (l.number s.now) (tripAction (l.number s.now)) s.link.level s.link.forward
  let x : State := { s with link := { s.link with
    ladder := some (l.counted s.now), plan := [], recycling := false } }
  have counts : s.countTrip = (x.cutRf.setTripped.writeLog (.trip x.cutRf.setTripped.link.opTerminal (l.number s.now)
      (tripAction (l.number s.now)) s.link.level x.cutRf.setTripped.link.forward)).takeTripAction (l.number s.now)
      (tripAction (l.number s.now)) := by
    unfold State.countTrip
    simp only [ladder, Option.map_some, Option.getD_some, Ladder.counted_eq, x]
  obtain ⟨p, n, m, tripped, join⟩ := x.cutRf.setTripped_noticed
  obtain ⟨g, b, logged⟩ := x.cutRf.setTripped.writeLog_logged body
  have newest := AirLog.newestAre_writeLog x.cutRf.setTripped body
  have slot := x.cutRf.setTripped.writeLog_faultSlot body
  rw [logged] at newest slot
  refine ⟨g, p, b, ?_, join.trans ?_, slot.trans ?_, _, newest, State.recordOf_body _ body⟩
  · have fields : x.cutRf.setTripped.link.opTerminal = s.link.opTerminal
        ∧ x.cutRf.setTripped.link.forward = s.link.forward := by
      rw [tripped, State.cutRf_out]
      exact ⟨rfl, rfl⟩
    rw [counts, fields.1, fields.2, logged, tripped, State.cutRf_out]
    simp only [x, Ladder.counted_eq]
    rfl
  · rw [State.cutRf_out]
  · rw [tripped, State.cutRf_out]

/-! ## The occurrence after a trip (R179) -/

/-- R162: a unit that is not in WAIT chooses nothing. -/
theorem State.chooseIfWaiting_still {s : State} (h : s.psu.phase ≠ .wait) : s.chooseIfWaiting = s :=
  if_neg (by simpa using h)

/-- R165: with no admission under way STEP-LOWER moves the power share unit, with no more than a NOTICE. -/
theorem State.powerNoticed_takeStepLower {s : State} (h : s.psu.phase = .none) (k : Nat) :
    s.PowerNoticed (s.takeStepLower k) := by
  have lowers := (s.powerNoticed_psu (q := { s.psu with tripCap := k }) rfl).trans (State.powerNoticed_lowerTo _ k)
  obtain ⟨q, ⟨p, n, m, lowered, -⟩, phase⟩ := id lowers
  unfold State.takeStepLower
  rw [State.chooseIfWaiting_still (by rw [lowered]; exact (phase.trans h).trans_ne PowerPhase.noConfusion)]
  exact lowers

/-- R165: with no admission under way a suspect notice moves the power share unit, with no more than a NOTICE. -/
theorem State.powerNoticed_powerSuspect {s : State} (h : s.psu.phase = .none) (t : Nat) (on : Bool) :
    s.PowerNoticed (s.powerSuspect t on) := by
  refine iteInduction (fun _ => ?_) fun _ => .refl s
  have lowers := (s.powerNoticed_psu (q := { s.psu with suspectCap := if on then some 50 else none }) rfl).trans
    (State.powerNoticed_lowerTo _ 100)
  obtain ⟨q, ⟨p, n, m, lowered, -⟩, phase⟩ := id lowers
  dsimp only
  rw [State.chooseIfWaiting_still (by rw [lowered]; exact (phase.trans h).trans_ne PowerPhase.noConfusion)]
  exact lowers

/-- R146: a suspect notice is nothing to a link without a carrier. -/
theorem State.linkSuspect_still {s : State} (off : s.onCarrier = false) (t : Nat) (on : Bool) : s.linkSuspect t on = s := by
  unfold State.linkSuspect
  rw [show (s.link.op == .rampUp || s.link.op == .steady || s.link.op == .recycle) = false from off]
  split
  · rfl
  · exact if_neg (by simp)

/-- R179: the occurrence that has tripped waits to be ramped up again. -/
def Ctx.recycling (c : Ctx) (number now : Nat) (step : Option Nat) : Ctx :=
  { ({ c with
      trips := number, former := none
      offSince := if c.onAir.isSome then some now else c.offSince }).goto .recycling with admitted := step }

theorem State.seqTrip_recycles {s : State} {o : Occurrence} (occ : s.seq.cur.occ = some o)
    (state : s.seq.cur.state ≠ .admitting) (number step : Nat) {action : TripAction} (h : action ≠ .exhausted) :
    s.seqTrip number action step = s.setCur (s.seq.cur.recycling number s.now
      (if action = .stepLower then some step else s.seq.cur.admitted)) := by
  unfold State.seqTrip
  simp only [occ]
  cases action with
  | exhausted => exact absurd rfl h
  | none | recycle | stepLower | ended => simp [Ctx.recycling, Ctx.goto, occ, state]

/-- R149: an operation that trips with the ladder's count. -/
def State.Tripped (s u : State) (l : Ladder) : Prop :=
  u.tripLine = true ∧ u.link.level = 0 ∧ u.link.plan = [] ∧ u.link.tripped = true
    ∧ u.link.ladder = some { l with count := l.number s.now, last := some s.now } ∧ u.store = s.store ∧ u.mat = s.mat
    ∧ u.link.out = s.cutting

/-- R150: a trip before the fourth is followed by a recycle ramp. -/
theorem State.countTrip_recycles {s : State} {l : Ladder} {p : RampParams} {o : Occurrence} (ladder : s.link.ladder = some l)
    (ramp : s.link.ramp = some p) (rests : s.seq.Rests) (hh : s.handed = []) (power : s.psu.phase = .none)
    (line : s.tripLine = true) (occ : s.seq.cur.occ = some o) (state : s.seq.cur.state ≠ .admitting)
    (few : l.number s.now ≤ 3) :
    ∃ u r, s.countTrip.DrainsTo u 4 ∧ s.Tripped u l ∧ u.log.NewestAre [r]
      ∧ r.body = .trip s.link.opTerminal (l.number s.now) (tripAction (l.number s.now)) s.link.level s.link.forward
      ∧ u.link.op = .recycle ∧ u.link.recycleAt = some (s.now + 5000) ∧ u.link.permit = s.link.permit
      ∧ u.link.ramp = some (if l.number s.now = 3 then
          { p with step := lowerStep p.step, target := s.targetOf p.carrier (lowerStep p.step) } else p)
      ∧ u.seq.cur.state = .recycling ∧ u.seq.cur.occ = some o ∧ u.seq.cur.trips = l.number s.now := by
  obtain ⟨g, pr, b, acts, -, -, r, newest, named⟩ := s.countTrip_acts ladder
  let z : State := { s with
    link := { s.trippedLink l with
      op := .recycle, recycleAt := some (s.now + recycleMs)
      ramp := some (if l.number s.now = 3 then
        { p with step := lowerStep p.step, target := s.targetOf p.carrier (lowerStep p.step) } else p) }
    log := g, pres := pr, bus := b }
  have tail (e : State) (only : z.PowerOnly e) (step : Nat) : ∃ u,
      State.DrainsTo { e with handed := [.txTrip (l.number s.now) (tripAction (l.number s.now)) step] } u 1
      ∧ u.log = z.log ∧ u.link = z.link ∧ u.tripLine = true ∧ u.store = s.store ∧ u.mat = s.mat
      ∧ u.seq.cur.state = .recycling ∧ u.seq.cur.occ = some o ∧ u.seq.cur.trips = l.number s.now := by
    obtain ⟨q, p, b, rfl⟩ := only
    let e : State := { z with psu := q, pres := p, bus := b }
    have action : tripAction (l.number s.now) ≠ .exhausted := by
      unfold tripAction
      split
      · exact TripAction.noConfusion
      · rw [if_pos (by simp; omega)]
        exact TripAction.noConfusion
    have recycles := State.seqTrip_recycles (s := e.noRetry) occ state (l.number s.now) step action
    let c : State := e.noRetry.setCur (e.noRetry.seq.cur.recycling (l.number s.now) e.now
      (if tripAction (l.number s.now) = .stepLower then some step else e.noRetry.seq.cur.admitted))
    refine ⟨c, State.DrainsTo.taken (e := e) (a := c) hh recycles ?_ hh (State.drainsTo_rest (s := c) hh 0), rfl, rfl,
      line, rfl, rfl, rfl, occ, rfl⟩
    exact ⟨rests.ending, fun _ hr => absurd (hr.symm.trans rests.release) (by simp), SeqState.noConfusion, rests.search⟩
  obtain ⟨e, level, drains⟩ := State.level_taken (s := z) rests.quiet hh s.link.level 0
  have told : ∃ u, s.countTrip.DrainsTo u 4
      ∧ u.log = z.log ∧ u.link = z.link ∧ u.tripLine = true ∧ u.store = s.store ∧ u.mat = s.mat
      ∧ u.seq.cur.state = .recycling ∧ u.seq.cur.occ = some o ∧ u.seq.cur.trips = l.number s.now := by
    rw [acts, hh, List.nil_append]
    by_cases third : l.number s.now = 3
    · have phase : e.psu.phase = .none := by
        obtain ⟨q, ⟨p, n, m, rfl, -⟩, phase⟩ := level
        exact phase.trans power
      have quiet : ∀ u, e.PowerOnly u → u.seq.Quiet ∧ u.handed = [] := by
        obtain ⟨q, p, b, rfl⟩ := level.only
        rintro u ⟨q, p, b, rfl⟩
        exact ⟨rests.quiet, hh⟩
      have lowers := (State.powerNoticed_takeStepLower phase (lowerStep p.step)).only
      obtain ⟨u, d, fields⟩ := tail _ (level.only.trans lowers) (lowerStep p.step)
      refine ⟨u, ?_, fields⟩
      have e3 : State.takeTripAction { s with
          link := s.trippedLink l, log := g, pres := pr, bus := b, handed := levelNews s.link.level 0 }
          (l.number s.now) (tripAction (l.number s.now)) = { z with
          handed := levelNews s.link.level 0 ++ [.powerStepLower (lowerStep p.step),
            .txTrip (l.number s.now) (tripAction (l.number s.now)) (lowerStep p.step)] } := by
        have action : tripAction (l.number s.now) = .stepLower := by rw [third]; rfl
        simp only [z, third, if_true]
        unfold State.takeTripAction State.lowerRamp State.trippedLink
        simp only [ramp, Option.map_some, Option.getD_some]
        rfl
      rw [e3]
      exact fun k hk => drains _ _ 2 (State.DrainsTo.taken (a := e.takeStepLower (lowerStep p.step))
        (quiet e (.refl e)).2 rfl (quiet _ lowers).1 (quiet _ lowers).2 d) k (by omega)
    · obtain ⟨u, d, fields⟩ := tail _ level.only p.step
      refine ⟨u, ?_, fields⟩
      have e2 : State.takeTripAction { s with
          link := s.trippedLink l, log := g, pres := pr, bus := b, handed := levelNews s.link.level 0 }
          (l.number s.now) (tripAction (l.number s.now)) = { z with
          handed := levelNews s.link.level 0 ++
            [.txTrip (l.number s.now) (tripAction (l.number s.now)) p.step] } := by
        have action : tripAction (l.number s.now) = .recycle := if_pos (by omega)
        simp only [action, z, third, if_false, ← ramp]
        unfold State.takeTripAction State.trippedLink
        simp only [ramp, Option.map_some, Option.getD_some]
        rfl
      rw [e2]
      exact fun k hk => drains _ _ _ d k (by omega)
  obtain ⟨u, d, hg, hl, line, store, mat, state, occ, trips⟩ := told
  refine ⟨u, r, d, ?_, by rw [hg]; exact newest, named, ?_, ?_, ?_, ?_, state, occ, trips⟩
  · unfold State.Tripped
    rw [hl]
    exact ⟨line, rfl, rfl, rfl, rfl, store, mat, rfl⟩
  all_goals rw [hl]
  all_goals rfl

/-! ## The fourth trip (R150, R179) -/

/-- R52, R79: a FAULT for a terminal is placed, and the terminal is marked. -/
theorem State.ownFault_marks (s : State) (t : Nat) (reason : FaultReason) (minutes : Nat) :
    ∃ m bad, s.ownFault t reason minutes = { s with
        bus := s.bus.placeFault { terminal := t, reason := reason, minutes := minutes }, map := m, handed := s.handed ++ bad }
      ∧ (bad = [] ∨ bad = [.suspect t true]) :=
  ⟨_, _, rfl, (ite_eq_or_eq _ _ _).symm⟩

theorem Bus.placeFault_free {b : Bus} (h : b.fault = none) (f : FaultFrame) : (b.placeFault f).fault = some f := by
  unfold Bus.placeFault
  rw [h]

/-- R80, R146, R165, R175: with no admission under way and no carrier a suspect notice moves the power share unit, with no
more than a NOTICE, and the caps of the contexts. -/
theorem State.takeSuspect_still {s : State} (power : s.psu.phase = .none) (off : s.onCarrier = false) (t : Nat)
    (on : Bool) : ∃ e, s.PowerNoticed e ∧ s.takeSuspect t on = { e with
      seq := { s.seq with cur := s.seq.cur.capAt (some t) on, nxt := s.seq.nxt.capAt (some t) on } } := by
  have moved := State.powerNoticed_powerSuspect power t on
  obtain ⟨q, ⟨p, n, m, suspects, -⟩, -⟩ := id moved
  refine ⟨_, moved, ?_⟩
  unfold State.takeSuspect
  rw [State.linkSuspect_still (by rw [suspects]; exact off), suspects]
  rfl

/-- Of a context only the cap and the suspect mark of its terminal have moved. -/
def Ctx.Capped (c d : Ctx) : Prop :=
  ∃ cap taken, d = { c with cap := cap, taken := taken } ∧ taken.map (·.terminal) = c.taken.map (·.terminal)

theorem Ctx.Capped.refl (c : Ctx) : c.Capped c := ⟨c.cap, c.taken, rfl, rfl⟩

theorem Ctx.capAt_capped (c : Ctx) (t : Option Nat) (on : Bool) : c.Capped (c.capAt t on) := by
  unfold Ctx.capAt
  split
  · refine ⟨_, _, rfl, ?_⟩
    rw [Option.map_map]
    rfl
  · exact .refl c

/-- R179: the occurrence that gives up its last candidate after trips has ended LOST. -/
theorem State.lastTrip_ends {s : State} {o : Occurrence} {x late : Nat} {rs : List LogRecord} (op : s.link.op = .settling)
    (hh : s.handed = []) (quiet : s.seq.Quiet) (found : s.seq.foundOffer = false) (occ : s.seq.cur.occ = some o)
    (terminal : s.seq.cur.terminal = some x) (on : s.seq.cur.onAir = some late) (cands : o.prog.cands = [x])
    (phase : s.claim.phase = .booked) (serves : s.claim.occ = some o) (index : s.claim.index = 1)
    (skipped : s.claim.skipped = false) (marks : s.claim.marks = [.opened]) (power : s.psu.phase = .none)
    (newest : s.log.NewestAre rs) (few : rs.length < 63) :
    ∃ u b c, State.DrainsTo { s with handed := [.txTripExhausted (some x)] } u 2
      ∧ u.link = s.link ∧ u.mat = s.mat ∧ u.store = s.store ∧ u.tripLine = s.tripLine ∧ u.bus.fault = s.bus.fault
      ∧ u.seq.cur = { Ctx.reset with
          spent := some o.key, release := some { terminal := x, stage := .settle, waitLink := false } }
      ∧ u.log.NewestAre (rs ++ [b, c]) ∧ b.body = .terminalFault o.source o.number x .trips
      ∧ ∃ off, c.body = .entryOff o.source o.number .lost (some x) s.seq.cur.admitted s.seq.cur.trips off := by
  let a : State := s.noRetry
  obtain ⟨l, q, p, b, walks, ⟨r, both, named⟩, power', -, -, slot, -⟩ := State.giveUp_walks (s := a) occ phase serves power
    newest (by omega) x .trips .settle
  let w : State := { a with
    log := l, psu := q, pres := p, bus := b, claim := a.claim.without o x
    seq := { a.seq with cur := a.seq.cur.gaveUp x .settle a.now } }
  let e : State := { w with claim := w.claim.idle }
  have all : ∀ m ∈ w.claim.marks, m = .exhausted := by
    simp [w, a, State.noRetry, State.setCur, Claim.without, cands, marks]
  have ended : s.take (.txTripExhausted (some x)) = { e with handed := [.exhausted o.key] } := by
    refine (if_pos (beq_iff_eq.mpr ?_)).trans (walks.trans ?_)
    · exact terminal
    · exact State.walk_exhausted (s := w) serves (index.trans (by simp [cands])) skipped all hh
  obtain ⟨q', p', b', closes, slot', -⟩ := State.take_exhausted (s := e) occ quiet.ending found power'
  let f : State := { e with
    log := (e.closing .lost).log, psu := q', pres := p', bus := b'
    seq := { e.seq with cur := { e.seq.cur.emptied .idle with spent := some o.key } } }
  have waits (s : State) (h : s.link.op = .settling) (last : Bool) : s.mayOpen last = false := by simp [State.mayOpen, h]
  have gone : State.LetsGo { e with handed := [.exhausted o.key] } x :=
    ⟨quiet.ending, rfl, rfl, SeqState.noConfusion, quiet.search⟩
  have go : f.LetsGo x := ⟨quiet.ending, rfl, rfl, SeqState.noConfusion, quiet.search⟩
  have none : ({ e with handed := [] } : State) = e := by rw [← hh]; rfl
  have exhausted : State.take { e with handed := [] } (.exhausted o.key) = f := by rw [none, closes]
  have last : State.DrainsTo { e with handed := [.exhausted o.key] } f 1 := by
    refine State.DrainsTo.take (rest := []) rfl (a := f)
      ((congrArg (State.advance · true) exhausted).trans (go.waits (waits f op _))) ?_
    rw [List.append_nil]
    exact State.drainsTo_self hh
  have next : State.DrainsTo { s with handed := [.txTripExhausted (some x)] } f 2 := by
    have still := gone.waits (waits { e with handed := [.exhausted o.key] } op true)
    have told : State.take { s with handed := [] } (.txTripExhausted (some x)) = { e with handed := [.exhausted o.key] } := by
      rw [show ({ s with handed := [] } : State) = s by rw [← hh], ended]
    exact State.DrainsTo.take (rest := []) rfl ((congrArg (State.advance · true) told).trans still) last
  have away : a.seq.cur.onAir.isSome = true := by rw [show a.seq.cur.onAir = some late from on]; rfl
  have off : e.closing .lost = e.writeLog (.entryOff o.source o.number .lost (some x) s.seq.cur.admitted s.seq.cur.trips
      (e.seq.cur.offAir e.now)) := State.closing_off (s := e) occ away
  refine ⟨f, r, e.recordOf (.entryOff o.source o.number .lost (some x) s.seq.cur.admitted s.seq.cur.trips
      (e.seq.cur.offAir e.now)), next, rfl, rfl, rfl, rfl, slot'.trans slot, rfl, ?_, named, e.seq.cur.offAir e.now,
    e.recordOf_body _⟩
  show (e.closing .lost).log.NewestAre _
  rw [off]
  have three := AirLog.NewestAre.writeLog (s := e) both (by simp; omega) (.entryOff o.source o.number .lost (some x)
    s.seq.cur.admitted s.seq.cur.trips (e.seq.cur.offAir e.now))
  rw [List.append_assoc] at three
  exact three

/-- R150, R179: the occurrence that has had its last trip, on its last candidate, has ended LOST. -/
theorem State.tripExhausted_ends {s : State} {o : Occurrence} {x late : Nat} {rs : List LogRecord} (op : s.link.op = .settling)
    (hh : s.handed = []) (quiet : s.seq.Quiet) (found : s.seq.foundOffer = false) (occ : s.seq.cur.occ = some o)
    (terminal : s.seq.cur.terminal = some x) (on : s.seq.cur.onAir = some late) (cands : o.prog.cands = [x])
    (phase : s.claim.phase = .booked) (serves : s.claim.occ = some o) (index : s.claim.index = 1)
    (skipped : s.claim.skipped = false) (marks : s.claim.marks = [.opened]) (power : s.psu.phase = .none)
    (newest : s.log.NewestAre rs) (few : rs.length < 63) (step : Nat) :
    ∃ u b c, State.DrainsTo { s with handed := [.txTrip 4 .exhausted step, .txTripExhausted (some x)] } u 3
      ∧ u.link = s.link ∧ u.mat = s.mat ∧ u.store = s.store ∧ u.tripLine = s.tripLine ∧ u.bus.fault = s.bus.fault
      ∧ u.seq.cur = { Ctx.reset with
          spent := some o.key, release := some { terminal := x, stage := .settle, waitLink := false } }
      ∧ u.log.NewestAre (rs ++ [b, c]) ∧ b.body = .terminalFault o.source o.number x .trips
      ∧ ∃ off, c.body = .entryOff o.source o.number .lost (some x) s.seq.cur.admitted 4 off := by
  let y : State := s.noRetry.setCur { s.noRetry.seq.cur with trips := 4 }
  have counted : s.take (.txTrip 4 .exhausted step) = y := by
    show s.noRetry.seqTrip 4 .exhausted step = y
    unfold State.seqTrip
    simp only [show s.noRetry.seq.cur.occ = some o from occ, y]
  have still : y.seq.Quiet := ⟨quiet.ending, quiet.release, quiet.await, quiet.search⟩
  obtain ⟨u, b, c, d, fields⟩ := State.lastTrip_ends (s := y) op hh still found occ terminal on cands phase serves index skipped
    marks power newest few
  exact ⟨u, b, c, State.DrainsTo.taken hh counted still hh d, fields⟩

/-- R150: the fourth trip ends the operation, and the terminal is given up. -/
theorem State.countTrip_exhausts {s : State} {l : Ladder} {o : Occurrence} {k : Taken} {late : Nat}
    (ladder : s.link.ladder = some l) (rests : s.seq.Rests) (hh : s.handed = []) (found : s.seq.foundOffer = false)
    (occ : s.seq.cur.occ = some o) (taken : s.seq.cur.taken = some k) (same : k.terminal = l.terminal)
    (on : s.seq.cur.onAir = some late) (cands : o.prog.cands = [l.terminal]) (phase : s.claim.phase = .booked)
    (serves : s.claim.occ = some o) (index : s.claim.index = 1) (skipped : s.claim.skipped = false)
    (marks : s.claim.marks = [.opened]) (power : s.psu.phase = .none) (line : s.tripLine = true) (rf : s.rfPresent = true)
    (fourth : l.number s.now = 4) :
    ∃ u a b c, s.countTrip.DrainsTo u 5 ∧ s.Tripped u l ∧ u.link.permit = false ∧ u.link.op = .settling
      ∧ u.log.NewestAre [a, b, c]
      ∧ a.body = .trip s.link.opTerminal 4 .exhausted s.link.level s.link.forward
      ∧ b.body = .terminalFault o.source o.number l.terminal .trips
      ∧ (∃ step off, c.body = .entryOff o.source o.number .lost (some l.terminal) step 4 off)
      ∧ u.seq.cur = { Ctx.reset with
          spent := some o.key, release := some { terminal := l.terminal, stage := .settle, waitLink := false } }
      ∧ (s.bus.fault = none → u.bus.fault = some { terminal := l.terminal, reason := .reflected, minutes := 30 }) := by
  obtain ⟨g, pr, b, acts, -, slot, r, newest, named⟩ := s.countTrip_acts ladder
  rw [fourth] at acts named
  let frame : FaultFrame := { terminal := l.terminal, reason := .reflected, minutes := faultMinutes }
  let z (m : List TermRow) : State := { s with
    link := { s.trippedLink l with tuneDeadline := none, recycleAt := none, permit := false, op := .settling }
    log := g, pres := pr, bus := b.placeFault frame, map := m }
  let step := (s.link.ramp.map (·.step)).getD 25
  obtain ⟨m, bad, suspects, only⟩ : ∃ m bad, s.countTrip = { z m with
      handed := levelNews s.link.level 0 ++ (bad ++ [.txTrip 4 .exhausted step, .txTripExhausted (some l.terminal)]) }
      ∧ (bad = [] ∨ bad = [.suspect l.terminal true]) := by
    let y : State := { z s.map with bus := b, handed := levelNews s.link.level 0 }
    obtain ⟨m, bad, marks, only⟩ := y.ownFault_marks l.terminal .reflected faultMinutes
    refine ⟨m, bad, acts.trans ?_, only⟩
    have acts : State.takeTripAction { s with
        link := s.trippedLink l, log := g, pres := pr, bus := b, handed := s.handed ++ levelNews s.link.level 0 } 4
          (tripAction 4)
        = ((y.ownFault l.terminal .reflected faultMinutes).emit
          [.txTrip 4 .exhausted step, .txTripExhausted (some l.terminal)]).trySettle := by
      rw [hh]
      rfl
    rw [acts, marks]
    unfold State.trySettle State.emit
    rw [if_neg (by simp [y, z, rf])]
    simp only [y, z, List.append_assoc]
    rfl
  let v : State := z m
  obtain ⟨e, level, drains⟩ := State.level_taken (s := v) rests.quiet hh s.link.level 0
  obtain ⟨q, ⟨p, n, n', rfl, -⟩, idle⟩ := level
  let e : State := { v with
    psu := q, pres := p
    bus := { v.bus with notice := n, noticeNext := n' } }
  have terminal : s.seq.cur.terminal = some l.terminal := by rw [Ctx.terminal, taken, Option.map_some, same]
  obtain ⟨u, y, c, d, link, mat, store, line', slot', cur, three, gave, off⟩ : ∃ u y c, State.DrainsTo { e with
      handed := bad ++ [.txTrip 4 .exhausted step, .txTripExhausted (some l.terminal)] } u 4
      ∧ u.link = v.link ∧ u.mat = s.mat ∧ u.store = s.store ∧ u.tripLine = s.tripLine ∧ u.bus.fault = v.bus.fault
      ∧ u.seq.cur = { Ctx.reset with
          spent := some o.key, release := some { terminal := l.terminal, stage := .settle, waitLink := false } }
      ∧ u.log.NewestAre ([r] ++ [y, c]) ∧ y.body = .terminalFault o.source o.number l.terminal .trips
      ∧ ∃ off, c.body = .entryOff o.source o.number .lost (some l.terminal) s.seq.cur.admitted 4 off := by
    rcases only with rfl | rfl
    · obtain ⟨u, y, c, d, fields⟩ := State.tripExhausted_ends (s := e) rfl hh rests.quiet found occ terminal on cands phase
        serves index skipped marks (idle.trans power) newest (by simp) step
      exact ⟨u, y, c, fun k hk => d k (by omega), fields⟩
    · obtain ⟨e', ⟨q', ⟨p', m', m'', rfl, -⟩, idle'⟩, suspects⟩ := State.takeSuspect_still (s := e)
        (idle.trans power) rfl l.terminal true
      obtain ⟨cap, taken', cur, terminal'⟩ := s.seq.cur.capAt_capped (some l.terminal) true
      obtain ⟨_, _, nxt, -⟩ := s.seq.nxt.capAt_capped (some l.terminal) true
      let e' : State := { e with
        psu := q', pres := p'
        bus := { e.bus with notice := m', noticeNext := m'' }
        seq := { s.seq with
          cur := { s.seq.cur with cap := cap, taken := taken' }, nxt := s.seq.nxt.capAt (some l.terminal) true } }
      have quiet : e'.seq.Quiet := ⟨rests.ending, fun _ hr => absurd (hr.symm.trans rests.release) (by simp), rests.await, by
        show (s.seq.nxt.capAt (some l.terminal) true).deferred = false
        rw [nxt]
        exact rests.search⟩
      have suspected : e.take (.suspect l.terminal true) = e' := by
        refine suspects.trans ?_
        show ({ e with
          psu := q', pres := p'
          bus := { e.bus with notice := m', noticeNext := m'' }
          seq := { s.seq with
            cur := s.seq.cur.capAt (some l.terminal) true, nxt := s.seq.nxt.capAt (some l.terminal) true } } : State) = e'
        rw [cur]
      obtain ⟨u, y, c, d, fields⟩ := State.tripExhausted_ends (s := e') rfl hh quiet found occ
        (terminal'.trans terminal) on cands phase
        serves index skipped marks (idle'.trans (idle.trans power)) newest (by simp) step
      exact ⟨u, y, c, State.DrainsTo.taken hh suspected quiet hh d, fields⟩
  refine ⟨u, r, y, c, suspects ▸ drains u _ _ d, ?_, ?_, ?_, three, named, gave, ⟨_, off⟩, cur, fun free => ?_⟩
  · unfold State.Tripped
    rw [link]
    exact ⟨line'.trans line, rfl, rfl, rfl, rfl, store, mat, rfl⟩
  · rw [link]
  · rw [link]
  · exact slot'.trans (Bus.placeFault_free (slot.trans free) frame)

/-- Settles O45. -/
theorem tripInARampIsCounted : Obligations.TripInARampIsCounted := by
  intro s t l p o calm found line image op remote ladder ramp occ state power n action counted record
  let a : State := { s.atTime t with tripLine := true }
  have rule : ruleOf (.tripAsserted t) (s.atTime t) = a.countTrip := by
    show State.tripIn _ = _
    unfold State.tripIn
    rw [show (s.atTime t).tripLine = false from line]
    refine (if_neg Bool.false_ne_true).trans ((if_pos (Option.isSome_iff_ne_none.mpr image)).trans (if_pos ?_))
    rcases op with h | h <;> simp [State.atTime, h, remote]
  have number : l.number a.now = n := rfl
  have is_counted {u : State} (h : a.Tripped u l) : counted u := by
    obtain ⟨line, level, plan, tripped, ladder, store, mat, out⟩ := h
    refine ⟨line, level, plan, tripped, ladder, store, mat, fun known join => ?_⟩
    rw [out]
    exact State.cutting_records (s := a) (State.mayIssue_of join known remote)
  have ramping : s.seq.cur.state ≠ .admitting := by
    rcases state with h | h | h <;> rw [h] <;> exact SeqState.noConfusion
  refine ⟨fun few => ?_, fun k late fourth rf taken same on ran cands phase serves index skipped marks => ?_⟩
  · obtain ⟨u, r, d, tripped, newest, named, op, at_, permit, lowered, state, occ, trips⟩ :=
      State.countTrip_recycles (s := a) ladder ramp calm.rests calm.handed power rfl occ ramping few
    refine ⟨u, r, exec_drains rfl rule d, is_counted tripped, newest.getLast? (rs := []), named.trans ?_, op, at_, permit,
      fun third => ?_, fun early => ?_, state, occ, trips⟩
    · have acts : action = tripAction n := by simp only [action, tripAction, beq_iff_eq]
      exact congrArg (fun x => LogBody.trip s.link.opTerminal n x s.link.level s.link.forward) acts.symm
    · rw [lowered, number, if_pos third]
      simp [lowerStep]
    · rw [lowered, number, if_neg (by omega), ramp]
  · obtain ⟨u, r, y, c, d, tripped, permit, op, newest, named, gave, off, cur, slot⟩ :=
      State.countTrip_exhausts (s := a) ladder calm.rests calm.handed found occ taken same on cands phase serves index skipped
        marks power rfl rf fourth
    refine ⟨u, r, y, c, exec_drains rfl rule d, is_counted tripped, permit, op, newest, named.trans ?_, gave, off, cur, slot⟩
    show _ = LogBody.trip s.link.opTerminal n action s.link.level s.link.forward
    simp only [action, fourth]
    rfl

end Sys2Proof.Machine

/-! SUPPORT and PROOF. A REPORT taken, and O41 (R139 to R141, R145, R148, R152, R153, R166, R175, R180, R181). -/

namespace Sys2Proof.Machine

/-! ## The steps of a REPORT (R140) -/

/-- R140 steps 1 and 2: the REPORT is the latest one, and the loss deadline moves. -/
def State.reported (s : State) (r : Report) : State :=
  { s with link := { s.link with report := some r, lossDeadline := some (s.now + 3000) } }

/-- R140 step 3: what a REPORT with other flags or another fault summary does. -/
def State.takeChanges (s : State) (r : Report) : State :=
  (((s.takeLocalFlag r).takeFaultCode r).takeTuneFlags r).takeRfFlag r

/-- R140: the REPORT is taken by the link. -/
def State.Takes (s : State) (t : Nat) (bytes : List Byte) (r : Report) : Prop :=
  ruleOf (.reportReceived t bytes) (s.atTime t) = (s.atTime t).takeReport r

theorem State.takes_of {s : State} {t : Nat} {bytes : List Byte} (image : s.image = some .accepted)
    (join : s.pres.join ≠ .disabled) (length : bytes.length = 6) (kind : byteAt bytes 1 = 8)
    (sum : (bytes.map BitVec.toNat).sum % 256 = 0) (flags : byteAt bytes 2 < 16) :
    s.Takes t bytes (reportOf bytes (max s.now t)) := by
  refine if_pos ?_
  simp [State.linkTakes, validReport, State.atTime, image, join, length, kind, sum, flags]

theorem State.takeReport_changed {s : State} {r : Report} (news : ∀ q, s.link.report = some q → r.same q = false) :
    s.takeReport r = (s.reported r).linkUp.takeChanges r := by
  refine if_neg ?_
  rcases last : s.link.report with _ | q
  · simp
  · simp [news q last]

theorem State.linkUp_known {s : State} (h : s.link.state = .up ∨ s.link.state = .waiting) :
    s.linkUp = { s with link := { s.link with state := .up } } := by
  unfold State.linkUp
  rcases h with h | h
  · rw [h]
    dsimp only
    rw [← h]
  · rw [h]

theorem State.takeLocalFlag_same {s : State} {r : Report} (h : r.localCtl = s.link.localFlag) : s.takeLocalFlag r = s := by
  unfold State.takeLocalFlag
  rw [h]
  simp

theorem State.takeFaultCode_same {s : State} {r : Report} (h : r.fault = s.link.faultCode) : s.takeFaultCode r = s :=
  if_pos (beq_iff_eq.mpr h)

theorem State.takeSeenClear_rest {s : State} (r : Report) (op : s.link.op ≠ .tuning) : s.takeSeenClear r = s :=
  if_neg (by simp [op])

theorem State.takeTuneFlags_rest {s : State} (r : Report) (tuning : s.link.op ≠ .tuning) (tuned : s.link.op ≠ .tuned) :
    s.takeTuneFlags r = s := by
  unfold State.takeTuneFlags
  split
  · rename_i h
    exact absurd h tuning
  · rename_i h
    exact absurd h tuned
  · rfl

theorem State.takeRfFlag_rest {s : State} (r : Report) (op : s.link.op ≠ .settling) : s.takeRfFlag r = s :=
  if_neg (by simp [op])

/-- R145, R148: an operation in which the flags of a REPORT tell of no tune, and that does not settle. -/
def Operation.Unmoved (o : Operation) : Prop := o ≠ .tuning ∧ o ≠ .tuned ∧ o ≠ .settling

theorem Operation.unmoved_of {o : Operation} (h : o = .none ∨ o = .rampUp ∨ o = .steady ∨ o = .rampDown) : o.Unmoved := by
  rcases h with rfl | rfl | rfl | rfl <;> exact ⟨Operation.noConfusion, Operation.noConfusion, Operation.noConfusion⟩

/-- R140: with local control and the fault summary as they were a REPORT makes the link UP, and does nothing more. -/
theorem State.takeReport_same {s c : State} {r : Report} (hc : (s.reported r).linkUp = c) (op : c.link.op.Unmoved)
    (local_ : r.localCtl = c.link.localFlag) (fault : r.fault = c.link.faultCode) : s.takeReport r = c := by
  obtain ⟨tuning, tuned, settling⟩ := op
  have same : ((s.reported r).linkUp.takeSeenClear r).takeRfFlag r = c := by
    rw [hc, State.takeSeenClear_rest r tuning, State.takeRfFlag_rest r settling]
  have changed : (s.reported r).linkUp.takeChanges r = c := by
    unfold State.takeChanges
    rw [hc, State.takeLocalFlag_same local_, State.takeFaultCode_same fault, State.takeTuneFlags_rest r tuning tuned,
      State.takeRfFlag_rest r settling]
  unfold State.takeReport
  exact iteInduction (motive := (· = c)) (fun _ => same) fun _ => changed

/-- R145: with local control and the fault summary as they were the flags of a tune are taken. -/
theorem State.takeReport_tune {s c : State} {r : Report} (up : s.link.state = .up)
    (local_ : r.localCtl = s.link.localFlag) (fault : r.fault = s.link.faultCode)
    (news : ∀ q, s.link.report = some q → r.same q = false) (hc : (s.reported r).takeTuneFlags r = c)
    (settling : c.link.op ≠ .settling) : s.takeReport r = c := by
  have known : (s.reported r).linkUp = s.reported r := by
    unfold State.linkUp
    rw [show (s.reported r).link.state = .up from up]
  rw [State.takeReport_changed news, known]
  unfold State.takeChanges
  rw [State.takeLocalFlag_same (s := s.reported r) local_, State.takeFaultCode_same (s := s.reported r) fault, hc,
    State.takeRfFlag_rest r settling]

/-! ## A tune (R145, R175) -/

/-- R145, R175: TUNED ends the tuning, and the occurrence waits for its ramp time. -/
theorem State.takeReport_tuned {s : State} {r : Report} {o : Occurrence} {x : Nat} (rests : s.seq.Rests) (hh : s.handed = [])
    (up : s.link.state = .up) (local_ : r.localCtl = s.link.localFlag) (fault : r.fault = s.link.faultCode)
    (op : s.link.op = .tuning) (seen : s.link.seenClear = true) (state : s.seq.cur.state = .tuning)
    (occ : s.seq.cur.occ = some o) (terminal : s.seq.cur.terminal = some x) (same : s.link.opTerminal = some x)
    (fresh : s.seq.cur.heldStep = false) (early : (s.now : Int) < s.seq.cur.rampTime)
    (before : ∀ q, s.link.report = some q → q.tuned = false) (tuned : r.tuned = true) :
    (s.takeReport r).DrainsTo { s with
      link := { (s.reported r).link with op := .tuned, tuneDeadline := none }
      seq := { s.seq with cur := { s.seq.cur with retry := none, brk := none } } } 1 := by
  let b : State := { s with link := { (s.reported r).link with op := .tuned, tuneDeadline := none } }
  have flags : (s.reported r).takeTuneFlags r = { b with handed := [.txTuned (some x)] } := by
    unfold State.takeTuneFlags
    rw [show (s.reported r).link.op = .tuning from op]
    refine (if_neg (by simp [tuned])).trans ((if_neg ?_).trans ((if_pos tuned).trans ?_))
    · simp [show (s.reported r).link.seenClear = true from seen]
    · rw [show (s.reported r).link.opTerminal = some x from same]
      exact (State.emit_of (s := { s with link := { (s.reported r).link with op := .tuned, tuneDeadline := none } }) hh _)
  have news : ∀ q, s.link.report = some q → r.same q = false := fun q hq => by simp [Report.same, tuned, before q hq]
  rw [State.takeReport_tune up local_ fault news flags Operation.noConfusion]
  have waits : b.take (.txTuned (some x)) = { b with
      seq := { s.seq with cur := { s.seq.cur with retry := none, brk := none } } } := by
    show b.noRetry.seqTuned (some x) = _
    refine (if_pos ?_).trans (State.onTuned_waits (s := b.noRetry) fresh early)
    simp only [Ctx.terminal] at terminal
    simp [b, State.noRetry, State.setCur, state, occ, Ctx.terminal, terminal]
  let c : State := { b with seq := { s.seq with cur := { s.seq.cur with retry := none, brk := none } } }
  exact State.DrainsTo.taken (e := b) (a := c) hh waits ⟨rests.ending, rests.quiet.release, rests.await, rests.search⟩ hh
    (State.drainsTo_rest (s := c) hh 0)

/-- Hand-outs that are taken alike drain alike. -/
theorem State.drainFrom_congr {s r : State} {m k : Handed} {rest : List Handed}
    (h : State.take { s with handed := [] } m = State.take { r with handed := [] } k) (n : Nat) :
    State.drainFrom (n + 1) { s with handed := m :: rest } = State.drainFrom (n + 1) { r with handed := k :: rest } := by
  rw [State.drainFrom_cons (s := { s with handed := m :: rest }) rfl,
    State.drainFrom_cons (s := { r with handed := k :: rest }) rfl, h]

theorem State.drain_congr {s : State} {m k : Handed} {rest : List Handed}
    (h : State.take { s with handed := [] } m = State.take { s with handed := [] } k) :
    State.drain { s with handed := m :: rest } = State.drain { s with handed := k :: rest } :=
  State.drainFrom_congr h 4095

/-- R145: a REPORT of a tune that has failed. -/
theorem State.takeReport_failed {s : State} {r : Report} (hh : s.handed = []) (up : s.link.state = .up)
    (local_ : r.localCtl = s.link.localFlag) (fault : r.fault = s.link.faultCode) (op : s.link.op = .tuning)
    (seen : s.link.seenClear = true) (before : ∀ q, s.link.report = some q → q.tuneFailed = false)
    (tuned : r.tuned = false) (failed : r.tuneFailed = true) : s.takeReport r = { s with
      link := { (s.reported r).link with permit := false, tuneDeadline := none, op := .none, opTerminal := none }
      handed := [.txTuneFailed s.link.opTerminal false] } := by
  have flags : (s.reported r).takeTuneFlags r = (s.reported r).failTune false := by
    unfold State.takeTuneFlags
    simp [show (s.reported r).link.op = .tuning from op, show (s.reported r).link.seenClear = true from seen, tuned, failed]
  have news : ∀ q, s.link.report = some q → r.same q = false := fun q hq => by simp [Report.same, failed, before q hq]
  refine (State.takeReport_tune up local_ fault news flags Operation.noConfusion).trans ?_
  exact State.emit_of (s := { s with
    link := { (s.reported r).link with permit := false, tuneDeadline := none, op := .none, opTerminal := none } }) hh _

/-- R145: DETUNED ends TUNED. -/
theorem State.takeReport_detuned {s : State} {r : Report} (hh : s.handed = []) (up : s.link.state = .up)
    (local_ : r.localCtl = s.link.localFlag) (fault : r.fault = s.link.faultCode) (op : s.link.op = .tuned)
    (before : ∀ q, s.link.report = some q → q.tuned = true) (tuned : r.tuned = false) : s.takeReport r = { s with
      link := { (s.reported r).link with permit := false, op := .none, opTerminal := none }
      handed := [.txDetuned s.link.opTerminal] } := by
  have flags : (s.reported r).takeTuneFlags r = { s with
      link := { (s.reported r).link with permit := false, op := .none, opTerminal := none }
      handed := [.txDetuned s.link.opTerminal] } := by
    unfold State.takeTuneFlags
    simp only [show (s.reported r).link.op = .tuned from op, tuned, Bool.false_eq_true, if_false]
    exact State.emit_of (s := { s with
      link := { (s.reported r).link with permit := false, op := .none, opTerminal := none } }) hh _
  have news : ∀ q, s.link.report = some q → r.same q = false := fun q hq => by simp [Report.same, tuned, before q hq]
  exact State.takeReport_tune up local_ fault news flags Operation.noConfusion

/-- R180: at DETUNED Tune is handed again. -/
theorem State.take_txDetuned {s : State} {o : Occurrence} (state : s.seq.cur.state = .tuning) (occ : s.seq.cur.occ = some o)
    (t : Option Nat) : s.take (.txDetuned t)
      = (s.setCur { s.seq.cur.goto .tuning with heldStep := s.seq.cur.stands, former := none }).tuneCur :=
  if_pos (by
    show s.noRetry.seq.cur.breakable = true
    exact Ctx.breakable_of (by rw [show s.noRetry.seq.cur.occ = some o from occ]; rfl) (.inl state))

/-- R144: a tune on a terminal that is not alone read CLOSED is refused. -/
theorem State.tuneRefusal_of_open {s : State} {x : Nat} (h : s.mat.onlyClosed x = false) : ∃ r, s.tuneRefusal x = some r := by
  have ready : s.permitReady x = false := by simp [State.permitReady, h]
  unfold State.tuneRefusal
  rw [ready, Bool.not_false, if_pos rfl]
  split_ifs <;> exact ⟨_, rfl⟩

/-! ## The link is back (R141, R180) -/

/-- R141: the link that was lost is UP again. -/
theorem State.linkUp_lost {s : State} (h : s.link.state = .lost) (hh : s.handed = []) : ∃ l b, s.linkUp = { s with
      link := { s.link with state := .up }, log := l, bus := b, alert := { s.alert with linkLost := false }
      handed := [.txLinkBack] }
    ∧ ∃ r, l.ring.getLast? = some r ∧ r.seq = s.log.nextSeq
      ∧ r.body = .linkLoss true s.link.lostOp ((ownHeld s.map).map (·.1)) := by
  let body : LogBody := .linkLoss true s.link.lostOp ((ownHeld s.map).map (·.1))
  obtain ⟨l, b, logged⟩ := s.writeLog_logged body
  have newest := AirLog.newestAre_writeLog s body
  rw [logged] at newest
  refine ⟨l, b, ?_, _, newest.getLast? (rs := []), s.recordOf_seq body, s.recordOf_body body⟩
  have back : s.linkUp = State.emit { s.writeLog body with
      link := { (s.writeLog body).link with state := .up }, alert := { (s.writeLog body).alert with linkLost := false } }
      [.txLinkBack] := by
    unfold State.linkUp
    rw [h]
  rw [back, logged]
  exact State.emit_of (s := { s with
    link := { s.link with state := .up }, log := l, bus := b, alert := { s.alert with linkLost := false } }) hh _

/-- R170: what a re-evaluation finds of C is a question to its occurrence, its spent mark and whether it is current. -/
theorem State.Content.of_cur {s : State} (h : s.Content) {d : Ctx} (occ : d.occ = s.seq.cur.occ)
    (spent : d.spent = s.seq.cur.spent) (running : d.running = s.seq.cur.running) (release : d.release = none)
    (await : d.state ≠ .awaitTerminal) (hold : d.state ≠ .localHold → s.seq.cur.state ≠ .localHold) : (s.setCur d).Content where
  calm := ⟨h.calm.handed, h.calm.ending, release, await, h.calm.search⟩
  unarmed := h.unarmed
  found := h.found
  current := fun armed away => by
    have stands := h.current armed (hold away)
    unfold State.CurrentStands at stands ⊢
    dsimp only [State.setCur] at stands ⊢
    rw [occ, spent, running]
    exact stands
  next := fun armed => by
    have stands := h.next armed
    unfold State.NextStands at stands ⊢
    dsimp only [State.setCur] at stands ⊢
    simp only [show d.key = s.seq.cur.key from congrArg (Option.map Occurrence.key) occ]
    exact stands

/-- R180: LINK-BACK is nothing to an occurrence that does not wait for the link but a re-evaluation. -/
theorem State.take_txLinkBack {s : State} (release : s.seq.cur.release = none) (state : s.seq.cur.state ≠ .tuning)
    (brk : s.seq.cur.brk = none) (hh : s.handed = []) :
    s.take .txLinkBack = { s.noRetry with handed := [.reevaluate false false] } := by
  have same : s.noRetry.seqLinkBack = s.noRetry.emit [.reevaluate false false] := by
    unfold State.seqLinkBack
    simp [State.noRetry, State.setCur, release, state, brk]
  exact same.trans (State.emit_of (s := s.noRetry) hh _)

/-- R180: an occurrence that waits for the link hands Tune again. -/
theorem State.take_txLinkBack_tunes {s : State} (release : s.seq.cur.release = none) (state : s.seq.cur.state = .tuning)
    (brk : s.seq.cur.brk = some .link) : s.take .txLinkBack
      = (s.setCur { s.seq.cur with retry := none, brk := none }).tuneCur.emit [.reevaluate false false] := by
  show s.noRetry.seqLinkBack = _
  unfold State.seqLinkBack
  simp [State.noRetry, State.setCur, release, state, brk]

/-! ## Local control (R152, R166, R181) -/

/-- R152: the link once local control has begun. -/
def State.localLink (s : State) : Link := { s.link with
  localFlag := true, permit := false, level := 0, op := .none, opTerminal := none, plan := [], tuneDeadline := none
  recycleAt := none, recycling := false, out := s.link.emptyOut }

theorem State.beginLocal_out {s : State} (hh : s.handed = []) : ∃ e, State.Noticed { s with link := s.localLink } e
    ∧ s.beginLocal = { e with handed := levelNews s.link.level 0 ++ [.powerLocal, .txLocal s.link.op] } := by
  let x : State := { s with link := s.localLink, handed := s.handed ++ levelNews s.link.level 0 }
  obtain ⟨p, n, m, noticed, join⟩ := x.noticeChange_noticed
  refine ⟨_, ⟨p, n, m, rfl, join⟩, ?_⟩
  have begins : s.beginLocal = x.noticeChange.emit [.powerLocal, .txLocal s.link.op] := by
    unfold State.beginLocal
    rw [State.setLevel_eq]
    rfl
  rw [begins, noticed]
  unfold State.emit
  simp only [x, hh, List.nil_append]

/-- R166: local control: the demand announced is that of the rated carrier. -/
theorem State.takePowerLocal_noticed {s : State} (power : s.psu.phase = .none) :
    State.Noticed { s with psu := { s.psu with
      localMark := true, admitted := none, pendingLower := none, announced :=
        totalDemand s.cfg s.cfg.rating 100 .am } } s.takePowerLocal := by
  have same : s.cancelAdmission = s := by
    unfold State.cancelAdmission
    rw [power]
    rfl
  unfold State.takePowerLocal
  rw [same]
  exact State.announce_noticed { s with psu := { s.psu with localMark := true, admitted := none, pendingLower := none } }

/-- R181: LOCAL is nothing to a station that has not been armed. -/
theorem State.seqLocal_unarmed {s : State} (h : s.seq.armed = false) : s.seqLocal = s :=
  if_pos (by simp [h])

/-- R181: LOCAL ends an occurrence that has been on the air. -/
theorem State.seqLocal_ends {s : State} {o : Occurrence} {k : Taken} (armed : s.seq.armed = true)
    (occ : s.seq.cur.occ = some o) (taken : s.seq.cur.taken = some k) (on : s.seq.cur.onAir.isSome = true)
    (release : s.seq.cur.release = none)
    (state : s.seq.cur.state = .ramping ∨ s.seq.cur.state = .onAir ∨ s.seq.cur.state = .recycling) :
    ∃ l b r, s.seqLocal = { s with
        log := l, bus := b, seq := { s.seq with cur := { Ctx.reset with state := .localHold, spent := some o.key } } }
      ∧ l.ring.getLast? = some r ∧ r.seq = s.log.nextSeq ∧ r.body = .entryOff o.source o.number .local_ (some k.terminal)
        s.seq.cur.admitted s.seq.cur.trips (s.seq.cur.offAir s.now) := by
  let off : LogBody := .entryOff o.source o.number .local_ (some k.terminal) s.seq.cur.admitted s.seq.cur.trips
    (s.seq.cur.offAir s.now)
  have written : s.writeEnd s.seq.cur .local_ = s.writeLog off := by
    rw [State.writeEnd_off occ on]
    simp [Ctx.terminal, taken, off]
  have recorded : s.seq.cur.unrecorded s.instant = false := by
    simp [Ctx.unrecorded, Option.isSome_iff_ne_none.mp on]
  have ends : s.seqLocal = (s.writeEnd s.seq.cur .local_).setCur
      { s.seq.cur.emptied .localHold with spent := some o.key } := by
    unfold State.seqLocal
    rcases state with h | h | h <;> simp [armed, recorded, Ctx.key, occ, h]
  obtain ⟨l, b, logged⟩ := s.writeLog_logged off
  have newest := AirLog.newestAre_writeLog s off
  rw [logged] at newest
  refine ⟨l, b, _, ?_, newest.getLast? (rs := []), s.recordOf_seq off, s.recordOf_body off⟩
  rw [ends, written, logged]
  unfold Ctx.emptied
  rw [release]
  rfl

/-- R152: the link once local control has ended. -/
def State.remoteLink (s : State) : Link := { s.link with
  localFlag := false, op := if s.rfPresent then .settling else .none
  opTerminal := if s.rfPresent then s.link.opTerminal else none }

theorem State.endLocal_out {s : State} (hh : s.handed = []) : ∃ e, State.Noticed { s with link := s.remoteLink } e
    ∧ s.endLocal = { e with handed := .powerRemote :: .txRemote :: settledNews s.rfPresent } := by
  let x : State := { s with link := { s.link with localFlag := false, op := .settling } }
  obtain ⟨p, n, m, noticed, join⟩ := x.noticeChange_noticed
  refine ⟨_, ⟨p, n, m, rfl, join⟩, ?_⟩
  have ends : s.endLocal = (x.noticeChange.emit [.powerRemote, .txRemote]).trySettle := rfl
  rw [ends, noticed]
  refine (State.trySettle_out { s with
    pres := p
    bus := { s.bus with notice := n, noticeNext := m } } { s.link with localFlag := false } _).trans ?_
  simp only [x, hh, List.nil_append]
  rfl

/-- R148: RF off is issued again while RF is said to be present in SETTLING. -/
theorem State.takeRfFlag_out {s : State} (level : s.link.level = 0) (may : s.mayIssue = true) (r : Report) :
    ∃ out, s.takeRfFlag r = { s with link := { s.link with out := out } }
      ∧ out.map (·.record) = s.link.out.map (·.record)
        ++ (if s.link.op = .settling ∧ r.rf then [.rf false] else []) := by
  unfold State.takeRfFlag
  by_cases again : s.link.op = .settling ∧ r.rf = true
  · refine ⟨s.issuing (.rf false), (if_pos (by simp [again])).trans ?_, ?_⟩
    · rw [State.rfOff_out, level, levelNews_self, List.append_nil, ← level]
    · rw [if_pos again]
      exact State.issuing_records may _
  · exact ⟨s.link.out, if_neg (by simpa using again), by rw [if_neg again, List.append_nil]⟩

/-- R166: the end of local control: the demand announced is the standby demand. -/
theorem State.takePowerRemote_noticed {s : State} (none : s.psu.admitted = none) :
    State.Noticed { s with psu := { s.psu with localMark := false, announced := s.cfg.standby } } s.takePowerRemote := by
  have noticed := State.announce_noticed { s with psu := { s.psu with localMark := false } }
  have demand : State.demandNow { s with psu := { s.psu with localMark := false } } = s.cfg.standby := by
    simp [State.demandNow, none]
  rw [demand] at noticed
  exact noticed

/-! ## A transmitter fault (R153, R180) -/

/-- R153: the link once a fault has come. -/
def State.faultLink (s : State) (code : Nat) : Link := { s.link with
  faultCode := code, permit := false, out := s.cutting, level := 0, plan := [], tuneDeadline := none, recycleAt := none
  recycling := false, op := if s.link.op = .none then .none else if s.rfPresent then .settling else .none
  opTerminal := if s.link.op = .none ∨ s.rfPresent then s.link.opTerminal else none }

theorem State.beginFault_out {s : State} (hh : s.handed = []) (code : Nat) : s.beginFault code = { s with
    link := s.faultLink code, handed := levelNews s.link.level 0 ++ s.cutNews (.txFault code) } := by
  unfold State.beginFault
  dsimp only
  rw [State.cutRf_out]
  unfold State.trySettle State.faultLink State.cutNews State.emit
  by_cases rf : s.rfPresent = true <;> by_cases idle : s.link.op = .none <;> simp [rf, hh, idle, Link.stopWork] <;> rfl

/-- R180: a break is nothing to an occurrence in which it does not act. -/
theorem State.seqBreak_still {s : State} (h : s.seq.cur.breakable = false) (k : Break) : s.seqBreak k = s :=
  if_neg (by simp [h])

/-- R180: at TX-CLEAR the occurrence that waits for it hands Tune again, on its CLOSED crosspoint. -/
theorem State.seqTxClear_tunes {s : State} {o : Occurrence} {x : Nat} (brk : s.seq.cur.brk = some .txFault)
    (state : s.seq.cur.state = .tuning) (occ : s.seq.cur.occ = some o) (terminal : s.seq.cur.terminal = some x)
    (closed : s.mat.posOf x = some .closed) : s.seqTxClear = (s.setCur { s.seq.cur with brk := none }).tuneCur := by
  have breaks : s.seq.cur.breakable = true := Ctx.breakable_of (by rw [occ]; rfl) (.inl state)
  unfold State.seqTxClear State.returnToTune
  simp only [brk, breaks, terminal, closed, if_true, beq_self_eq_true]

/-- R142: a terminal that is alone read CLOSED is read CLOSED. -/
theorem Matrix.posOf_of_onlyClosed {m : Matrix} {t : Nat} (h : m.onlyClosed t = true) : m.posOf t = some .closed := by
  unfold Matrix.onlyClosed at h
  simp only [Bool.and_eq_true, List.any_eq_true, List.all_eq_true, beq_iff_eq] at h
  obtain ⟨⟨x, mem, at_, -⟩, all⟩ := h
  obtain ⟨y, found⟩ : ∃ y, m.row t = some y := by
    refine Option.isSome_iff_exists.mp (List.find?_isSome.mpr ⟨x, mem, beq_iff_eq.mpr at_⟩)
  have same : y.terminal = t := beq_iff_eq.mp (List.find?_some (p := fun z : XRow => z.terminal == t) found)
  have closed := all y (List.mem_of_find?_eq_some found)
  rw [if_pos same] at closed
  unfold Matrix.posOf
  rw [found]
  exact beq_iff_eq.mp closed

/-! ## The clauses of O41 -/

/-- R144, R175: Tune for C's occurrence is taken. -/
theorem State.tuneCur_tunes {s : State} {o : Occurrence} {x : Nat} (occ : s.seq.cur.occ = some o)
    (terminal : s.seq.cur.terminal = some x) (hs : s.Switched x) (up : s.link.state = .up)
    (remote : s.link.localFlag = false) (sound : s.link.faultCode = 0)
    (rest : s.link.op = .none ∨ s.link.op = .tuning ∨ s.link.op = .tuned) (join : s.pres.join ≠ .disabled) :
    ∃ l p b, s.tuneCur = { s with
        link := l, pres := p, bus := b, seq := { s.seq with cur := s.seq.cur.goto .tuning } }
      ∧ s.tuneCur.Tunes o x (s.link.out.map (·.record)) ∧ l.state = .up ∧ l.faultCode = 0 := by
  obtain ⟨ladder, tripped, p, b, tuned⟩ := State.tuneCur_taken occ terminal hs up remote sound rest
  have issues : s.mayIssue = true := State.mayIssue_of join (by rw [up]; decide) remote
  refine ⟨_, p, b, tuned, ?_, up, sound⟩
  rw [tuned]
  exact ⟨rfl, rfl, rfl, rfl, rfl, State.tuning_records issues _ _ _, occ, rfl⟩

section
variable {s : State} {r : Report}

/-- R180: DETUNED, and the Tune handed again is taken. -/
theorem State.detuned_tunes {o : Occurrence} {x : Nat} (rests : s.seq.Rests) (hh : s.handed = [])
    (join : s.pres.join ≠ .disabled) (up : s.link.state = .up) (local_ : r.localCtl = s.link.localFlag)
    (fault : r.fault = s.link.faultCode) (op : s.link.op = .tuned) (state : s.seq.cur.state = .tuning)
    (occ : s.seq.cur.occ = some o) (terminal : s.seq.cur.terminal = some x)
    (before : ∀ q, s.link.report = some q → q.tuned = true) (tuned : r.tuned = false) (remote : s.link.localFlag = false)
    (sound : s.link.faultCode = 0) (hs : s.Switched x) :
    ∃ u, (s.takeReport r).DrainsTo u 1 ∧ u.Tunes o x (s.link.out.map (·.record))
      ∧ u.seq.cur.heldStep = s.seq.cur.stands ∧ u.mat = s.mat ∧ u.map = s.map ∧ u.psu = s.psu := by
  let d : State := { s with link := { (s.reported r).link with permit := false, op := .none, opTerminal := none } }
  let e : State := d.setCur { s.seq.cur.goto .tuning with heldStep := s.seq.cur.stands, former := none }
  obtain ⟨l, p, b, shape, tunes, -, -⟩ := State.tuneCur_tunes (s := e) occ terminal ⟨hs.closed, hs.atRest, hs.held⟩ up remote
    sound (.inl rfl) join
  refine ⟨e.tuneCur, ?_, tunes, ?_⟩
  · rw [State.takeReport_detuned hh up local_ fault op before tuned]
    have quiet : e.tuneCur.seq.Quiet := by
      rw [shape]
      exact ⟨rests.ending, rests.quiet.release, SeqState.noConfusion, rests.search⟩
    have empty : e.tuneCur.handed = [] := by
      rw [shape]
      exact hh
    exact State.DrainsTo.taken (e := d) hh (State.take_txDetuned (s := d) state occ _) quiet empty (State.drainsTo_rest empty 0)
  · rw [shape]
    exact ⟨rfl, rfl, rfl, rfl⟩

/-- R180: DETUNED, and the Tune handed again is refused. -/
theorem State.detuned_refused {o : Occurrence} {x : Nat} (rests : s.seq.Rests) (hh : s.handed = [])
    (up : s.link.state = .up) (local_ : r.localCtl = s.link.localFlag) (fault : r.fault = s.link.faultCode)
    (op : s.link.op = .tuned) (state : s.seq.cur.state = .tuning) (occ : s.seq.cur.occ = some o)
    (terminal : s.seq.cur.terminal = some x) (before : ∀ q, s.link.report = some q → q.tuned = true)
    (tuned : r.tuned = false) (unclosed : s.mat.onlyClosed x = false) :
    ∃ c, (s.takeReport r).DrainsTo { s with
        link := { (s.reported r).link with permit := false, op := .none, opTerminal := none }
        seq := { s.seq with cur := c } } 2
      ∧ c.state = .tuning ∧ c.occ = some o ∧ c.retry = some { kind := .tune, due := s.now + 1000 } := by
  let d : State := { s with link := { (s.reported r).link with permit := false, op := .none, opTerminal := none } }
  let e : State := d.setCur { s.seq.cur.goto .tuning with heldStep := s.seq.cur.stands, former := none }
  obtain ⟨why, refused⟩ := State.tuneRefusal_of_open (s := e) unclosed
  have quiet : e.seq.Rests := ⟨rests.ending, rests.release, SeqState.noConfusion, rests.search⟩
  refine ⟨{ e.seq.cur.goto .tuning with retry := some { kind := .tune, due := e.now + 1000 } }, ?_, rfl, occ, rfl⟩
  rw [State.takeReport_detuned hh up local_ fault op before tuned]
  refine State.DrainsTo.takenOnly (e := d) hh (State.take_txDetuned (s := d) state occ _) ?_
    (State.drainsTo_tuneRefused (s := e) occ terminal refused quiet hh)
  · rw [State.tuneCur_refused (s := e) occ terminal refused hh]
    exact ⟨rests.ending, rests.release, SeqState.noConfusion, rests.search⟩

/-- R141: the link is back, and nothing waits for it. -/
theorem State.linkBack_stays (lost : s.link.state = .lost) (op : s.link.op = .none) (content : s.Content)
    (local_ : r.localCtl = s.link.localFlag) (fault : r.fault = s.link.faultCode) (state : s.seq.cur.state ≠ .tuning)
    (brk : s.seq.cur.brk = none) : ∃ l b, (s.takeReport r).DrainsTo { s with
        link := { (s.reported r).link with state := .up }, log := l, bus := b, alert := { s.alert with linkLost := false }
        seq := { s.seq with cur := { s.seq.cur with retry := none } } } 3
      ∧ ∃ r, l.ring.getLast? = some r ∧ r.seq = s.log.nextSeq
        ∧ r.body = .linkLoss true s.link.lostOp ((ownHeld s.map).map (·.1)) := by
  have hh := content.calm.handed
  obtain ⟨l, b, up, record⟩ := State.linkUp_lost (s := s.reported r) lost hh
  refine ⟨l, b, ?_, record⟩
  let e : State := { s with
    link := { (s.reported r).link with state := .up }, log := l, bus := b, alert := { s.alert with linkLost := false } }
  rw [State.takeReport_same up (Operation.unmoved_of (.inl op)) local_ fault]
  have same := content.of_cur (d := { s.seq.cur with retry := none }) rfl rfl rfl content.calm.release content.calm.await id
  have told := State.drainsTo_told (m := .reevaluate false false) (.inl ⟨_, rfl⟩)
    (same.of_same (t := e.noRetry) ⟨rfl, rfl, rfl, rfl, rfl, rfl⟩)
  exact State.DrainsTo.takenOnly (e := e) hh (State.take_txLinkBack (s := e) content.calm.release state brk hh)
    ⟨content.calm.ending, content.calm.release, content.calm.await, content.calm.search⟩ told

/-- R141, R180: the link is back, and the occurrence that waits for it is tuned. -/
theorem State.linkBack_tunes {o : Occurrence} {x : Nat} (lost : s.link.state = .lost) (op : s.link.op = .none)
    (content : s.Content) (local_ : r.localCtl = s.link.localFlag) (fault : r.fault = s.link.faultCode)
    (join : s.pres.join ≠ .disabled) (state : s.seq.cur.state = .tuning) (brk : s.seq.cur.brk = some .link)
    (occ : s.seq.cur.occ = some o) (terminal : s.seq.cur.terminal = some x) (remote : s.link.localFlag = false)
    (sound : s.link.faultCode = 0) (hs : s.Switched x) :
    ∃ u, (s.takeReport r).DrainsTo u 3 ∧ u.link.state = .up ∧ u.alert = { s.alert with linkLost := false }
      ∧ (∃ r, u.log.ring.getLast? = some r ∧ r.seq = s.log.nextSeq
        ∧ r.body = .linkLoss true s.link.lostOp ((ownHeld s.map).map (·.1)))
      ∧ u.mat = s.mat ∧ u.map = s.map ∧ u.psu = s.psu ∧ u.Tunes o x (s.link.out.map (·.record)) ∧ u.seq.cur.brk = none := by
  have hh := content.calm.handed
  obtain ⟨l, b, up, record⟩ := State.linkUp_lost (s := s.reported r) lost hh
  let e : State := { s with
    link := { (s.reported r).link with state := .up }, log := l, bus := b, alert := { s.alert with linkLost := false } }
  let f : State := e.setCur { e.seq.cur with retry := none, brk := none }
  obtain ⟨l', p', b', shape, tunes, known, -⟩ := State.tuneCur_tunes (s := f) occ terminal ⟨hs.closed, hs.atRest, hs.held⟩ rfl
    remote sound (.inl op) join
  have same : f.tuneCur.Content := by
    rw [shape]
    exact (content.of_cur (d := f.seq.cur.goto .tuning) rfl rfl rfl content.calm.release SeqState.noConfusion
      (fun _ => state.trans_ne SeqState.noConfusion)).of_same ⟨rfl, rfl, rfl, rfl, rfl, rfl⟩
  refine ⟨f.tuneCur, ?_, ?_⟩
  · rw [State.takeReport_same up (Operation.unmoved_of (.inl op)) local_ fault]
    have told := State.drainsTo_told (m := .reevaluate false false) (.inl ⟨_, rfl⟩) same
    refine State.DrainsTo.takenOnly (e := e) hh ?_ ?_ told
    · rw [State.take_txLinkBack_tunes (s := e) content.calm.release state brk]
      exact State.emit_of same.calm.handed _
    · exact ⟨same.calm.ending, same.calm.release, same.calm.await, same.calm.search⟩
  · rw [shape] at tunes ⊢
    exact ⟨known, rfl, record, rfl, rfl, rfl, tunes, rfl⟩

/-! ### Local control -/

/-- R152, R166: local control begins; what LOCAL does is left. -/
theorem State.local_begins (rests : s.seq.Rests) (hh : s.handed = []) (known : s.link.state = .up ∨ s.link.state = .waiting)
    (now : r.localCtl = true) (remote : s.link.localFlag = false) (fault : r.fault = s.link.faultCode)
    (before : ∀ q, s.link.report = some q → q.localCtl = false) (power : s.psu.phase = .none)
    (lower : s.psu.pendingLower = none) (carry : s.psu.releasePending = false) :
    ∃ p n m, ∀ u k, State.DrainsTo { s with
        link := { State.localLink (s.reported r) with state := .up }, pres := p
        bus := { s.bus with notice := n, noticeNext := m }
        psu := { s.psu with localMark := true, admitted := none, announced := totalDemand s.cfg s.cfg.rating 100 .am }
        handed := [.txLocal s.link.op] } u k → (s.takeReport r).DrainsTo u (k + 2) := by
  let b : State := { s with link := { (s.reported r).link with state := .up } }
  have up : (s.reported r).linkUp = b := State.linkUp_known (s := s.reported r) known
  have news : ∀ q, s.link.report = some q → r.same q = false := fun q hq => by simp [Report.same, now, before q hq]
  obtain ⟨e, ⟨p, n, m, rfl, join⟩, begins⟩ := State.beginLocal_out (s := b) hh
  let f : State := { s with
    link := { State.localLink (s.reported r) with state := .up }, pres := p
    bus := { s.bus with notice := n, noticeNext := m } }
  have taken : s.takeReport r = { f with handed := levelNews s.link.level 0 ++ [.powerLocal, .txLocal s.link.op] } := by
    have flag : b.takeLocalFlag r = { f with handed := levelNews s.link.level 0 ++ [.powerLocal, .txLocal s.link.op] } :=
      (if_pos (by simp [b, State.reported, now, remote])).trans begins
    rw [State.takeReport_changed news, up]
    unfold State.takeChanges
    rw [flag, State.takeFaultCode_same (by exact fault), State.takeTuneFlags_rest r Operation.noConfusion Operation.noConfusion,
      State.takeRfFlag_rest r Operation.noConfusion]
  obtain ⟨p', n', m', noticed, -⟩ := State.takePowerLocal_noticed (s := f) power
  refine ⟨p', n', m', fun u k d => ?_⟩
  rw [taken]
  have bare : ({ f with handed := [] } : State) = f := by rw [← hh]
  refine State.DrainsTo.level (a := f) (old := s.link.level) (new := 0) rfl (fun _ => bare.symm) ?_ rests.quiet hh ?_
  · exact (congrArg State.powerLevel bare).trans
      (State.powerLevel_of_still lower fun hc => absurd (hc.symm.trans carry) (by decide))
  · let g : State := { f with
      pres := p'
      bus := { f.bus with notice := n', noticeNext := m' }
      psu := { s.psu with localMark := true, admitted := none, announced := totalDemand s.cfg s.cfg.rating 100 .am } }
    have powered : f.take .powerLocal = g := by
      refine noticed.trans ?_
      simp only [g, ← lower]
      rfl
    exact State.DrainsTo.taken (e := f) hh powered rests.quiet hh d

/-- R148, R152, R166: local control ends; what REMOTE does is left. -/
theorem State.local_ends (rests : s.seq.Rests) (hh : s.handed = []) (known : s.link.state = .up ∨ s.link.state = .waiting)
    (now : r.localCtl = false) (local_ : s.link.localFlag = true) (fault : r.fault = s.link.faultCode)
    (before : ∀ q, s.link.report = some q → q.localCtl = true) (level : s.link.level = 0) (admitted : s.psu.admitted = none)
    (join : s.pres.join ≠ .disabled) :
    ∃ l p n m, (∀ u k, State.DrainsTo { s with
        link := l, pres := p
        bus := { s.bus with notice := n, noticeNext := m }
        psu := { s.psu with localMark := false, announced := s.cfg.standby }
        handed := .txRemote :: settledNews s.rfPresent } u k → (s.takeReport r).DrainsTo u (k + 1))
      ∧ l.state = .up ∧ l.localFlag = false ∧ l.level = 0 ∧ l.op = (if s.rfPresent then .settling else .none)
      ∧ l.out.map (·.record) = s.link.out.map (·.record) ++ (if s.rfPresent ∧ r.rf then [.rf false] else []) := by
  let b : State := { s with link := { (s.reported r).link with state := .up } }
  have up : (s.reported r).linkUp = b := State.linkUp_known (s := s.reported r) known
  have news : ∀ q, s.link.report = some q → r.same q = false := fun q hq => by simp [Report.same, now, before q hq]
  obtain ⟨e, ⟨p, n, m, rfl, same⟩, ends⟩ := State.endLocal_out (s := b) hh
  let f : State := { b with
    link := b.remoteLink, pres := p
    bus := { s.bus with notice := n, noticeNext := m }
    handed := .powerRemote :: .txRemote :: settledNews s.rfPresent }
  have moved : f.link.op = .settling ∧ s.rfPresent = true ∨ f.link.op = .none ∧ s.rfPresent = false := by
    cases rf : s.rfPresent with
    | true => exact .inl ⟨if_pos rf, rfl⟩
    | false => exact .inr ⟨if_neg (Bool.eq_false_iff.mp rf), rfl⟩
  have flag : b.takeLocalFlag r = f :=
    (if_neg (by simp [now])).trans ((if_pos (by simp [b, State.reported, now, local_])).trans ends)
  obtain ⟨out, flagged, records⟩ := State.takeRfFlag_out (s := f) level
    (State.mayIssue_of (fun h => join (same.symm.trans h)) LinkState.noConfusion rfl) r
  have taken : s.takeReport r = { f with link := { f.link with out := out } } := by
    have idle : f.link.op ≠ .tuning ∧ f.link.op ≠ .tuned := by
      rcases moved with ⟨op, -⟩ | ⟨op, -⟩ <;> rw [op] <;> exact ⟨Operation.noConfusion, Operation.noConfusion⟩
    rw [State.takeReport_changed news, up]
    unfold State.takeChanges
    rw [flag, State.takeFaultCode_same (by exact fault), State.takeTuneFlags_rest r idle.1 idle.2, flagged]
  let g : State := { f with link := { f.link with out := out }, handed := s.handed }
  obtain ⟨p', n', m', noticed, -⟩ := State.takePowerRemote_noticed (s := g) admitted
  refine ⟨{ f.link with out := out }, p', n', m', fun u k d => ?_, rfl, rfl, level, rfl, records.trans ?_⟩
  · rw [taken]
    exact State.DrainsTo.taken (e := g) (m := .powerRemote) hh noticed rests.quiet hh d
  · rcases moved with ⟨op, rf⟩ | ⟨op, rf⟩
    · simp [rf, f, b, State.remoteLink, State.reported]
    · simp [rf, f, b, State.remoteLink, State.reported]

/-! ### A transmitter fault -/

/-- R153: a transmitter fault begins; what TX-FAULT does is left. -/
theorem State.fault_begins (rests : s.seq.Rests) (hh : s.handed = []) (known : s.link.state = .up ∨ s.link.state = .waiting)
    (faulty : r.fault ≠ 0) (sound : s.link.faultCode = 0) (now : r.localCtl = false) (remote : s.link.localFlag = false)
    (before : ∀ q, s.link.report = some q → q.fault = 0) (join : s.pres.join ≠ .disabled)
    (lower : s.psu.pendingLower = none) (carry : s.psu.releasePending = false) :
    ∃ l, (∀ u k, State.DrainsTo { s with link := l, handed := s.cutNews (.txFault r.fault) } u k →
        (s.takeReport r).DrainsTo u (k + 1))
      ∧ l.state = .up ∧ l.faultCode = r.fault ∧ l.permit = false ∧ l.level = 0 ∧ l.plan = [] ∧ l.tuneDeadline = none
      ∧ l.recycleAt = none ∧ l.op = (if s.link.op ≠ .none ∧ s.rfPresent then .settling else .none)
      ∧ l.out.map (·.record) = s.link.out.map (·.record) ++ [.level 0, .rf false]
        ++ (if s.link.op ≠ .none ∧ s.rfPresent ∧ r.rf then [.rf false] else []) := by
  let b : State := { s with link := { (s.reported r).link with state := .up } }
  have up : (s.reported r).linkUp = b := State.linkUp_known (s := s.reported r) known
  have news : ∀ q, s.link.report = some q → r.same q = false := fun q hq => by simp [Report.same, faulty, before q hq]
  have issues : b.mayIssue = true := State.mayIssue_of join LinkState.noConfusion remote
  let f : State := { b with
    link := b.faultLink r.fault, handed := levelNews s.link.level 0 ++ s.cutNews (.txFault r.fault) }
  have flag : b.takeFaultCode r = f := by
    refine (if_neg ?_).trans ((if_neg (by simpa using faulty)).trans ((if_pos ?_).trans (State.beginFault_out (s := b) hh _)))
    · simp [b, State.reported, sound, faulty]
    · simp [b, State.reported, sound]
  have moved : f.link.op = (if s.link.op ≠ .none ∧ s.rfPresent then .settling else .none) := by
    show (if s.link.op = .none then _ else if s.rfPresent then _ else _) = _
    by_cases op : s.link.op = .none <;> simp [op]
  obtain ⟨out, flagged, records⟩ := State.takeRfFlag_out (s := f) rfl issues r
  have taken : s.takeReport r = { f with link := { f.link with out := out } } := by
    have idle : f.link.op ≠ .tuning ∧ f.link.op ≠ .tuned := by
      rw [moved]
      split <;> exact ⟨Operation.noConfusion, Operation.noConfusion⟩
    rw [State.takeReport_changed news, up]
    unfold State.takeChanges
    rw [State.takeLocalFlag_same (s := b) (now.trans remote.symm), flag, State.takeTuneFlags_rest r idle.1 idle.2, flagged]
  refine ⟨{ f.link with out := out }, fun u k d => ?_, rfl, rfl, rfl, rfl, rfl, rfl, rfl, moved, records.trans ?_⟩
  · let g : State := { s with link := { f.link with out := out } }
    have bare : ({ g with handed := [] } : State) = g := by rw [← hh]
    rw [taken]
    refine State.DrainsTo.level (a := g) (old := s.link.level) (new := 0) rfl (fun _ => bare.symm) ?_ rests.quiet hh d
    exact (congrArg State.powerLevel bare).trans
      (State.powerLevel_of_still lower fun hc => absurd (hc.symm.trans carry) (by decide))
  · rw [show f.link.out = b.cutting from rfl, State.cutting_records issues, moved]
    refine congrArg (_ ++ ·) (if_congr ?_ rfl rfl)
    split
    · rename_i h
      simp [h]
    · rename_i h
      simp only [reduceCtorEq, false_and, false_iff]
      tauto

/-- R153: the fault summary becomes another one, with no operation under way. -/
theorem State.fault_changes (hh : s.handed = []) (known : s.link.state = .up ∨ s.link.state = .waiting)
    (faulted : s.link.faultCode ≠ 0) (local_ : r.localCtl = s.link.localFlag) (op : s.link.op = .none)
    (before : ∀ q, s.link.report = some q → q.fault = s.link.faultCode) (other : r.fault ≠ s.link.faultCode) :
    s.takeReport r = { s with
      link := { (s.reported r).link with state := .up, faultCode := r.fault }
      handed := [if r.fault = 0 then .txClear else .txFault r.fault] } := by
  let b : State := { s with link := { (s.reported r).link with state := .up } }
  have up : (s.reported r).linkUp = b := State.linkUp_known (s := s.reported r) known
  have news : ∀ q, s.link.report = some q → r.same q = false := fun q hq => by simp [Report.same, before q hq, other]
  let f : State := { s with link := { (s.reported r).link with state := .up, faultCode := r.fault } }
  have flag : b.takeFaultCode r = { f with handed := [if r.fault = 0 then .txClear else .txFault r.fault] } := by
    refine (if_neg (by simpa [b, State.reported] using other)).trans ?_
    by_cases clear : r.fault = 0
    · rw [if_pos clear]
      refine (if_pos (by simp [clear])).trans ?_
      rw [← clear]
      exact State.emit_of (s := f) hh _
    · rw [if_neg clear]
      refine (if_neg (by simp [clear])).trans ((if_neg (by simpa [b, State.reported] using faulted)).trans ?_)
      exact State.emit_of (s := f) hh _
  rw [State.takeReport_changed news, up]
  unfold State.takeChanges
  rw [State.takeLocalFlag_same (by exact local_), flag, State.takeTuneFlags_rest r, State.takeRfFlag_rest r]
  all_goals rw [show f.link.op = .none from op]; exact Operation.noConfusion
end

/-! ### What follows in the sequencer -/

theorem Sequencer.reset_quiet : Sequencer.reset.Quiet :=
  ⟨rfl, fun _ hr => by simp [Sequencer.reset, Ctx.reset] at hr, SeqState.noConfusion, rfl⟩

/-- R181: LOCAL, at a station that has not been armed. -/
theorem State.drainsTo_txLocal_unarmed {e : State} (h : e.seq = Sequencer.reset) (hh : e.handed = []) (op : Operation) :
    State.DrainsTo { e with handed := [.txLocal op] } e 1 := by
  have still : e.take (.txLocal op) = e := by
    show e.noRetry.seqLocal = e
    rw [State.noRetry_reset h]
    exact State.seqLocal_unarmed (by rw [h]; rfl)
  exact State.DrainsTo.taken hh still (h ▸ Sequencer.reset_quiet) hh (State.drainsTo_rest hh 0)

/-- R181: LOCAL ends the occurrence on the air. -/
theorem State.drainsTo_txLocal_ends {e : State} {o : Occurrence} {k : Taken} (rests : e.seq.Rests) (hh : e.handed = [])
    (armed : e.seq.armed = true) (occ : e.seq.cur.occ = some o) (taken : e.seq.cur.taken = some k)
    (on : e.seq.cur.onAir.isSome = true)
    (state : e.seq.cur.state = .ramping ∨ e.seq.cur.state = .onAir ∨ e.seq.cur.state = .recycling) (op : Operation) :
    ∃ l b r, State.DrainsTo { e with handed := [.txLocal op] } { e with
        log := l, bus := b, seq := { e.seq with cur := { Ctx.reset with state := .localHold, spent := some o.key } } } 1
      ∧ l.ring.getLast? = some r ∧ r.seq = e.log.nextSeq ∧ ∃ off, r.body
        = .entryOff o.source o.number .local_ (some k.terminal) e.seq.cur.admitted e.seq.cur.trips off := by
  obtain ⟨l, b, r, ends, newest, number, body⟩ := State.seqLocal_ends (s := e.noRetry) armed occ taken on rests.release state
  let u : State := { e with
    log := l, bus := b, seq := { e.seq with cur := { Ctx.reset with state := .localHold, spent := some o.key } } }
  have quiet : u.seq.Quiet := ⟨rests.ending, fun _ hr => by simp [u, Ctx.reset] at hr, SeqState.noConfusion, rests.search⟩
  exact ⟨l, b, r, State.DrainsTo.taken (e := e) (a := u) hh ends quiet hh (State.drainsTo_rest (s := u) hh 0), newest, number,
    _, body⟩

/-- A hand-out that is taken and tells more, with more to come. -/
theorem State.DrainsTo.takenTells {e a u : State} {m : Handed} {ms rest : List Handed} {n : Nat} (hh : e.handed = [])
    (ha : e.take m = { a with handed := ms }) (hr : a.seq.Quiet) (d : State.DrainsTo { a with handed := ms ++ rest } u n) :
    State.DrainsTo { e with handed := m :: rest } u (n + 1) := by
  refine State.DrainsTo.take rfl (a := { a with handed := ms }) ?_ d
  rw [show ({ e with handed := [] } : State) = e by rw [← hh], ha]
  exact Sequencer.Quiet.advance (s := { a with handed := ms }) hr _

/-- R148: with nothing that waits for it SETTLED is nothing more. -/
theorem State.drainsTo_settledNews {e : State} (quiet : e.seq.Quiet) (hh : e.handed = []) (settled : e.takeSettled = e)
    (rf : Bool) : State.DrainsTo { e with handed := settledNews rf } e 1 := by
  cases rf with
  | true => exact fun k _ => State.drainsTo_rest hh 0 k (Nat.zero_le k)
  | false => exact State.DrainsTo.taken hh settled quiet hh (State.drainsTo_rest hh 0)

/-- R181: REMOTE, at a station that has not been armed. -/
theorem State.drainsTo_txRemote_unarmed {e : State} (h : e.seq = Sequencer.reset) (hh : e.handed = []) (rf : Bool) :
    State.DrainsTo { e with handed := .txRemote :: settledNews rf } e 4 := by
  have quiet : e.seq.Quiet := h ▸ Sequencer.reset_quiet
  have told : e.take .txRemote = { e with handed := [.reevaluate false false] } := by
    show e.noRetry.seqRemote = _
    rw [State.noRetry_reset h]
    refine (if_neg ?_).trans (State.emit_of hh _)
    rw [h]
    decide
  have settled : e.takeSettled = e := State.takeSettled_still (by rw [h]; rfl) (fun hs => by rw [h] at hs; cases hs)
    (fun hb => by rw [h] at hb; cases hb)
  refine State.DrainsTo.takenTells hh told quiet ?_
  let w : State := { e with handed := .reevaluate false false :: settledNews rf }
  exact fun k hk => State.DrainsTo.still (s := w) rfl (Still.reevaluate (s := w) h _ _)
    (State.drainsTo_settledNews quiet hh settled rf) k (by omega)

/-- R181: REMOTE ends LOCAL-HOLD; the terminal that has been kept is to be released. -/
theorem State.drainsTo_txRemote_hold {e : State} (state : e.seq.cur.state = .localHold) (taken : e.seq.cur.taken = none)
    (held : ∀ h, ownHeld e.map = some h → e.rfPresent = true ∧ e.seq.nxt.terminal ≠ some h.1)
    (content : State.Content { e with
      seq := { e.seq with cur := { e.seq.cur with state := .idle, retry := none, closeWaits := false } } })
    (op : e.link.op = if e.rfPresent then .settling else .none) :
    State.DrainsTo { e with handed := .txRemote :: settledNews e.rfPresent } { e with
      seq := { e.seq with cur := { e.seq.cur with
        state := .idle, retry := none, closeWaits := false
        release := (ownHeld e.map).map fun h => { terminal := h.1, stage := .settle, waitLink := false } } } } 6 := by
  let a : State := { e with
    seq := { e.seq with cur := { e.seq.cur with state := .idle, retry := none, closeWaits := false } } }
  have hh : e.handed = [] := content.calm.handed
  have told : e.take .txRemote = { a with handed := [.reevaluate false false, .releaseKept] } := by
    have idles : e.noRetry.setCur (e.noRetry.seq.cur.goto .idle) = a := by
      simp [State.noRetry, State.setCur, Ctx.goto, SeqState.place, a]
    show e.noRetry.seqRemote = _
    refine (if_pos (beq_iff_eq.mpr state)).trans ?_
    rw [idles]
    exact State.emit_of (s := a) hh _
  have kept : State.DrainsTo { a with handed := .releaseKept :: settledNews e.rfPresent } { a with
      seq := { a.seq with cur := { a.seq.cur with
        release := (ownHeld e.map).map fun h => { terminal := h.1, stage := .settle, waitLink := false } } } } 2 := by
    rcases own : ownHeld e.map with _ | h
    · have same : a.take .releaseKept = a := by
        show a.takeReleaseKept = a
        unfold State.takeReleaseKept State.heldTerminal
        rw [show ownHeld a.map = none from own]
        rfl
      have settled : a.takeSettled = a := State.takeSettled_still rfl (fun hs => by simp [a] at hs)
        (fun hb => by simp [a, Ctx.breakable] at hb)
      rw [Option.map_none, ← show a.seq.cur.release = none from content.calm.release]
      exact State.DrainsTo.taken hh same content.calm.rests.quiet hh
        (State.drainsTo_settledNews content.calm.rests.quiet hh settled _)
    · obtain ⟨rf, other⟩ := held h own
      let f : State := a.startRelease h.1 .settle false
      have released : a.take .releaseKept = f := by
        show a.takeReleaseKept = f
        unfold State.takeReleaseKept State.heldTerminal
        rw [show ownHeld a.map = some h from own]
        refine if_neg ?_
        rw [State.holderOf_none (s := a) taken other, show a.seq.cur.release = none from content.calm.release]
        decide
      have go : f.LetsGo h.1 := ⟨content.calm.ending, rfl, taken, SeqState.noConfusion, content.calm.search⟩
      have waits : f.mayOpen true = false := by
        simp [State.mayOpen, show f.link.op = .settling from op.trans (if_pos rf)]
      have d : State.DrainsTo { a with handed := [.releaseKept] } f 1 := by
        refine State.DrainsTo.take (rest := []) rfl (a := f) ?_ ?_
        · rw [show ({ a with handed := [] } : State) = a by rw [← hh]]
          exact (congrArg (State.advance · true) released).trans (go.waits waits)
        · rw [List.append_nil]
          exact State.drainsTo_self hh
      rw [show settledNews e.rfPresent = [] from if_pos rf]
      exact fun k hk => d k (by omega)
  refine fun k hk => State.DrainsTo.takenTells hh told content.calm.rests.quiet (n := 4) ?_ k (by omega)
  refine State.DrainsTo.content (m := .reevaluate false false) rfl (.inl ⟨_, rfl⟩) ?_ kept
  rw [show ({ a with handed := [] } : State) = a by rw [← hh]]
  exact content

/-- R180: TX-FAULT, and SETTLED after it, at a station that has not been armed. -/
theorem State.drainsTo_txFault_unarmed {s e : State} (h : e.seq = Sequencer.reset) (hh : e.handed = []) (code : Nat) :
    State.DrainsTo { e with handed := s.cutNews (.txFault code) } e 2 := by
  have still : State.take { e with handed := [] } (.txFault code) = e := by
    rw [show ({ e with handed := [] } : State) = e by rw [← hh]]
    show e.noRetry.seqBreak .txFault = e
    rw [State.noRetry_reset h]
    exact State.seqBreak_still (by rw [h]; rfl) _
  exact State.drainsTo_cutNews still (h ▸ Sequencer.reset_quiet) hh (State.takeSettled_still (by rw [h]; rfl)
    (fun hs => by rw [h] at hs; cases hs) (fun hb => by rw [h] at hb; cases hb))

/-- R180: an occurrence whose carrier has broken. -/
theorem Ctx.broken_eq (c : Ctx) (k : Break) (now : Nat) : c.broken k now = { ({ c with
    offSince := if c.onAir.isSome then c.offSince.or (some now) else c.offSince } : Ctx).goto .tuning with
      brk := some k, heldStep := c.stands, former := none } := by
  unfold Ctx.broken Ctx.goOff
  split <;> rfl

/-- R180: TX-FAULT breaks the occurrence under way, and SETTLED after it does nothing more. -/
theorem State.drainsTo_txFault_breaks {s e : State} (rests : e.seq.Rests) (hh : e.handed = [])
    (breaks : e.seq.cur.breakable = true) (code : Nat) : State.DrainsTo { e with handed := s.cutNews (.txFault code) }
      (e.setCur (e.noRetry.seq.cur.broken .txFault e.now)) 2 := by
  have broken : State.take { e with handed := [] } (.txFault code) = e.setCur (e.noRetry.seq.cur.broken .txFault e.now) := by
    rw [show ({ e with handed := [] } : State) = e by rw [← hh]]
    exact if_pos breaks
  rw [Ctx.broken_eq] at broken ⊢
  exact State.drainsTo_cutNews broken ⟨rests.ending, rests.quiet.release, SeqState.noConfusion, rests.search⟩ hh
    (State.takeSettled_still rfl (fun hs => by cases hs) (fun _ => ⟨by simp [State.setCur], by simp [State.setCur]⟩))

/-- Settles O41. -/
theorem reportIsTaken : Obligations.ReportIsTaken := by
  intro s t bytes image join length kind sum flags report link records
  let a : State := s.atTime t
  have rule : ruleOf (.reportReceived t bytes) a = a.takeReport report := State.takes_of image join length kind sum flags
  refine ⟨fun fault local_ => ⟨fun hh known op => ?_, fun calm up op seen =>
    ⟨fun o x state occ terminal same fresh early before tuned => ?_, fun before tuned failed => ?_⟩,
    fun o x calm up op state occ terminal before tuned => ⟨fun remote sound hs => ?_, fun unclosed => ?_⟩,
    fun lost op content => ?_⟩, fun known => ⟨fun now remote fault before => ?_,
    fun now local_ fault before level admitted => ?_,
    fun faulty sound now remote before lower carry => ?_,
    fun faulted local_ op before other => ?_⟩⟩
  · have taken := State.takeReport_same (State.linkUp_known (s := a.reported report) known)
      (Operation.unmoved_of op) local_ fault
    exact exec_quiet rfl (rule.trans taken) hh
  · exact exec_drains rfl rule (State.takeReport_tuned (s := a) calm.rests calm.handed up
      local_ fault op seen state occ terminal
      same fresh early before tuned)
  · let b : State := { s with
      link := { s.link with
        report := some report, lossDeadline := some (max s.now t + 3000), tuneDeadline := some 0 } }
    let c : State := { a with
      link := { (a.reported report).link with permit := false, tuneDeadline := none, op := .none, opTerminal := none } }
    have failed := State.takeReport_failed (s := a) calm.handed up local_ fault op seen before tuned failed
    have limit : ruleOf (.tuneDeadline t) (b.atTime t) = { c with handed := [.txTuneFailed s.link.opTerminal true] } :=
      (if_pos (by simp [State.tuneDue, State.reached, State.atTime, b, op])).trans (State.emit_of (s := c) calm.handed _)
    have alike : State.drain { c with handed := [.txTuneFailed s.link.opTerminal false] }
        = State.drain { c with handed := [.txTuneFailed s.link.opTerminal true] } := State.drain_congr rfl
    refine (exec_eq_run (u := t) rfl s).trans ((congrArg Host.Outcome.next ?_).trans (exec_eq_run (u := t) rfl b).symm)
    show State.drain (ruleOf (.reportReceived t bytes) a) = State.drain (ruleOf (.tuneDeadline t) (b.atTime t))
    rw [rule, failed, limit]
    exact alike
  · obtain ⟨u, d, tunes, held, fields⟩ := State.detuned_tunes (s := a) calm.rests calm.handed join up local_ fault op state occ
      terminal before tuned remote sound ⟨hs.closed, hs.atRest, hs.held⟩
    exact ⟨u, exec_drains rfl rule d, tunes, held, fields⟩
  · obtain ⟨c, d, state, occ, retry⟩ := State.detuned_refused (s := a) calm.rests calm.handed up local_ fault op state occ
      terminal before tuned unclosed
    exact ⟨_, exec_drains rfl rule d, rfl, state, occ, retry, rfl, rfl, rfl⟩
  · refine ⟨fun state brk => ?_, fun o x state brk occ terminal remote sound hs => ?_⟩
    · obtain ⟨l, b, d, record⟩ := State.linkBack_stays (s := a) lost op content local_ fault state brk
      exact ⟨_, exec_drains rfl rule d, ⟨rfl, rfl, record, rfl, rfl, rfl⟩, rfl, rfl⟩
    · obtain ⟨u, d, up, alert, record, mat, map, psu, tunes, brk⟩ := State.linkBack_tunes (s := a) lost op content local_ fault
        join state brk occ terminal remote sound ⟨hs.closed, hs.atRest, hs.held⟩
      exact ⟨u, exec_drains rfl rule d, ⟨up, alert, record, mat, map, psu⟩, tunes, brk⟩
  · refine ⟨fun h => ?_, fun o k late calm armed occ _ taken on state power lower carry => ?_⟩
    · obtain ⟨p, n, m, cont⟩ := State.local_begins
        (s := a) h.rests h.handed known now remote fault before h.power h.lower h.carry
      let e : State := { a with
        link := { State.localLink (a.reported report) with state := .up }, pres := p
        bus := { a.bus with notice := n, noticeNext := m }
        psu := { s.psu with localMark := true, admitted := none, announced := totalDemand s.cfg s.cfg.rating 100 .am } }
      have d := State.drainsTo_txLocal_unarmed (e := e) h.seq h.handed s.link.op
      exact ⟨e, exec_drains rfl rule (cont e _ d), ⟨rfl, rfl, rfl, rfl⟩, rfl, rfl⟩
    · obtain ⟨p, n, m, cont⟩ := State.local_begins
        (s := a) calm.rests calm.handed known now remote fault before power lower carry
      let e : State := { a with
        link := { State.localLink (a.reported report) with state := .up }, pres := p
        bus := { a.bus with notice := n, noticeNext := m }
        psu := { s.psu with localMark := true, admitted := none, announced := totalDemand s.cfg s.cfg.rating 100 .am } }
      obtain ⟨l, b, r, d, newest, number, body⟩ := State.drainsTo_txLocal_ends (e := e) calm.rests calm.handed armed occ taken
        (by rw [show e.seq.cur.onAir = some late from on]; rfl) state a.link.op
      exact ⟨_, r, exec_drains rfl rule (cont _ _ d), ⟨rfl, rfl, rfl, rfl⟩, rfl, newest, number, body⟩
  · refine ⟨fun h => ?_, fun state taken held content lower carry => ?_⟩
    · obtain ⟨l, p, n, m, cont, up, remote, level, op, records⟩ := State.local_ends
        (s := a) h.rests h.handed known now local_ fault
        before level admitted join
      let e : State := { a with
        link := l, pres := p
        bus := { a.bus with notice := n, noticeNext := m }
        psu := { s.psu with localMark := false, announced := s.cfg.standby } }
      have d := State.drainsTo_txRemote_unarmed (e := e) h.seq h.handed s.rfPresent
      exact ⟨e, exec_drains rfl rule (cont e _ d), ⟨up, remote, level, op, records, rfl, rfl, rfl⟩, rfl⟩
    · have rests : a.seq.Rests := ⟨content.calm.ending, content.calm.release, by
        rw [show a.seq.cur.state = .localHold from state]; exact SeqState.noConfusion, content.calm.search⟩
      obtain ⟨l, p, n, m, cont, up, remote, level, op, records⟩ := State.local_ends (s := a) rests content.calm.handed known now
        local_ fault before level admitted join
      let e : State := { a with
        link := l, pres := p
        bus := { a.bus with notice := n, noticeNext := m }
        psu := { s.psu with localMark := false, announced := s.cfg.standby } }
      have d := State.drainsTo_txRemote_hold (e := e) state taken held (content.of_same ⟨rfl, rfl, rfl, rfl, rfl, rfl⟩) op
      exact ⟨_, exec_drains rfl rule (cont _ _ d), ⟨up, remote, level, op, records, rfl, rfl, rfl⟩, rfl⟩
  · refine ⟨fun h => ?_, fun calm occ state => ?_⟩
    · obtain ⟨l, cont, facts⟩ := State.fault_begins
        (s := a) h.rests h.handed known faulty sound now remote before join lower carry
      obtain ⟨up, code, permit, level, plan, deadline, recycle, op, records⟩ := facts
      let e : State := { a with link := l }
      have d := State.drainsTo_txFault_unarmed (s := a) (e := e) h.seq h.handed report.fault
      exact ⟨e, exec_drains rfl rule (cont e _ d),
        ⟨up, code, permit, level, plan, deadline, recycle, op, records, rfl, rfl, rfl, rfl⟩, rfl⟩
    · obtain ⟨l, cont, facts⟩ := State.fault_begins (s := a) calm.rests calm.handed known faulty sound now remote before join
        lower carry
      obtain ⟨up, code, permit, level, plan, deadline, recycle, op, records⟩ := facts
      let e : State := { a with link := l }
      have d := State.drainsTo_txFault_breaks (s := a) (e := e) calm.rests calm.handed (Ctx.breakable_of occ state) report.fault
      rw [Ctx.broken_eq] at d
      exact ⟨_, exec_drains rfl rule (cont _ _ d),
        ⟨up, code, permit, level, plan, deadline, recycle, op, records, rfl, rfl, rfl, rfl⟩, rfl, rfl, rfl, rfl, rfl,
          rfl, rfl, rfl⟩
  · have told (hh : s.handed = []) := State.fault_changes (s := a) hh known faulted local_ op before other
    let e : State := { a with link := { (a.reported report).link with state := .up, faultCode := report.fault } }
    refine ⟨fun h => ?_, fun o x clear calm state brk occ terminal remote hs => ?_⟩
    · have still : e.take (if report.fault = 0 then .txClear else .txFault report.fault) = e := by
        have noRetry : e.noRetry = e := State.noRetry_reset h.seq
        split
        · show e.noRetry.seqTxClear = e
          rw [noRetry]
          unfold State.seqTxClear
          rw [show e.seq = Sequencer.reset from h.seq]
          rfl
        · show e.noRetry.seqBreak .txFault = e
          rw [noRetry]
          exact State.seqBreak_still (by rw [show e.seq = Sequencer.reset from h.seq]; rfl) _
      exact exec_drains rfl (rule.trans (told h.handed))
        (State.DrainsTo.taken (e := e) (a := e) h.handed still h.rests.quiet h.handed
        (State.drainsTo_rest (s := e) h.handed 0))
    · let f : State := e.noRetry.setCur { e.noRetry.seq.cur with brk := none }
      have again : e.take .txClear = f.tuneCur := State.seqTxClear_tunes (s := e.noRetry) brk state occ terminal
        (Matrix.posOf_of_onlyClosed hs.closed)
      obtain ⟨l, p, b, shape, tunes, -, sound⟩ := State.tuneCur_tunes (s := f) occ terminal ⟨hs.closed, hs.atRest, hs.held⟩ rfl
        remote clear (.inl op) join
      let g : State := { f with link := l, pres := p, bus := b, seq := { f.seq with cur := f.seq.cur.goto .tuning } }
      rw [shape] at tunes
      have d := State.DrainsTo.taken (e := e) (a := g) calm.handed (again.trans shape) ⟨calm.ending, calm.rests.quiet.release,
        SeqState.noConfusion, calm.search⟩ calm.handed (State.drainsTo_rest (s := g) calm.handed 0)
      have cleared := told calm.handed
      rw [if_pos clear] at cleared
      exact ⟨_, exec_drains rfl (rule.trans cleared) d, tunes, sound, rfl, rfl, rfl, rfl⟩

end Sys2Proof.Machine

/-! PROOF. O33: HOLDOVER and the end of the calendar's range (R32, R33, R170, R171, R173). -/

namespace Sys2Proof.Machine

/-- R170: with the clock UNSET nothing is current and nothing next. -/
theorem State.nothing_of_unset {s : State} (h : s.utc = none) : s.currentEntry = none ∧ s.nextEntry = none := by
  have instant : s.instant = none := by
    unfold State.instant
    rw [h]
    rfl
  unfold State.currentEntry State.nextEntry
  rw [instant]
  exact ⟨rfl, rfl⟩

/-- R40: while UNSET a record is stamped with the local second. -/
theorem State.recordOf_unset {s : State} (h : s.utc = none) (b : LogBody) :
    (s.recordOf b).unset = true ∧ (s.recordOf b).stamp = s.localSecond := by
  unfold State.recordOf
  rw [h]
  exact ⟨rfl, rfl⟩

/-- R171: an empty C that is not in LOCAL-HOLD loses its spent mark once nothing is current. -/
def Ctx.forgotten (c : Ctx) : Ctx := if c.state = .localHold then c else { c with spent := none }

/-- R171, R173: with nothing current an empty C is emptied of its spent mark, and the next context is looked at. -/
theorem State.evaluate_nothing {s : State} (occ : s.seq.cur.occ = none) (x : s.currentEntry = none) (hh : s.handed = [])
    (b : Bool) : s.evaluate b false = { s.setCur s.seq.cur.forgotten with handed := [.prepareNext] } := by
  have compared : (if s.seq.cur.state == .localHold then s else s.compareCurrent b) = s.setCur s.seq.cur.forgotten := by
    unfold Ctx.forgotten
    by_cases hold : s.seq.cur.state = .localHold
    · simp [hold, State.setCur]
    · unfold State.compareCurrent
      simp [hold, occ, x]
  unfold State.evaluate
  simp only [Bool.false_eq_true, if_false]
  rw [compared]
  exact State.emit_of (s := s.setCur s.seq.cur.forgotten) hh _

/-- R173: with nothing next the next context is emptied. -/
theorem State.prepareNext_empties {s : State} (ending : s.seq.ending = none) (y : s.nextEntry = none)
    (found : s.emptyNext.seq.foundOffer = false) : s.prepareNext = s.emptyNext := by
  unfold State.prepareNext
  simp [ending, y, found]

/-- R118: a search that waits for its retry is cancelled. -/
theorem State.emptyNext_retry {s : State} {y : Occurrence} (nxt : s.seq.nxt.occ = some y) (serves : s.claim.occ = some y)
    (phase : s.claim.phase = .retryWait) (watched : s.claim.watched = none) :
    s.emptyNext = { s with claim := Claim.reset, seq := { s.seq with nxt := Ctx.reset } } := by
  have serving : s.claim.serving = some y.key := by simp [Claim.serving, phase, serves]
  have idle : s.claim.idle = Claim.reset := by
    unfold Claim.idle
    rw [watched]
    rfl
  have context : s.cancelContext y.key = { s with claim := Claim.reset } := by
    unfold State.cancelContext
    rw [serving, if_pos (beq_self_eq_true _), phase]
    dsimp only
    rw [idle]
  unfold State.emptyNext State.cancelClaim
  rw [show s.seq.nxt.key = some y.key from congrArg (Option.map Occurrence.key) nxt]
  dsimp only
  rw [context]
  rfl

/-- R33: past the end of the calendar's range the clock is UNSET, and a re-evaluation is told. -/
theorem State.rangeEnd_tells {s : State} {t v : Nat} (hh : s.handed = []) (utc : (s.atTime t).utc = some v)
    (past : 3155759999 < v) : ruleOf (.clockRangeEnd t) (s.atTime t)
      = { s.atTime t with clock := Clock.reset, handed := [.reevaluate false false] } :=
  (if_pos (by simp [State.rangeEnded, utc, maxUtc, past])).trans
    (State.emit_of (s := { s.atTime t with clock := Clock.reset }) hh _)

theorem State.Calm.forgotten {s : State} (h : s.Calm) : (s.setCur s.seq.cur.forgotten).seq.Rests := by
  refine ⟨h.ending, ?_, ?_, h.search⟩
  · show (Ctx.forgotten _).release = none
    unfold Ctx.forgotten
    split <;> exact h.release
  · show (Ctx.forgotten _).state ≠ .awaitTerminal
    unfold Ctx.forgotten
    split <;> exact h.await

/-- R171, R173: the re-evaluation of an armed station that has nothing current, nothing next and nothing on the air. -/
theorem State.drainsTo_nothing {a u : State} (calm : a.Calm) (armed : a.seq.armed = true) (occ : a.seq.cur.occ = none)
    (utc : a.utc = none) (prepared : (a.setCur a.seq.cur.forgotten).prepareNext = u) (rests : u.seq.Rests)
    (hu : u.handed = []) : State.DrainsTo { a with handed := [.reevaluate false false] } u 2 := by
  have evaluates : a.take (.reevaluate false false) = { a.setCur a.seq.cur.forgotten with handed := [.prepareNext] } :=
    (if_pos armed).trans (State.evaluate_nothing occ (State.nothing_of_unset utc).1 calm.handed false)
  refine State.DrainsTo.takenOnly calm.handed evaluates calm.forgotten ?_
  exact State.DrainsTo.taken (e := a.setCur a.seq.cur.forgotten) calm.handed prepared rests.quiet hu
    (State.drainsTo_rest hu 0)

/-- Settles O33. -/
theorem clockHoldsOverAndEnds : Obligations.ClockHoldsOverAndEnds := by
  intro s t
  refine ⟨fun l hh state last passed => ?_, fun v h utc past => ?_, fun v utc past => ?_⟩
  · exact exec_quiet (t := t) rfl
      (if_pos (by simp [State.holdoverDue, State.reached, State.atTime, state, last, holdoverMs, passed])) hh
  · let a : State := { s.atTime t with clock := Clock.reset }
    let w : State := { a with handed := [.reevaluate false false] }
    exact exec_drains rfl (State.rangeEnd_tells h.handed utc past) (State.DrainsTo.still (s := w) rfl
      (Still.reevaluate (s := w) h.seq _ _) (State.drainsTo_rest (s := a) h.handed 0))
  · let a : State := { s.atTime t with clock := Clock.reset }
    have again (calm : s.Calm) : a.Calm := ⟨calm.handed, calm.ending, calm.release, calm.await, calm.search⟩
    refine ⟨fun calm armed found occ => ⟨fun nxt => ?_, fun y nxt serves phase watched => ?_⟩, fun o k p air nxt ramp => ?_⟩
    · let u : State := a.setCur a.seq.cur.forgotten
      have prepared : u.prepareNext = u :=
        State.prepareNext_of_none calm.ending (State.nothing_of_unset rfl).2 nxt found
      exact exec_drains rfl (State.rangeEnd_tells calm.handed utc past)
        (State.drainsTo_nothing (again calm) armed occ rfl prepared (again calm).forgotten calm.handed)
    · let e : State := a.setCur a.seq.cur.forgotten
      let u : State := { e with claim := Claim.reset, seq := { e.seq with nxt := Ctx.reset } }
      have empties : e.emptyNext = u := State.emptyNext_retry (s := e) nxt serves phase watched
      have prepared : e.prepareNext = u := (State.prepareNext_empties (s := e) calm.ending (State.nothing_of_unset rfl).2
        (by rw [empties]; exact found)).trans empties
      obtain ⟨ending, release, await, -⟩ := (again calm).forgotten
      exact exec_drains rfl (State.rangeEnd_tells calm.handed utc past)
        (State.drainsTo_nothing (again calm) armed occ rfl prepared ⟨ending, release, await, rfl⟩ calm.handed)
    · have airing : a.OnAir o k := { air with calm := again air.calm }
      obtain ⟨u, ends, drains⟩ := airing.drainsTo_cut nxt ramp (State.nothing_of_unset rfl).1 (State.nothing_of_unset rfl).2
        (m := .reevaluate false false) (b := false) rfl
      rw [State.codeNow_of_event] at ends
      let v : State := { u with handed := [] }
      have d := drains [] v 0 (State.drainsTo_self rfl)
      obtain ⟨b, logged⟩ := ends.logged
      have newest : v.log.ring.getLast? = some (a.recordOf b) := by
        rw [show v.log = _ from logged]
        exact a.writeLog_newest b
      obtain ⟨unset, stamp⟩ := State.recordOf_unset (s := a) rfl b
      exact ⟨v, exec_drains rfl (State.rangeEnd_tells air.calm.handed utc past) d, ends.clock,
        ends.toRampsDown.of_same rfl rfl rfl rfl rfl rfl rfl rfl, ⟨_, newest, unset, stamp⟩, ends.store, ends.map, ends.mat⟩

end Sys2Proof.Machine

/-! SUPPORT. What the store does at a minute, a clock setting, and the contexts converted afresh (R18, R19, R23, R29 to R31,
R168, R170). -/

namespace Sys2Proof.Machine

/-! ## Records (R40, R184) -/

/-- R40, R184: a record is a question to the clock, local time, the minute being taken and the air log. -/
theorem State.writeLog_log_congr {s t : State} (clock : s.clock = t.clock) (now : s.now = t.now)
    (stamp : s.stampMinute = t.stampMinute) (log : s.log = t.log) (b : LogBody) :
    (s.writeLog b).log = (t.writeLog b).log := by
  unfold State.writeLog State.utc State.localSecond
  rw [clock, now, stamp]
  split <;> simp [State.writeLogAt, log]

/-- R184: a record stamped with a given time is the newest. -/
theorem AirLog.newestAre_write (l : AirLog) (stamp : Nat) (unset : Bool) (b : LogBody) :
    (l.write stamp unset b).NewestAre [{ seq := l.nextSeq, stamp := stamp, unset := unset, body := b }] := by
  unfold AirLog.NewestAre AirLog.write
  dsimp only
  rw [List.drop_append_of_le_length (by simp only [List.length_append, List.length_singleton, ringCapacity]; omega)]
  simp

theorem AirLog.NewestAre.mem {l : AirLog} {rs : List LogRecord} (h : l.NewestAre rs) {r : LogRecord} (hr : r ∈ rs) :
    r ∈ l.ring := by
  unfold AirLog.NewestAre at h
  rw [← h] at hr
  exact List.mem_of_mem_drop hr

/-! ## The store at a minute (R18, R19, R23) -/

/-- R18: the banks after a changeover. -/
def Store.changedOver (s : Store) (bk : Bank) (m : Nat) : Store :=
  (match s.spentBy bk m with
    | some o => s.setState o .spent
    | none => s).setState bk .live

/-- R18: the headers that a changeover issues for writing. -/
def headerWrites (s : Store) (bks : List Bank) : List PendingWrite :=
  bks.map fun bk => { what := .header bk ((s.bank bk).header bk), reply := none }

/-- R18, R24: a changeover, with its record and its notice. -/
theorem State.changeOver_eq (s : State) (bk : Bank) (m : Nat) : s.changeOver bk m = (State.writeLog { s with
      store := s.store.changedOver bk m
      serial := { s.serial with
        writes := s.serial.writes ++ headerWrites (s.store.changedOver bk m) ((s.store.spentBy bk m).toList ++ [bk]) } }
      (.changeover bk (s.store.bank bk).label (s.store.spentBy bk m))).emit [.storeNotice (.changeover bk)] := by
  unfold State.changeOver Store.changedOver
  rcases s.store.spentBy bk m with _ | o
  · rfl
  · unfold State.writeHeader State.issueWrite headerWrites
    simp

theorem Store.changedOver_extras (s : Store) (bk : Bank) (m : Nat) : (s.changedOver bk m).extras = s.extras := by
  have kept (s : Store) (bk : Bank) (st : BankState) : (s.setState bk st).extras = s.extras := by cases bk <;> rfl
  unfold Store.changedOver
  rw [kept]
  split
  · exact kept _ _ _
  · rfl

/-- R18, R19, R23: what the store holds after a minute. -/
def Store.atMinute (s : Store) (m : Nat) : Store :=
  { (match s.dueBank m with
    | some bk => s.changedOver bk m
    | none => s) with extras := removeExtras s.extras m }

/-- R23: with no bank due the extras alone change. -/
theorem State.storeMinute_rest {s : State} {m : Nat} (h : s.store.dueBank m = none) :
    s.storeMinute m = { s with store := s.store.atMinute m } := by
  unfold State.storeMinute State.changeoverTest Store.atMinute
  rw [h]

/-- R18, R19, R24: the bank that is due becomes LIVE. -/
theorem State.storeMinute_due {s : State} {m : Nat} {bk : Bank} (h : s.store.dueBank m = some bk) :
    ∃ l b, s.storeMinute m = { s with
        store := s.store.atMinute m, log := l, bus := b
        serial := { s.serial with
          writes := s.serial.writes ++ headerWrites (s.store.changedOver bk m) ((s.store.spentBy bk m).toList ++ [bk]) }
        handed := s.handed ++ [.storeNotice (.changeover bk)] }
      ∧ l = (s.writeLog (.changeover bk (s.store.bank bk).label (s.store.spentBy bk m))).log
      ∧ b.lastHeard = s.bus.lastHeard ∧ b.claim = s.bus.claim := by
  let x : State := { s with
    store := s.store.changedOver bk m
    serial := { s.serial with
      writes := s.serial.writes ++ headerWrites (s.store.changedOver bk m) ((s.store.spentBy bk m).toList ++ [bk]) } }
  let body : LogBody := .changeover bk (s.store.bank bk).label (s.store.spentBy bk m)
  obtain ⟨l, b, logged⟩ := x.writeLog_logged body
  have heard := x.writeLog_lastHeard body
  have claim := x.writeLog_claimSlot body
  rw [logged] at heard claim
  refine ⟨l, b, ?_, ?_, heard, claim⟩
  · have extras := s.store.changedOver_extras bk m
    unfold State.storeMinute State.changeoverTest Store.atMinute
    rw [h]
    dsimp only
    rw [State.changeOver_eq, show State.writeLog _ _ = _ from logged]
    unfold State.emit
    simp only [extras, x]
  · rw [← State.writeLog_log_congr (s := x) (t := s) rfl rfl rfl rfl body, logged]

/-- R18, R19, R23: at a minute the store may write headers and one record, and tells of a changeover. -/
theorem State.storeMinute_shape (s : State) (m : Nat) : ∃ ser l b hs, s.storeMinute m = { s with
      store := s.store.atMinute m, serial := ser, log := l, bus := b, handed := s.handed ++ hs }
    ∧ (hs = [] ∨ ∃ n, hs = [.storeNotice n]) ∧ b.lastHeard = s.bus.lastHeard ∧ b.claim = s.bus.claim
    ∧ (l = s.log ∨ ∃ bk label o, l = (s.writeLog (.changeover bk label o)).log) := by
  rcases due : s.store.dueBank m with _ | bk
  · exact ⟨s.serial, s.log, s.bus, [], by rw [State.storeMinute_rest due, List.append_nil], .inl rfl, rfl, rfl, .inl rfl⟩
  · obtain ⟨l, b, shape, log, heard, claim⟩ := State.storeMinute_due due
    exact ⟨_, l, b, _, shape, .inr ⟨_, rfl⟩, heard, claim, .inr ⟨_, _, _, log⟩⟩

theorem State.storeMinute_store (s : State) (m : Nat) : (s.storeMinute m).store = s.store.atMinute m := by
  obtain ⟨ser, l, b, hs, shape, -⟩ := s.storeMinute_shape m
  rw [shape]

/-! ## A clock setting (R29, R30) -/

/-- R24, R30: the removal of an extra is told. -/
theorem State.noticeRemoval_shape (s : State) (before : List (Option Extra)) :
    ∃ hs, s.noticeRemoval before = { s with handed := s.handed ++ hs } ∧ (hs = [] ∨ ∃ n, hs = [.storeNotice n]) := by
  unfold State.noticeRemoval
  split
  · exact ⟨_, rfl, .inr ⟨_, rfl⟩⟩
  · exact ⟨[], by rw [List.append_nil], .inl rfl⟩

/-- Notices of the store alone. -/
def StoreNews (hs : List Handed) : Prop := ∀ m ∈ hs, ∃ n, m = .storeNotice n

theorem StoreNews.of {hs : List Handed} (h : hs = [] ∨ ∃ n, hs = [.storeNotice n]) : StoreNews hs := by
  rcases h with rfl | ⟨n, rfl⟩
  · exact fun m hm => by cases hm
  · exact fun m hm => ⟨n, List.mem_singleton.mp hm⟩

/-- R30: a FIRST or STEP setting writes its record, and a re-evaluation is told, with the notices of the store after it. -/
theorem State.stepSetting_shape (s : State) (f : Nat) (step : Bool) (old : Nat) (diff : Int) (hh : s.handed = []) :
    ∃ ser l b hs, s.stepSetting f step old diff = { s with
        clock := { s.clock with lastMinute := some (f / 60) }, store := s.store.atMinute (f / 60), serial := ser, log := l
        bus := b, handed := .reevaluate false step :: hs }
      ∧ StoreNews hs ∧ hs.length ≤ 2 ∧ b.lastHeard = s.bus.lastHeard
      ∧ ∃ rs, l.NewestAre rs ∧ rs.length ≤ 2 ∧ ∃ r ∈ rs, r.seq = s.log.nextSeq ∧ r.stamp = f ∧ r.unset = false
        ∧ r.body = .timeStep step old diff := by
  let body : LogBody := .timeStep step old diff
  let x : State := { s with
    log := s.log.write f false body, clock := { s.clock with lastMinute := some (f / 60) }
    bus := (s.writeLogAt f false body).bus, handed := [.reevaluate false step] }
  have placed : x.bus.lastHeard = s.bus.lastHeard := by
    show (if s.pres.join == .disabled then s.bus else _).lastHeard = _
    split
    · rfl
    · exact Bus.placeLogrec_lastHeard _ _
  obtain ⟨ser, l, b, ms, stored, news, heard, -, log⟩ := x.storeMinute_shape (f / 60)
  obtain ⟨ks, removed, gone⟩ := (x.storeMinute (f / 60)).noticeRemoval_shape s.store.extras
  have first := AirLog.newestAre_write s.log f false body
  refine ⟨ser, l, b, ms ++ ks, ?_, ?_, ?_, heard.trans placed, ?_⟩
  · have sets : s.stepSetting f step old diff = (x.storeMinute (f / 60)).noticeRemoval s.store.extras := by
      unfold State.stepSetting State.emit
      dsimp only
      rw [show (s.writeLogAt f false (.timeStep step old diff)).handed = [] from hh]
      rfl
    rw [sets, removed, stored]
    simp only [x, List.append_assoc]
    rfl
  · intro m hm
    rcases List.mem_append.mp hm with h | h
    · exact StoreNews.of news m h
    · exact StoreNews.of gone m h
  · rcases news with rfl | ⟨n, rfl⟩ <;> rcases gone with rfl | ⟨k, rfl⟩ <;> simp
  · let r : LogRecord := { seq := s.log.nextSeq, stamp := f, unset := false, body := body }
    have own : x.log.NewestAre [r] := first
    rcases log with rfl | ⟨bk, label, o, rfl⟩
    · exact ⟨[r], own, by simp, r, List.mem_singleton.mpr rfl, rfl, rfl, rfl, rfl⟩
    · exact ⟨[r] ++ [_], own.writeLog (by simp) _, by simp, r, by simp, rfl, rfl, rfl, rfl⟩

/-! ## The contexts converted afresh (R168, R170) -/

theorem ownIn_terminal (m : List TermRow) (st : BookState) :
    (ownIn m st).map (·.1) = (m.find? fun r => r.slots.any (isOwn st)).map (·.number) := by
  unfold ownIn
  induction m with
  | nil => rfl
  | cons r m ih =>
    rcases found : r.slots.find? (fun b => b.source == .own && b.state == st) with _ | b
    · have none : r.slots.any (isOwn st) = false := by
        rw [List.any_eq_false]
        exact List.find?_eq_none.mp found
      simpa [firstSome, found, List.find?_cons, none] using ih
    · have some : r.slots.any (isOwn st) = true :=
        List.any_eq_true.mpr ⟨b, List.mem_of_find?_eq_some found, List.find?_some found⟩
      simp [firstSome, found, some]

theorem any_insertBooking (p : Booking → Bool) (b : Booking) (l : List Booking) :
    (insertBooking b l).any p = (p b || l.any p) := by
  rw [Bool.eq_iff_iff]
  simp [List.any_eq_true, mem_insertBooking]

/-- A change of bookings that keeps what a test says of them keeps whether a row has one. -/
theorem TermRow.change_any (r : TermRow) {test p : Booking → Bool} {f : Booking → Booking} (h : ∀ b, p (f b) = p b) :
    (r.change test f).slots.any p = r.slots.any p := by
  have folded (xs ys : List Booking) : (xs.foldr insertBooking ys).any p = (xs.any p || ys.any p) := by
    induction xs with
    | nil => simp
    | cons x xs ih => simp [any_insertBooking, ih, Bool.or_assoc]
  unfold TermRow.change
  rw [folded, List.any_map, Bool.eq_iff_iff]
  simp only [Bool.or_eq_true, List.any_eq_true, List.mem_filter, Function.comp_apply, h]
  constructor
  · rintro (⟨b, ⟨hb, -⟩, pb⟩ | ⟨b, ⟨hb, -⟩, pb⟩) <;> exact ⟨b, hb, pb⟩
  · rintro ⟨b, hb, pb⟩
    by_cases hit : test b = true
    · exact .inl ⟨b, ⟨hb, hit⟩, pb⟩
    · exact .inr ⟨b, ⟨hb, by simpa using hit⟩, pb⟩

/-- R77: the rows with another until and class of an own booking. -/
def extendedRows (m : List TermRow) (t : Nat) (st : BookState) (cls : Nat) (till : Option Int) : List TermRow :=
  updateWhere (·.number == t) (fun r => r.change (isOwn st) fun b => { b with cls := cls, till := till }) m

/-- What an extension of own bookings leaves: their terminals, and the ratings and marks of the rows. -/
structure RowsExtended (m m' : List TermRow) : Prop where
  own : ∀ st, (ownIn m' st).map (·.1) = (ownIn m st).map (·.1)
  row : ∀ t, (rowOf m' t).map (fun r => (r.rating, r.suspect)) = (rowOf m t).map fun r => (r.rating, r.suspect)

theorem RowsExtended.refl (m : List TermRow) : RowsExtended m m := ⟨fun _ => rfl, fun _ => rfl⟩

theorem RowsExtended.trans {m m' m'' : List TermRow} (h : RowsExtended m m') (k : RowsExtended m' m'') :
    RowsExtended m m'' := ⟨fun st => (k.own st).trans (h.own st), fun t => (k.row t).trans (h.row t)⟩

theorem extendedRows_extended (m : List TermRow) (t : Nat) (st : BookState) (cls : Nat) (till : Option Int) :
    RowsExtended m (extendedRows m t st cls till) where
  own := fun other => by
    rw [ownIn_terminal, ownIn_terminal]
    unfold extendedRows updateWhere
    induction m with
    | nil => rfl
    | cons r m ih =>
      have kept : ((if r.number == t then r.change (isOwn st) fun b => { b with cls := cls, till := till } else r).slots.any
          (isOwn other)) = r.slots.any (isOwn other) := by
        split
        · exact r.change_any fun _ => rfl
        · rfl
      simp only [List.map_cons, List.find?_cons, kept]
      split
      · split <;> rfl
      · exact ih
  row := fun n => by
    unfold extendedRows
    rw [rowOf_updateWhere (f := fun r => r.change (isOwn st) fun b => { b with cls := cls, till := till }) fun _ h => h]
    split
    · rw [Option.map_map]
      rfl
    · rfl

/-- R77: an extension moves the map, with no more than a NOTICE. -/
theorem State.extendOwn_noticed (s : State) (t : Nat) (st : BookState) (cls : Nat) (till : Option Int) :
    State.Noticed { s with map := extendedRows s.map t st cls till } (s.extendOwn t st cls till) := by
  have held := (extendedRows_extended s.map t st cls till).own .held
  unfold State.extendOwn State.withMap
  dsimp only
  rw [show ((ownHeld s.map).map (·.1) != (ownHeld (updateWhere (·.number == t)
    (fun r => r.change (isOwn st) fun b => { b with cls := cls, till := till }) s.map)).map (·.1)) = false by
    rw [bne_eq_false_iff_eq]; exact held.symm]
  simp only [Bool.false_eq_true, if_false, State.emit_nil]
  split
  · exact State.noticeChange_noticed _
  · exact State.Noticed.refl _

/-- R170: the rows with the own HELD booking extended to the stop second of the context that has its terminal. -/
def extendedHeld (m : List TermRow) (q : Sequencer) : List TermRow :=
  match ownHeld m with
  | some (t, b) =>
    if q.nxt.terminal == some t && (ownBooked m).map (·.1) != some t then extendedRows m t .held b.cls (some q.nxt.stopSec)
    else if q.cur.terminal == some t then extendedRows m t .held b.cls (some q.cur.stopSec)
    else m
  | none => m

/-- R170: the same of the own BOOKED booking. -/
def extendedBooked (m : List TermRow) (q : Sequencer) : List TermRow :=
  match ownBooked m with
  | some (t, b) =>
    if q.nxt.terminal == some t then extendedRows m t .booked b.cls (some q.nxt.stopSec)
    else if q.cur.terminal == some t then extendedRows m t .booked b.cls (some q.cur.stopSec)
    else m
  | none => m

theorem extendedHeld_extended (m : List TermRow) (q : Sequencer) : RowsExtended m (extendedHeld m q) := by
  unfold extendedHeld
  split
  · exact iteInduction (fun _ => extendedRows_extended _ _ _ _ _) fun _ =>
      iteInduction (fun _ => extendedRows_extended _ _ _ _ _) fun _ => .refl m
  · exact .refl m

theorem extendedBooked_extended (m : List TermRow) (q : Sequencer) : RowsExtended m (extendedBooked m q) := by
  unfold extendedBooked
  split
  · exact iteInduction (fun _ => extendedRows_extended _ _ _ _ _) fun _ =>
      iteInduction (fun _ => extendedRows_extended _ _ _ _ _) fun _ => .refl m
  · exact .refl m

theorem State.Noticed.trans {s a u : State} {m : List TermRow} (h : s.Noticed a) (k : State.Noticed { a with map := m } u) :
    State.Noticed { s with map := m } u := by
  obtain ⟨p, n, l, rfl, join⟩ := h
  obtain ⟨p', n', l', rfl, join'⟩ := k
  exact ⟨p', n', l', rfl, join'.trans join⟩

/-- R170: the own HELD booking takes the new stop second. -/
def State.extendHeld (s : State) : State :=
  match ownHeld s.map with
  | some (t, b) =>
    if s.seq.nxt.terminal == some t && (ownBooked s.map).map (·.1) != some t then
      s.extendOwn t .held b.cls (some s.seq.nxt.stopSec)
    else if s.seq.cur.terminal == some t then s.extendOwn t .held b.cls (some s.seq.cur.stopSec)
    else s
  | none => s

/-- R170: the own BOOKED booking takes the new stop second. -/
def State.extendBooked (s : State) : State :=
  match ownBooked s.map with
  | some (t, b) =>
    if s.seq.nxt.terminal == some t then s.extendOwn t .booked b.cls (some s.seq.nxt.stopSec)
    else if s.seq.cur.terminal == some t then s.extendOwn t .booked b.cls (some s.seq.cur.stopSec)
    else s
  | none => s

theorem State.extendHeld_noticed (s : State) : State.Noticed { s with map := extendedHeld s.map s.seq } s.extendHeld := by
  unfold State.extendHeld extendedHeld
  split
  · split
    · exact s.extendOwn_noticed _ _ _ _
    · split
      · exact s.extendOwn_noticed _ _ _ _
      · exact .refl s
  · exact .refl s

theorem State.extendBooked_noticed (s : State) :
    State.Noticed { s with map := extendedBooked s.map s.seq } s.extendBooked := by
  unfold State.extendBooked extendedBooked
  split
  · split
    · exact s.extendOwn_noticed _ _ _ _
    · split
      · exact s.extendOwn_noticed _ _ _ _
      · exact .refl s
  · exact .refl s

theorem State.extendAll_eq (s : State) : s.extendAll = s.extendHeld.extendBooked := by
  have seq : s.extendHeld.seq = s.seq := by
    obtain ⟨p, n, m, shape, -⟩ := s.extendHeld_noticed
    rw [shape]
  unfold State.extendBooked
  rw [seq]
  rfl

/-- R170: the own bookings take the new stop seconds, with no more than a NOTICE. -/
theorem State.extendAll_noticed (s : State) :
    State.Noticed { s with map := extendedBooked (extendedHeld s.map s.seq) s.seq } s.extendAll := by
  have second := s.extendHeld.extendBooked_noticed
  obtain ⟨p, n, m, shape, join⟩ := s.extendHeld_noticed
  rw [State.extendAll_eq]
  rw [shape] at second ⊢
  exact State.Noticed.trans (s := s) ⟨p, n, m, rfl, join⟩ second

/-- R170: the sequencer with both contexts converted. -/
def State.reconverted (s : State) : Sequencer := { s.seq with cur := s.convert s.seq.cur, nxt := s.convert s.seq.nxt }

/-- R170: the rows after a conversion. -/
def State.reconvertedMap (s : State) : List TermRow :=
  extendedBooked (extendedHeld s.map s.reconverted) s.reconverted

theorem State.reconvertedMap_extended (s : State) : RowsExtended s.map s.reconvertedMap :=
  (extendedHeld_extended _ _).trans (extendedBooked_extended _ _)

/-- R168, R170: the contexts are converted, with no more than a NOTICE. -/
theorem State.reconvert_noticed (s : State) :
    State.Noticed { s with map := s.reconvertedMap, seq := s.reconverted } s.reconvert :=
  State.extendAll_noticed { s with seq := s.reconverted }

/-- R168: a conversion moves the times of a context alone. -/
theorem State.convert_eq (s : State) (c : Ctx) : ∃ stop ramp, s.convert c = { c with stopSec := stop, rampTime := ramp } := by
  unfold State.convert
  split
  · exact ⟨_, _, rfl⟩
  · split <;> exact ⟨_, _, rfl⟩

end Sys2Proof.Machine

/-! PROOF. O30: a TIME frame sets the clock (R28 to R31, R170, R171, R177). -/

namespace Sys2Proof.Machine

/-! ## A TIME frame (R28, R58, R60, R61) -/

/-- R60, R72, R75: but in ISOLATED heard traffic moves the last-heard-any time and the silence deadline alone. -/
theorem State.hear_elsewhere {s : State} (image : s.image = some .accepted) (join : s.pres.join ≠ .isolated) (start : Nat) :
    ∃ p, s.hear start = { s with
      pres := p
      bus := { s.bus with lastHeard := start } } ∧ p.join = s.pres.join := by
  cases hj : s.pres.join with
  | listening => exact ⟨s.pres, State.hear_absent image (.inl hj) start, hj⟩
  | disabled => exact ⟨s.pres, State.hear_absent image (.inr hj) start, hj⟩
  | learning => exact ⟨_, State.hear_present image (.inl hj) start, hj⟩
  | joined => exact ⟨_, State.hear_present image (.inr hj) start, hj⟩
  | isolated => exact absurd hj join

/-- R60: a TIME frame has been heard. -/
def State.timeHeard (s : State) (t : Nat) (f : RxFrame) (p : Presence) : State := { s.atTime t with
  pres := p
  bus := { s.bus with lastHeard := f.start } }

/-- R58, R61: a valid TIME frame is heard, and the clock takes it, whoever sends it. -/
theorem exec_timeReceived {s : State} {t : Nat} {f : RxFrame} (length : f.payload.length = 7)
    (image : s.image = some .accepted) (join : s.pres.join ≠ .isolated) (valid : (timeFields f.payload).valid = true)
    (hh : s.handed = []) : ∃ p, p.join = s.pres.join ∧ ∀ (a : State) (ms : List Handed) (u : State) (n : Nat),
      (s.timeHeard t f p).setClock (timeFields f.payload).utc f.start = { a with handed := ms } → a.seq.Quiet →
      State.DrainsTo { a with handed := ms } u n → n ≤ 99 → exec (.timeReceived t f) s = .next u := by
  obtain ⟨p, heard, joins⟩ := State.hear_elsewhere (s := s.atTime t) image join f.start
  refine ⟨p, joins, fun a ms u n set quiet d hn => ?_⟩
  have rule : ruleOf (.timeReceived t f) (s.atTime t) = { s.timeHeard t f p with handed := [.frame .time f] } := by
    have dispatched : (s.atTime t).receive .time f = ((s.atTime t).hear f.start).emit [.frame .time f] := by
      unfold State.receive
      rw [heard]
      simp [RxKind.length, length, passesChecks, senderFails, classFails, codesFail, RxKind.anySender, State.ownNumber,
        State.dispatch, RxKind.handed, State.handsOn, State.atTime, image]
    refine dispatched.trans ?_
    rw [heard]
    exact State.emit_of (s := s.timeHeard t f p) hh _
  have taken : (s.timeHeard t f p).take (.frame .time f) = { a with handed := ms } := (if_pos valid).trans set
  exact exec_drains rfl rule (State.DrainsTo.takenTells (e := s.timeHeard t f p) hh taken quiet
    (by rw [List.append_nil]; exact d)) (by omega)

/-! ## The hand-outs that follow (R170) -/

/-- Re-evaluations told by the store that find nothing to do. -/
theorem State.drainsTo_storeNews {a : State} (h : a.Content) {hs : List Handed} (news : StoreNews hs) :
    State.DrainsTo { a with handed := hs } a (2 * hs.length) := by
  induction hs with
  | nil => exact State.drainsTo_rest h.calm.handed 0
  | cons m hs ih =>
    obtain ⟨n, rfl⟩ := news m List.mem_cons_self
    refine State.DrainsTo.content (m := .storeNotice n) rfl (.inr ⟨n, rfl⟩) ?_
      (ih fun k hk => news k (List.mem_cons_of_mem _ hk))
    rw [show ({ a with handed := [] } : State) = a by rw [← h.calm.handed]]
    exact h

/-- At a station that has not been armed they are nothing. -/
theorem State.drainsTo_storeNews_unarmed {a : State} (h : a.seq = Sequencer.reset) (hh : a.handed = []) {hs : List Handed}
    (news : StoreNews hs) : State.DrainsTo { a with handed := hs } a hs.length := by
  have d := State.DrainsTo.stills (s := { a with handed := hs }) (ms := hs) (rest := []) (List.append_nil _).symm
    (fun m hm => by
      obtain ⟨n, rfl⟩ := news m hm
      exact Still.storeNotice (s := { a with handed := hs }) h n) (State.drainsTo_rest hh 0)
  exact fun k hk => d k (by omega)

/-- R170: an event told to a station that has cut its occurrence and has nothing current and nothing next is nothing. -/
theorem CutTo.drainsTo_news {s u : State} {o : Occurrence} {k : Taken} {code : EndCode} {kw : Nat} (h : CutTo s u o k code kw)
    (calm : s.Calm) (armed : s.seq.armed = true) (nxt : s.seq.nxt = Ctx.reset) (x : s.currentEntry = none)
    (y : s.nextEntry = none) (found : s.seq.foundOffer = false) {hs : List Handed} (news : StoreNews hs) :
    State.DrainsTo { u with handed := hs } { u with handed := [] } (2 * hs.length) := by
  let e : State := { u with handed := [] }
  have lingers := h.lingers calm nxt
  have cur : e.seq.cur = { Ctx.reset with
      state := .ending, release := some { terminal := k.terminal, stage := .settle, waitLink := false } } := by
    rw [show e.seq = _ from h.context]
  have same : e.setCur e.seq.cur.forgotten = e := by
    have forgets : e.seq.cur.forgotten = e.seq.cur := by
      rw [cur]
      rfl
    rw [forgets]
    rfl
  have nothing : e.currentEntry = none := (State.currentEntry_congr (s := s) h.clock h.now h.store).trans x
  have none : e.nextEntry = none := (State.nextEntry_congr (s := s) h.clock h.now h.store h.cfg).trans y
  have again : e.seq.armed = true ∧ e.seq.nxt = Ctx.reset ∧ e.seq.foundOffer = false := by
    rw [show e.seq = _ from h.context]
    exact ⟨armed, nxt, found⟩
  have evaluates (n : StoreNotice) : State.take { u with handed := [] } (.storeNotice n) =
    { e with handed := [.prepareNext] } := by
    refine (if_pos again.1).trans ((State.evaluate_nothing (s := e) (by rw [cur]; rfl) nothing rfl false).trans ?_)
    rw [same]
  have prepared : State.take { u with handed := [] } .prepareNext = e :=
    State.prepareNext_of_none (lingers []).ending none again.2.1 again.2.2
  induction hs with
  | nil => exact fun j hj => State.drainsTo_self rfl j hj
  | cons m hs ih =>
    obtain ⟨n, rfl⟩ := news m List.mem_cons_self
    have rest := ih fun j hj => news j (List.mem_cons_of_mem _ hj)
    exact State.DrainsTo.takeLingers rfl (evaluates n) (lingers [.prepareNext])
      (State.DrainsTo.takeLingers (s := { u with handed := .prepareNext :: hs }) rfl prepared (lingers []) rest)

/-! ## The settings (R29, R30) -/

/-- R29: the clock once it has been set. -/
theorem Clock.setTo_eq (c : Clock) (f t : Nat) : c.setTo f t
    = { state := .locked, refUtc := some f, refLocal := some t, lastTime := some t, lastMinute := c.lastMinute } := rfl

theorem Clock.classify_first {c : Clock} (h : c.state = .unset) (f t : Nat) : c.classify f t = .first := by
  unfold Clock.classify Clock.utcAt
  rw [h]

theorem Clock.utcAt_set {c : Clock} {ref start : Nat} (set : c.state ≠ .unset) (hr : c.refUtc = some ref)
    (hs : c.refLocal = some start) (t : Nat) : c.utcAt t = some (ref + (t - start) / 1000) := by
  unfold Clock.utcAt
  rw [hr, hs]
  cases h : c.state with
  | unset => exact absurd h set
  | locked => rfl
  | holdover => rfl

theorem Clock.classify_step {c : Clock} {f t p : Nat} (h : c.utcAt t = some p) (far : p + 10 < f ∨ f + 10 < p) :
    c.classify f t = .step p := by
  unfold Clock.classify
  rw [h]
  refine if_pos ?_
  simpa [stepSeconds] using far

theorem Clock.classify_small {c : Clock} {f t p : Nat} (h : c.utcAt t = some p) (ahead : f ≤ p + 10) (behind : p ≤ f + 10) :
    c.classify f t = .small := by
  unfold Clock.classify
  rw [h]
  refine if_neg ?_
  simp [stepSeconds, ahead, behind]

/-! ## A FIRST or STEP setting (R30, R170) -/

/-- R29 to R31: the state at a FIRST or STEP setting, but for what writes, records and notices it makes. -/
def State.clockStepped (s : State) (t utc start : Nat) : State := { s.atTime t with
  clock := {
    state := .locked, refUtc := some utc, refLocal := some start, lastTime := some start
    lastMinute := some (utc / 60) }
  store := ((s.atTime t).storeMinute (utc / 60)).store }

/-- R30: a FIRST or STEP setting writes its record, and then the re-evaluation and the notices of the store are taken. -/
theorem exec_timeSets {s : State} {t : Nat} {f : RxFrame} {step : Bool} {old : Nat} {diff : Int}
    (length : f.payload.length = 7) (image : s.image = some .accepted) (join : s.pres.join ≠ .isolated)
    (valid : (timeFields f.payload).valid = true) (hh : s.handed = []) (quiet : s.seq.Quiet)
    (sets : ∀ e : State, e.clock = s.clock → e.setClock (timeFields f.payload).utc f.start
      = State.stepSetting { e with clock := s.clock.setTo (timeFields f.payload).utc f.start }
        (timeFields f.payload).utc step old diff) :
    ∃ p ser l b hs, StoreNews hs ∧ hs.length ≤ 2 ∧ b.lastHeard = f.start ∧ p.join = s.pres.join
      ∧ (∃ rs, l.NewestAre rs ∧ rs.length ≤ 2 ∧ ∃ r ∈ rs, r.seq = s.log.nextSeq ∧ r.stamp = (timeFields f.payload).utc
        ∧ r.unset = false ∧ r.body = .timeStep step old diff)
      ∧ ∀ u n, State.DrainsTo { s.clockStepped t (timeFields f.payload).utc f.start with
          pres := p, serial := ser, log := l, bus := b, handed := .reevaluate false step :: hs } u n → n ≤ 99 →
        exec (.timeReceived t f) s = .next u := by
  obtain ⟨p, joins, runs⟩ := exec_timeReceived (t := t) length image join valid hh
  let e : State := { s.timeHeard t f p with clock := s.clock.setTo (timeFields f.payload).utc f.start }
  obtain ⟨ser, l, b, hs, shape, news, few, heard, record⟩ := e.stepSetting_shape (timeFields f.payload).utc step old diff hh
  refine ⟨p, ser, l, b, hs, news, few, heard, joins, record, fun u n d hn => ?_⟩
  let a : State := { s.clockStepped t (timeFields f.payload).utc f.start with pres := p, serial := ser, log := l, bus := b }
  refine runs a (.reevaluate false step :: hs) u n ?_ quiet d hn
  refine (sets (s.timeHeard t f p) rfl).trans (shape.trans ?_)
  simp only [a, e, State.clockStepped, State.storeMinute_store]
  rfl

/-- R170: a re-evaluation after a STEP is one of the contexts converted afresh. -/
theorem State.drainsTo_step {a u : State} {hs : List Handed} {n : Nat} (armed : a.seq.armed = true) (hh : a.handed = [])
    (d : State.DrainsTo { a.reconvert with handed := .reevaluate false false :: hs } u (n + 1)) :
    State.DrainsTo { a with handed := .reevaluate false true :: hs } u (n + 1) := by
  obtain ⟨p, m, k, shape, -⟩ := a.reconvert_noticed
  have handed : a.reconvert.handed = [] := by
    rw [shape]
    exact hh
  have again : a.reconvert.seq.armed = true := by
    rw [shape]
    exact armed
  have taken : State.take { a with handed := [] } (.reevaluate false true)
      = State.take { a.reconvert with handed := [] } (.reevaluate false false) := by
    rw [show ({ a with handed := [] } : State) = a by rw [← hh],
      show ({ a.reconvert with handed := [] } : State) = a.reconvert by rw [← handed]]
    exact (if_pos armed).trans (if_pos again).symm
  intro j hj
  obtain ⟨j, rfl⟩ : ∃ i, j = i + 1 := ⟨j - 1, by omega⟩
  exact (State.drainFrom_congr taken j).trans (d (j + 1) hj)

/-- R170: at a station that the re-evaluation neither arms nor finds armed a STEP is nothing. -/
theorem State.drainsTo_step_unarmed {a u : State} {hs : List Handed} {n : Nat} (armed : a.seq.armed = false)
    (joined : a.seq.joinedOnce = false) (quiet : a.seq.Quiet) (hh : a.handed = [])
    (d : State.DrainsTo { a with handed := hs } u n) :
    State.DrainsTo { a with handed := .reevaluate false true :: hs } u (n + 1) := by
  refine State.DrainsTo.taken hh (a := a) ?_ quiet hh d
  show a.reevaluate false true = a
  unfold State.reevaluate
  simp [armed, joined]

theorem State.setClock_first {e : State} {f t : Nat} (h : e.clock.classify f t = .first) : e.setClock f t
    = State.stepSetting { e with clock := e.clock.setTo f t } f false (t / 1000) 0 := by
  unfold State.setClock
  rw [h]

theorem State.setClock_step {e : State} {f t p : Nat} (h : e.clock.classify f t = .step p) : e.setClock f t
    = State.stepSetting { e with clock := e.clock.setTo f t } f true p ((f : Int) - p) := by
  unfold State.setClock
  rw [h]

theorem State.setClock_small {e : State} {f t : Nat} (h : e.clock.classify f t = .small) : e.setClock f t
    = State.boundaryIfDue { e with clock := e.clock.setTo f t } := by
  unfold State.setClock
  rw [h]

/-- R30, FIRST. -/
theorem timeFrame_first {s : State} {t : Nat} {f : RxFrame} (length : f.payload.length = 7)
    (image : s.image = some .accepted) (join : s.pres.join ≠ .isolated) (valid : (timeFields f.payload).valid = true)
    (h : s.Unarmed) (unset : s.clock.state = .unset) :
    ∃ p ser l b, exec (.timeReceived t f) s = .next { s.clockStepped t (timeFields f.payload).utc f.start with
        pres := p, serial := ser, log := l, bus := b }
      ∧ (∃ r ∈ l.ring, r.seq = s.log.nextSeq ∧ r.stamp = (timeFields f.payload).utc ∧ r.unset = false
        ∧ r.body = .timeStep false (f.start / 1000) 0)
      ∧ b.lastHeard = f.start := by
  have quiet : s.seq.Quiet := by
    rw [h.seq]
    exact Sequencer.reset_quiet
  obtain ⟨p, ser, l, b, hs, news, few, heard, -, ⟨rs, newest, -, r, hr, written⟩, runs⟩ :=
    exec_timeSets (t := t) length image join valid h.handed quiet fun e clock => by
      rw [State.setClock_first (clock ▸ Clock.classify_first unset _ _), clock]
  let a : State := { s.clockStepped t (timeFields f.payload).utc f.start with pres := p, serial := ser, log := l, bus := b }
  let w : State := { a with handed := .reevaluate false false :: hs }
  have told := State.drainsTo_storeNews_unarmed (a := a) h.seq h.handed news
  exact ⟨p, ser, l, b, runs a _ (State.DrainsTo.still (s := w) rfl (Still.reevaluate (s := w) h.seq _ _) told) (by omega),
    ⟨r, newest.mem hr, written⟩, heard⟩

/-- R170: the contexts of an armed sequencer after a STEP. -/
def State.stepSettled (s : State) : State := if s.seq.armed then s.reconvert else s

theorem State.stepSettled_keeps (s : State) :
    s.stepSettled.clock = s.clock ∧ s.stepSettled.store = s.store ∧ s.stepSettled.psu = s.psu := by
  unfold State.stepSettled
  split
  · obtain ⟨p, n, m, shape, -⟩ := s.reconvert_noticed
    rw [shape]
    exact ⟨rfl, rfl, rfl⟩
  · exact ⟨rfl, rfl, rfl⟩

/-- R170: what follows a STEP reads nothing of the records and the writes. -/
theorem State.stepSettled_shape (s : State) (p : Presence) (ser : Serial) (l : AirLog) (b : Bus) :
    ∃ p' n m, State.stepSettled { s with pres := p, serial := ser, log := l, bus := b } = { s.stepSettled with
        pres := p', serial := ser, log := l, bus := { b with notice := n, noticeNext := m } } ∧ p'.join = p.join := by
  let a : State := { s with pres := p, serial := ser, log := l, bus := b }
  obtain ⟨p₁, n₁, m₁, before, -⟩ := s.reconvert_noticed
  obtain ⟨p', n, m, after, join⟩ := a.reconvert_noticed
  unfold State.stepSettled
  cases s.seq.armed with
  | true => exact ⟨p', n, m, after.trans (by rw [if_pos rfl, before]; rfl), join⟩
  | false => exact ⟨p, b.notice, b.noticeNext, rfl, rfl⟩

/-- R168: the sequencer after a conversion, but for the times of its contexts. -/
theorem State.reconverted_eq (s : State) : ∃ stop ramp stop' ramp', s.reconverted = { s.seq with
    cur := { s.seq.cur with stopSec := stop, rampTime := ramp }
    nxt := { s.seq.nxt with stopSec := stop', rampTime := ramp' } } := by
  obtain ⟨stop, ramp, cur⟩ := s.convert_eq s.seq.cur
  obtain ⟨stop', ramp', nxt⟩ := s.convert_eq s.seq.nxt
  refine ⟨stop, ramp, stop', ramp', ?_⟩
  unfold State.reconverted
  rw [cur, nxt]

/-- R168: whether the sequencer has something of its own to do is no question of the times of its contexts. -/
theorem State.calm_reconvert {s : State} : s.reconvert.Calm ↔ s.Calm := by
  obtain ⟨p, n, m, shape, -⟩ := s.reconvert_noticed
  obtain ⟨_, _, _, _, contexts⟩ := s.reconverted_eq
  rw [shape, contexts]
  exact ⟨fun h => ⟨h.handed, h.ending, h.release, h.await, h.search⟩,
    fun h => ⟨h.handed, h.ending, h.release, h.await, h.search⟩⟩

theorem State.calm_stepSettled {s : State} : s.stepSettled.Calm ↔ s.Calm := by
  unfold State.stepSettled
  split
  · exact State.calm_reconvert
  · exact Iff.rfl

/-- R170: an occurrence on the air is so after a conversion. -/
theorem State.OnAir.reconvert {s : State} {o : Occurrence} {k : Taken} (h : s.OnAir o k) : s.reconvert.OnAir o k := by
  have calm := State.calm_reconvert.mpr h.calm
  have held := (s.reconvertedMap_extended.own .held).trans h.held
  obtain ⟨p, n, m, shape, join⟩ := s.reconvert_noticed
  obtain ⟨_, _, _, _, contexts⟩ := s.reconverted_eq
  rw [shape, contexts] at calm ⊢
  exact { h with calm := calm, held := held, join := join.trans_ne h.join }

/-- R146: an extension of own bookings moves no level limit. -/
theorem State.levelLimit_reconvert (s : State) (carrier : Nat) : s.reconvert.levelLimit carrier = s.levelLimit carrier := by
  obtain ⟨p, n, m, shape, -⟩ := s.reconvert_noticed
  rw [shape]
  have own : (ownHeld s.reconvertedMap).map (·.1) = (ownHeld s.map).map (·.1) := s.reconvertedMap_extended.own .held
  unfold State.levelLimit
  dsimp only
  rcases before : ownHeld s.map with _ | ⟨x, bk⟩ <;> rcases after : ownHeld s.reconvertedMap with _ | ⟨y, bk'⟩ <;>
    simp only [before, after, Option.map_none, Option.map_some, reduceCtorEq, Option.some.injEq] at own
  · rfl
  · have row := s.reconvertedMap_extended.row x
    subst own
    dsimp only [Option.bind_some]
    rcases hold : rowOf s.map y with _ | r <;> rcases hold' : rowOf s.reconvertedMap y with _ | r' <;>
      simp only [hold, hold', Option.map_none, Option.map_some, reduceCtorEq, Option.some.injEq, Prod.mk.injEq] at row
    · rfl
    · unfold TermRow.isSuspect
      dsimp only
      rw [row.1, row.2]
      rfl

/-- R172, R177: an end after a conversion, with nothing in the next context, is an end before it. -/
theorem State.RampsDown.of_reconvert {s u : State} {o : Occurrence} {k : Taken} {code : EndCode} {kw : Nat}
    (h : s.reconvert.RampsDown u o k code kw) (nxt : s.seq.nxt = Ctx.reset) : s.RampsDown u o k code kw := by
  have empty : s.convert s.seq.nxt = s.seq.nxt := by
    rw [nxt]
    rfl
  obtain ⟨stop, ramp, cur⟩ := s.convert_eq s.seq.cur
  obtain ⟨p, n, m, shape, -⟩ := s.reconvert_noticed
  have contexts : s.reconverted = { s.seq with cur := { s.seq.cur with stopSec := stop, rampTime := ramp } } := by
    unfold State.reconverted
    rw [cur, empty]
  rw [shape, contexts] at h
  exact ⟨h.record, h.context, h.op, h.level, h.permit, h.issued, h.plan, h.power⟩

/-- R170: a STEP of a station that then finds nothing to do. -/
theorem State.drainsTo_stepSettled {a : State} (set : a.clock.state ≠ .unset) (hh : a.handed = [])
    (content : a.stepSettled.Content)
    {hs : List Handed} (news : StoreNews hs) :
    State.DrainsTo { a with handed := .reevaluate false true :: hs } a.stepSettled (2 * hs.length + 2) := by
  unfold State.stepSettled at content ⊢
  cases armed : a.seq.armed with
  | true =>
    rw [armed, if_pos rfl] at content
    refine State.drainsTo_step armed hh (State.DrainsTo.content rfl (.inl ⟨_, rfl⟩) ?_ (State.drainsTo_storeNews content news))
    rw [show ({ a.reconvert with handed := [] } : State) = a.reconvert by rw [← content.calm.handed]]
    exact content
  | false =>
    rw [armed, if_neg Bool.false_ne_true] at content
    have joined : a.seq.joinedOnce = false := (content.unarmed armed).resolve_right set
    exact fun k hk => State.drainsTo_step_unarmed armed joined content.calm.rests.quiet hh
      (State.drainsTo_storeNews content news) k (by omega)

/-- R30: STEP, of a station that then finds nothing to do. -/
theorem timeFrame_step {s : State} {t old : Nat} {f : RxFrame} (length : f.payload.length = 7)
    (image : s.image = some .accepted) (join : s.pres.join ≠ .isolated) (valid : (timeFields f.payload).valid = true)
    (step : s.clock.classify (timeFields f.payload).utc f.start = .step old)
    (content : (s.clockStepped t (timeFields f.payload).utc f.start).stepSettled.Content) :
    ∃ p ser l b, exec (.timeReceived t f) s = .next { (s.clockStepped t (timeFields f.payload).utc f.start).stepSettled with
        pres := p, serial := ser, log := l, bus := b }
      ∧ (∃ r ∈ l.ring, r.seq = s.log.nextSeq ∧ r.stamp = (timeFields f.payload).utc ∧ r.unset = false
        ∧ r.body = .timeStep true old (((timeFields f.payload).utc : Int) - old))
      ∧ b.lastHeard = f.start := by
  let x : State := s.clockStepped t (timeFields f.payload).utc f.start
  have calm : x.Calm := State.calm_stepSettled.mp content.calm
  have quiet : s.seq.Quiet := calm.rests.quiet
  obtain ⟨p, ser, l, b, hs, news, few, heard, -, ⟨rs, newest, -, r, hr, written⟩, runs⟩ :=
    exec_timeSets (t := t) length image join valid calm.handed quiet fun e clock => by
      rw [State.setClock_step (clock ▸ step), clock]
  let a : State := { x with pres := p, serial := ser, log := l, bus := b }
  obtain ⟨p', n, m, settled, -⟩ := x.stepSettled_shape p ser l b
  have same : SameSchedule x.stepSettled a.stepSettled := by
    rw [show a.stepSettled = _ from settled]
    exact ⟨rfl, rfl, rfl, rfl, rfl, rfl⟩
  have d := State.drainsTo_stepSettled (a := a) ClockState.noConfusion calm.handed (content.of_same same) news
  have ran := runs _ _ d (by omega)
  rw [show a.stepSettled = _ from settled] at ran
  exact ⟨p', ser, l, _, ran, ⟨r, newest.mem hr, written⟩, heard⟩

/-- R30, R171, R177: STEP, of a station that then cuts the occurrence on the air. -/
theorem timeFrame_step_cuts {s : State} {t old : Nat} {f : RxFrame} {o : Occurrence} {k : Taken} {q : RampParams}
    (length : f.payload.length = 7)
    (image : s.image = some .accepted) (join : s.pres.join ≠ .isolated) (valid : (timeFields f.payload).valid = true)
    (step : s.clock.classify (timeFields f.payload).utc f.start = .step old) (air : s.OnAir o k)
    (nxt : s.seq.nxt = Ctx.reset) (ramp : s.link.ramp = some q)
    (nothing : (s.clockStepped t (timeFields f.payload).utc f.start).reconvert.currentEntry = none)
    (none : (s.clockStepped t (timeFields f.payload).utc f.start).reconvert.nextEntry = none) :
    ∃ u, exec (.timeReceived t f) s = .next u
      ∧ u.clock = (s.clockStepped t (timeFields f.payload).utc f.start).clock
      ∧ (∃ r ∈ u.log.ring, r.seq = s.log.nextSeq ∧ r.stamp = (timeFields f.payload).utc ∧ r.unset = false
        ∧ r.body = .timeStep true old (((timeFields f.payload).utc : Int) - old))
      ∧ (s.atTime t).RampsDown u o k .cut (min (max 1 (s.link.level * 3 / 4)) ((s.atTime t).levelLimit q.carrier))
      ∧ u.store = (s.clockStepped t (timeFields f.payload).utc f.start).store
      ∧ u.map = (s.clockStepped t (timeFields f.payload).utc f.start).reconvert.map ∧ u.mat = s.mat
      ∧ u.bus.lastHeard = f.start := by
  let x : State := s.clockStepped t (timeFields f.payload).utc f.start
  have quiet : s.seq.Quiet := air.calm.rests.quiet
  obtain ⟨p, ser, l, b, hs, news, few, heard, joins, ⟨rs, newest, two, r, hr, written⟩, runs⟩ :=
    exec_timeSets (t := t) length image join valid air.calm.handed quiet fun e clock => by
      rw [State.setClock_step (clock ▸ step), clock]
  let a : State := { x with pres := p, serial := ser, log := l, bus := b }
  have airing : a.OnAir o k := { air with
    calm := ⟨air.calm.handed, air.calm.ending, air.calm.release, air.calm.await, air.calm.search⟩
    join := joins.trans_ne air.join }
  obtain ⟨p₁, n₁, m₁, before, -⟩ := x.reconvert_noticed
  obtain ⟨p', n', m', after, -⟩ := a.reconvert_noticed
  have again : a.reconvert.seq.nxt = Ctx.reset := by
    rw [after]
    show a.convert a.seq.nxt = _
    rw [show a.seq.nxt = _ from nxt]
    rfl
  have current : a.reconvert.currentEntry = Option.none := by
    rw [← nothing]
    exact State.currentEntry_congr (by rw [after, before]) (by rw [after, before]) (by rw [after, before])
  have next : a.reconvert.nextEntry = Option.none := by
    rw [← none]
    exact State.nextEntry_congr (by rw [after, before]) (by rw [after, before]) (by rw [after, before]) (by rw [after, before])
  obtain ⟨u, ends, drains⟩ := airing.reconvert.drainsTo_cut again (q := q) (by rw [after]; exact ramp) current next
    (m := .reevaluate false false) (b := false) rfl
  rw [State.codeNow_of_event, State.levelLimit_reconvert] at ends
  let v : State := { u with handed := [] }
  have d := drains hs v _ (ends.drainsTo_news airing.reconvert.calm airing.reconvert.armed again current next
    airing.reconvert.found news)
  obtain ⟨e, logged⟩ := ends.logged
  have told : v.log.NewestAre (rs ++ [a.reconvert.recordOf e]) := by
    have reads : a.reconvert.log.NewestAre rs := by
      rw [after]
      exact newest
    rw [show v.log = _ from logged]
    exact reads.writeLog (by omega) e
  have down : (s.atTime t).RampsDown v o k .cut
      (min (max 1 (s.link.level * 3 / 4)) ((s.atTime t).levelLimit q.carrier)) := by
    have limit : a.levelLimit q.carrier = (s.atTime t).levelLimit q.carrier := State.levelLimit_congr rfl rfl rfl _
    rw [limit, show a.reconvert.link.level = s.link.level from congrArg (·.link.level) after] at ends
    exact (ends.toRampsDown.of_reconvert nxt).of_same rfl rfl rfl rfl rfl rfl rfl rfl
  obtain ⟨clock, store, map, mat, last⟩ : a.reconvert.clock = x.clock ∧ a.reconvert.store = x.store
      ∧ a.reconvert.map = x.reconvert.map
      ∧ a.reconvert.mat = s.mat ∧ a.reconvert.bus.lastHeard = f.start := by
    rw [after, before]
    exact ⟨rfl, rfl, rfl, rfl, heard⟩
  have drained : State.DrainsTo { a with handed := .reevaluate false true :: hs } v (2 * hs.length + 3) :=
    State.drainsTo_step airing.armed airing.calm.handed d
  refine ⟨v, runs v _ drained (by omega), ?_, ⟨r, told.mem (List.mem_append_left _ hr), written⟩, down, ?_, ?_, ?_, ?_⟩
  · exact ends.clock.trans clock
  · exact ends.store.trans store
  · exact ends.map.trans map
  · exact ends.mat.trans mat
  · exact ends.heard.trans last

/-! ## A SMALL setting (R30, R31) -/

theorem State.boundaryIfDue_of {e : State} {m l : Nat} (now : e.instant = some m) (last : e.clock.lastMinute = some l) :
    e.boundaryIfDue = if l < m && m ≤ maxInstant then e.raiseBoundary m else e := by
  unfold State.boundaryIfDue
  rw [now, last]

/-- A record that a newer one has joined was there before, or is that one. -/
theorem State.mem_writeLog_ring {s : State} {b : LogBody} {r : LogRecord} (h : r ∈ (s.writeLog b).log.ring) :
    r ∈ s.log.ring ∨ r = s.recordOf b := by
  rw [State.writeLog_ring] at h
  simpa using List.mem_of_mem_drop h

/-- R29, R30: the clock that a SMALL setting leaves. -/
def State.clockMoved (s : State) (t utc start minute : Nat) : State := { s.atTime t with clock := {
  state := .locked, refUtc := some utc, refLocal := some start, lastTime := some start, lastMinute := some minute } }

/-- R30: SMALL, in the minute that is announced or an earlier one. -/
theorem timeFrame_small {s : State} {t l : Nat} {f : RxFrame} (length : f.payload.length = 7)
    (image : s.image = some .accepted) (join : s.pres.join ≠ .isolated) (valid : (timeFields f.payload).valid = true)
    (small : s.clock.classify (timeFields f.payload).utc f.start = .small) (last : s.clock.lastMinute = some l)
    (early : ((timeFields f.payload).utc + (max s.now t - f.start) / 1000) / 60 ≤ l) (calm : s.Calm) :
    ∃ p, exec (.timeReceived t f) s = .next { s.clockMoved t (timeFields f.payload).utc f.start l with
      pres := p
      bus := { s.bus with lastHeard := f.start } } := by
  obtain ⟨p, -, runs⟩ := exec_timeReceived (t := t) length image join valid calm.handed
  let a : State := { s.clockMoved t (timeFields f.payload).utc f.start l with
    pres := p
    bus := { s.bus with lastHeard := f.start } }
  refine ⟨p, runs a [] a 0 ?_ calm.rests.quiet (State.drainsTo_rest (s := a) calm.handed 0) (by omega)⟩
  have set : ({ s.timeHeard t f p with clock := s.clock.setTo (timeFields f.payload).utc f.start } : State)
      = { a with handed := [] } := by
    rw [Clock.setTo_eq, last, ← calm.handed]
    rfl
  refine (State.setClock_small (e := s.timeHeard t f p) small).trans ((congrArg State.boundaryIfDue set).trans ?_)
  let m : Nat := ((timeFields f.payload).utc + (max s.now t - f.start) / 1000) / 60
  exact (State.boundaryIfDue_of (e := { a with handed := [] }) (m := m) (l := l) rfl rfl).trans
    (if_neg (by simp [show ¬ l < m from Nat.not_lt.mpr early]))

/-- R30, R31: SMALL, in a later minute than the announced one. -/
theorem timeFrame_boundary {s : State} {t l m : Nat} {f : RxFrame} (length : f.payload.length = 7)
    (image : s.image = some .accepted) (join : s.pres.join ≠ .isolated) (valid : (timeFields f.payload).valid = true)
    (small : s.clock.classify (timeFields f.payload).utc f.start = .small) (last : s.clock.lastMinute = some l)
    (now : ((timeFields f.payload).utc + (max s.now t - f.start) / 1000) / 60 = m) (late : l < m) (range : m ≤ 52595999)
    (content : State.Content { s.clockMoved t (timeFields f.payload).utc f.start m with store := s.store.atMinute m }) :
    ∃ p ser g b c, exec (.timeReceived t f) s = .next { s.clockMoved t (timeFields f.payload).utc f.start m with
        store := s.store.atMinute m, pres := p, serial := ser, log := g, bus := b, stampMinute := c }
      ∧ b.lastHeard = f.start ∧ ∀ r ∈ g.ring, ∀ b o d, r.body = .timeStep b o d → r ∈ s.log.ring := by
  obtain ⟨p, -, runs⟩ := exec_timeReceived (t := t) length image join valid content.calm.handed
  let e : State := { s.clockMoved t (timeFields f.payload).utc f.start m with
    pres := p
    bus := { s.bus with lastHeard := f.start }
    stampMinute := some m
    handed := [.reevaluate true false] }
  obtain ⟨ser, g, b, hs, shape, news, heard, -, log⟩ := e.storeMinute_shape m
  let a : State := { s.clockMoved t (timeFields f.payload).utc f.start m with
    store := s.store.atMinute m, pres := p, serial := ser, log := g, bus := b, stampMinute := some m }
  have again : a.Content := content.of_same ⟨rfl, rfl, rfl, rfl, rfl, rfl⟩
  have few : hs.length ≤ 1 := by rcases news with rfl | ⟨n, rfl⟩ <;> simp
  have d : State.DrainsTo { a with handed := .reevaluate true false :: hs } a (2 * hs.length + 2) := by
    refine State.DrainsTo.content rfl (.inl ⟨_, rfl⟩) ?_ (State.drainsTo_storeNews again (StoreNews.of news))
    rw [show ({ a with handed := [] } : State) = a by rw [← again.calm.handed]]
    exact again
  refine ⟨p, ser, g, b, some m, runs a (.reevaluate true false :: hs) a _ ?_ again.calm.rests.quiet d (by omega), heard, ?_⟩
  · refine (State.setClock_small (e := s.timeHeard t f p) small).trans ?_
    have instant : State.instant { s.timeHeard t f p with clock := s.clock.setTo (timeFields f.payload).utc f.start }
        = some m := congrArg some now
    refine (State.boundaryIfDue_of instant (show s.clock.lastMinute = some l from last)).trans ((if_pos ?_).trans ?_)
    · simp only [Bool.and_eq_true, decide_eq_true_eq]
      exact ⟨late, range⟩
    · refine Eq.trans ?_ shape
      unfold State.raiseBoundary State.emit
      rw [show State.handed { s.timeHeard t f p with clock := _ } = [] from content.calm.handed]
      rfl
  · intro r hr b o d body
    rcases log with rfl | ⟨bk, label, o', rfl⟩
    · exact hr
    · rcases State.mem_writeLog_ring hr with h | rfl
      · exact h
      · rw [State.recordOf_body] at body
        cases body

/-- Settles O30. -/
theorem firstTimeFrameSetsTheClock : Obligations.FirstTimeFrameSetsTheClock := by
  intro s t f length image join valid utc set
  have stored (e : State) (h : e.store = s.store) (m : Nat) : (e.storeMinute m).store = s.store.atMinute m := by
    rw [State.storeMinute_store, h]
  refine ⟨fun h unset => ?_, fun ref start set' hr hs => ?_⟩
  · obtain ⟨p, ser, l, b, runs, record, heard⟩ := timeFrame_first (t := t) length image join valid h unset
    exact ⟨_, runs, rfl, record, heard, rfl, rfl⟩
  · intro old
    have before : s.clock.utcAt f.start = some old := Clock.utcAt_set set' hr hs f.start
    refine ⟨?_, ?_, ?_⟩
    · intro far stepped settled content
      obtain ⟨p, ser, l, b, runs, record, heard⟩ :=
        timeFrame_step (t := t) length image join valid (Clock.classify_step before far) content
      obtain ⟨clock, store, psu⟩ := stepped.stepSettled_keeps
      exact ⟨_, runs, clock, record, store, rfl, rfl, heard, psu⟩
    · intro o k p far air nxt ramp stepped nothing none
      exact timeFrame_step_cuts length image join valid (Clock.classify_step before far) air nxt ramp nothing none
    · intro ahead behind l last now
      have small := Clock.classify_small before ahead behind
      refine ⟨fun early calm => ?_, ?_⟩
      · obtain ⟨p, runs⟩ := timeFrame_small (t := t) length image join valid small last early calm
        exact ⟨_, runs, rfl, rfl, rfl, rfl, rfl, rfl, rfl⟩
      · intro late range minute content
        rw [show (minute.storeMinute now).store = s.store.atMinute now from stored minute rfl now] at content ⊢
        obtain ⟨p, ser, g, b, c, runs, heard, records⟩ :=
          timeFrame_boundary (t := t) (m := now) length image join valid small last rfl late range content
        exact ⟨_, runs, rfl, rfl, rfl, rfl, rfl, heard, records⟩

end Sys2Proof.Machine

/-! SUPPORT. A minute boundary: what the store makes of it, and the cut that may follow (R18, R19, R23, R31, R171). -/

namespace Sys2Proof.Machine

/-! ## The changeover (R18) -/

/-- R18: whether the other bank becomes SPENT. -/
def BankData.passes (d : BankData) (m : Nat) : Bool :=
  decide (d.state = .live) || (decide (d.state = .ready) && d.instant.any fun i => decide (i ≤ m))

theorem Store.spentBy_eq (s : Store) (bk : Bank) (m : Nat) :
    s.spentBy bk m = if (s.bank bk.other).passes m then some bk.other else none := by
  have due (d : BankData) : (d.dueAt m).isSome = (decide (d.state = .ready) && d.instant.any fun i => decide (i ≤ m)) := by
    unfold BankData.dueAt
    by_cases ready : d.state = .ready
    · rcases d.instant with _ | i
      · simp [ready]
      · by_cases come : i ≤ m <;> simp [ready, come]
    · simp [ready]
  have live (d : BankData) : (d.state == .live) = decide (d.state = .live) := rfl
  unfold Store.spentBy BankData.passes
  rw [due, live]

theorem Store.changedOver_of_passes {s : Store} {bk : Bank} {m : Nat} (h : (s.bank bk.other).passes m = true) :
    s.changedOver bk m = (s.setState bk.other .spent).setState bk .live := by
  unfold Store.changedOver
  rw [Store.spentBy_eq, if_pos h]

theorem Store.changedOver_of_stays {s : Store} {bk : Bank} {m : Nat} (h : ¬ (s.bank bk.other).passes m = true) :
    s.changedOver bk m = s.setState bk .live := by
  unfold Store.changedOver
  rw [Store.spentBy_eq, if_neg h]

theorem Store.changedOver_bank (s : Store) (bk : Bank) (m : Nat) :
    (s.changedOver bk m).bank bk = { s.bank bk with state := .live } := by
  by_cases h : (s.bank bk.other).passes m = true
  · rw [Store.changedOver_of_passes h]
    cases bk <;> rfl
  · rw [Store.changedOver_of_stays h]
    cases bk <;> rfl

theorem Store.changedOver_other (s : Store) (bk : Bank) (m : Nat) : (s.changedOver bk m).bank bk.other
    = if (s.bank bk.other).passes m then { s.bank bk.other with state := .spent } else s.bank bk.other := by
  by_cases h : (s.bank bk.other).passes m = true
  · rw [Store.changedOver_of_passes h, if_pos h]
    cases bk <;> rfl
  · rw [Store.changedOver_of_stays h, if_neg h]
    cases bk <;> rfl

theorem Store.atMinute_bank {s : Store} {m : Nat} {bk : Bank} (due : s.dueBank m = some bk) (o : Bank) :
    (s.atMinute m).bank o = (s.changedOver bk m).bank o := by
  unfold Store.atMinute
  rw [due]
  cases o <;> rfl

/-! ## The minute boundary (R31) -/

/-- R31: the state at a minute boundary, but for the writes, records and notices that the changeover makes. -/
def State.minuteTaken (s : State) (t m : Nat) : State := { s.atTime t with
  clock := { s.clock with lastMinute := some m }
  store := s.store.atMinute m
  stampMinute := some m }

/-- R31: a minute boundary that is due is announced, with the notices of the store after it. -/
theorem State.minute_raised {s : State} {t m : Nat} (due : (s.atTime t).minuteDue = true)
    (now : (s.atTime t).instant = some m) (hh : s.handed = []) :
    ruleOf (.minuteBoundary t) (s.atTime t) = State.storeMinute { s.atTime t with
      clock := { s.clock with lastMinute := some m }
      stampMinute := some m
      handed := [.reevaluate true false] } m := by
  have raised : (s.atTime t).raiseBoundary m = State.storeMinute { s.atTime t with
      clock := { s.clock with lastMinute := some m }
      stampMinute := some m
      handed := [.reevaluate true false] } m := by
    unfold State.raiseBoundary State.emit
    rw [show State.handed { s.atTime t with clock := _, stampMinute := _ } = [] from hh]
    rfl
  show (s.atTime t).boundaryIfDue = _
  unfold State.minuteDue at due
  unfold State.boundaryIfDue
  rw [now] at due ⊢
  rcases last : (s.atTime t).clock.lastMinute with _ | l
  · rw [last] at due
    exact (if_pos (of_decide_eq_true due)).trans raised
  · rw [last] at due
    exact (if_pos due).trans raised

/-- R31: whatever is due, what the sequencer then takes is the re-evaluation and the notices of the store. -/
theorem State.minute_shape {s : State} {t m : Nat} (due : (s.atTime t).minuteDue = true)
    (now : (s.atTime t).instant = some m) (hh : s.handed = []) : ∃ ser l b hs, StoreNews hs ∧ hs.length ≤ 1
      ∧ b.claim = s.bus.claim
      ∧ ruleOf (.minuteBoundary t) (s.atTime t) = { s.minuteTaken t m with
          serial := ser, log := l, bus := b, handed := .reevaluate true false :: hs } := by
  let e : State := { s.atTime t with
    clock := { s.clock with lastMinute := some m }
    stampMinute := some m
    handed := [.reevaluate true false] }
  obtain ⟨ser, l, b, hs, shape, news, -, claim, -⟩ := e.storeMinute_shape m
  refine ⟨ser, l, b, hs, StoreNews.of news, ?_, claim, (State.minute_raised due now hh).trans shape⟩
  rcases news with rfl | ⟨n, rfl⟩ <;> simp

/-- R40: a record at a minute boundary is stamped with second 0 of the minute. -/
theorem State.recordOf_minute {s : State} {m : Nat} (now : s.instant.isSome = true) (stamp : s.stampMinute = some m)
    (b : LogBody) : s.recordOf b = { seq := s.log.nextSeq, stamp := 60 * m, unset := false, body := b } := by
  unfold State.recordOf
  rcases set : s.utc with _ | u
  · rw [State.instant, set] at now
    cases now
  · rw [stamp]
    rfl

/-- R170: whether a re-evaluation finds something to do is no question of the announced minute. -/
theorem State.Content.at_minute {s : State} {t m : Nat}
    (h : State.Content { s.atTime t with store := s.store.atMinute m }) : (s.minuteTaken t m).Content :=
  ⟨⟨h.calm.handed, h.calm.ending, h.calm.release, h.calm.await, h.calm.search⟩, h.unarmed, h.found, h.current, h.next⟩

/-- R31: with nothing for the re-evaluation to do. -/
theorem State.drainsTo_minute {a : State} (content : a.Content) {hs : List Handed} (news : StoreNews hs) :
    State.DrainsTo { a with handed := .reevaluate true false :: hs } a (2 * hs.length + 2) := by
  refine State.DrainsTo.content rfl (.inl ⟨_, rfl⟩) ?_ (State.drainsTo_storeNews content news)
  rw [show ({ a with handed := [] } : State) = a by rw [← content.calm.handed]]
  exact content

/-- R23, R31: a minute boundary with no bank due. -/
theorem minute_rests {s : State} {t m : Nat} (due : (s.atTime t).minuteDue = true) (now : (s.atTime t).instant = some m)
    (content : (s.minuteTaken t m).Content) (none : s.store.dueBank m = none) :
    exec (.minuteBoundary t) s = .next (s.minuteTaken t m) := by
  let e : State := { s.atTime t with
    clock := { s.clock with lastMinute := some m }
    stampMinute := some m
    handed := [.reevaluate true false] }
  exact exec_drains rfl ((State.minute_raised due now content.calm.handed).trans (State.storeMinute_rest (s := e) none))
    (State.drainsTo_minute (a := s.minuteTaken t m) content (hs := []) fun m hm => by cases hm)

/-- R18, R31: a minute boundary with a bank due. -/
theorem minute_changes {s : State} {t m : Nat} {bk : Bank} (due : (s.atTime t).minuteDue = true)
    (now : (s.atTime t).instant = some m) (content : (s.minuteTaken t m).Content) (bank : s.store.dueBank m = some bk) :
    ∃ l b, exec (.minuteBoundary t) s = .next { s.minuteTaken t m with
        log := l, bus := b
        serial := { s.serial with
          writes := s.serial.writes ++ headerWrites (s.store.changedOver bk m) ((s.store.spentBy bk m).toList ++ [bk]) } }
      ∧ ∃ r, l.ring.getLast? = some r ∧ r.seq = s.log.nextSeq ∧ r.stamp = 60 * m ∧ r.unset = false
        ∧ r.body = .changeover bk (s.store.bank bk).label (s.store.spentBy bk m) := by
  let e : State := { s.atTime t with
    clock := { s.clock with lastMinute := some m }
    stampMinute := some m
    handed := [.reevaluate true false] }
  obtain ⟨l, b, shape, log, -⟩ := State.storeMinute_due (s := e) bank
  let a : State := { s.minuteTaken t m with
    log := l, bus := b
    serial := { s.serial with
      writes := s.serial.writes ++ headerWrites (s.store.changedOver bk m) ((s.store.spentBy bk m).toList ++ [bk]) } }
  have again : a.Content := content.of_same ⟨rfl, rfl, rfl, rfl, rfl, rfl⟩
  have stamped := State.recordOf_minute (s := e) (m := m) (by rw [show e.instant = _ from now]; rfl) rfl
  let r : LogRecord := e.recordOf (.changeover bk (s.store.bank bk).label (s.store.spentBy bk m))
  have d := State.drainsTo_minute again (hs := [.storeNotice (.changeover bk)]) (StoreNews.of (.inr ⟨_, rfl⟩))
  refine ⟨l, b, exec_drains rfl ((State.minute_raised due now content.calm.handed).trans shape) d (by simp), r, ?_, ?_⟩
  · rw [log]
    exact e.writeLog_newest _
  · rw [show r = _ from stamped _]
    exact ⟨rfl, rfl, rfl, rfl⟩

/-- R171: the code of a running occurrence that a minute boundary ends. -/
theorem State.codeNow_of_minute {s : State} {o : Occurrence} {m : Nat} (occ : s.seq.cur.occ = some o)
    (now : s.instant = some m) (begun : o.start ≤ m) :
    s.codeNow o true = if o.stop ≤ m then .completed else .cut := by
  unfold State.codeNow State.endCode Ctx.early
  simp [occ, now, Int.not_lt.mpr begun]

/-- R31, R171, R177: a minute boundary that cuts the occurrence on the air. -/
theorem minute_cuts {s : State} {t m : Nat} {o : Occurrence} {k : Taken} {q : RampParams}
    (due : (s.atTime t).minuteDue = true) (now : (s.atTime t).instant = some m) (air : s.OnAir o k) (begun : o.start ≤ m)
    (nothing : (s.minuteTaken t m).currentEntry = none) (none : (s.minuteTaken t m).nextEntry = none)
    (nxt : s.seq.nxt = Ctx.reset) (ramp : s.link.ramp = some q) :
    ∃ u, exec (.minuteBoundary t) s = .next u ∧ u.clock = { s.clock with lastMinute := some m }
      ∧ (s.atTime t).RampsDown u o k (if o.stop ≤ m then .completed else .cut)
          (min (max 1 (s.link.level * 3 / 4)) ((s.atTime t).levelLimit q.carrier))
      ∧ u.store = s.store.atMinute m ∧ u.map = s.map ∧ u.mat = s.mat := by
  obtain ⟨ser, l, b, hs, news, few, -, shape⟩ := State.minute_shape due now air.calm.handed
  let a : State := { s.minuteTaken t m with serial := ser, log := l, bus := b }
  have airing : a.OnAir o k := { air with
    calm := ⟨air.calm.handed, air.calm.ending, air.calm.release, air.calm.await, air.calm.search⟩ }
  obtain ⟨u, ends, drains⟩ := airing.drainsTo_cut nxt ramp nothing none (m := .reevaluate true false) (b := true) rfl
  rw [State.codeNow_of_minute (s := a) air.occ now begun] at ends
  let v : State := { u with handed := [] }
  have d := drains hs v _ (ends.drainsTo_news airing.calm airing.armed nxt nothing none airing.found news)
  exact ⟨v, exec_drains rfl shape d (by omega), ends.clock, ends.toRampsDown.of_same rfl rfl rfl rfl rfl rfl rfl rfl,
    ends.store, ends.map, ends.mat⟩

end Sys2Proof.Machine

/-! SUPPORT. A minute boundary at which the next occurrence continues the one on the air (R175, R176). -/

namespace Sys2Proof.Machine

/-- R176: the context of an occurrence that continues the one before it. -/
def Sequencer.continued (q : Sequencer) : Ctx := { (q.nxt.movedInto q.cur).goto q.cur.state with
  admitted := q.cur.admitted, trips := q.cur.trips, onAir := some 0, offSecs := 0, offSince := none, former := none
  heldStep := false, stands := q.cur.stands, retry := q.cur.retry, lastTerm := q.cur.terminal }

/-- R176: at the admitted step the carrier stands, and ENTRY-OFF and ENTRY-ON are written. -/
theorem State.continueInto_stands {s : State} {o x : Occurrence} {y m : Nat} (occ : s.seq.cur.occ = some o)
    (on : s.seq.cur.onAir.isSome = true) (terminal : s.seq.cur.terminal = some y) (steadily : s.seq.cur.offSince = none)
    (next : s.seq.nxt.occ = some x) (same : s.seq.nxt.terminal = some y) (step : s.seq.cur.admitted = some s.seq.nxt.cap)
    (now : s.instant.isSome = true) (stamp : s.stampMinute = some m) :
    ∃ l b r₁ r₂, s.continueInto = { s with
        log := l, bus := b
        seq := { s.seq with cur := s.seq.continued, nxt := Ctx.reset } }
      ∧ l.NewestAre [r₁, r₂] ∧ r₁.stamp = 60 * m ∧ r₂.stamp = 60 * m
      ∧ r₁.body = .entryOff o.source o.number .completed (some y) s.seq.cur.admitted s.seq.cur.trips
          (min 86400 s.seq.cur.offSecs)
      ∧ r₂.body = .entryOn x.source x.number (some y) s.seq.cur.admitted s.link.level 0 := by
  let off : LogBody := .entryOff o.source o.number .completed (some y) s.seq.cur.admitted s.seq.cur.trips
    (min 86400 s.seq.cur.offSecs)
  have ended : s.writeEnd s.seq.cur .completed = s.writeLog off := by
    rw [State.writeEnd_off occ on, terminal]
    unfold Ctx.offAir
    rw [steadily]
    rfl
  have first := AirLog.newestAre_writeLog s off
  obtain ⟨l₁, b₁, logged⟩ := s.writeLog_logged off
  rw [logged] at first
  let e : State := { s with
    log := l₁, bus := b₁
    seq := { s.seq with cur := s.seq.continued, nxt := Ctx.reset } }
  let begun : LogBody := .entryOn x.source x.number (some y) s.seq.cur.admitted s.link.level 0
  have both := first.writeLog (s := e) (by simp) begun
  obtain ⟨l₂, b₂, logged₂⟩ := e.writeLog_logged begun
  rw [logged₂] at both
  refine ⟨l₂, b₂, s.recordOf off, e.recordOf begun, ?_, both, ?_, ?_, s.recordOf_body off, e.recordOf_body begun⟩
  · have writes : e.writeOn s.seq.continued s.link.level 0 = e.writeLog begun := by
      unfold State.writeOn
      rw [show s.seq.continued.occ = some x from next]
      exact congrArg e.writeLog (congrArg (LogBody.entryOn x.source x.number · s.seq.cur.admitted s.link.level 0) same)
    refine Eq.trans ?_ (writes.trans logged₂)
    unfold State.continueInto
    dsimp only
    rw [ended, logged, steadily]
    split
    · rename_i bare
      rw [step] at bare
      cases bare
    · rename_i a admitted
      obtain rfl : s.seq.nxt.cap = a := Option.some.inj (step.symm.trans admitted)
      exact (if_neg (Nat.lt_irrefl _)).trans (if_neg (Nat.lt_irrefl _))
  · rw [State.recordOf_minute now stamp]
  · rw [State.recordOf_minute (s := e) now stamp]

theorem State.currentStands_of {s : State} {o : Occurrence} (occ : s.seq.cur.occ = some o)
    (current : s.currentEntry.map (·.key) = some o.key) (running : s.seq.cur.running = true) : s.CurrentStands := by
  unfold State.CurrentStands
  dsimp only
  rw [occ]
  exact .inl ⟨current, running⟩

theorem State.nextStands_of_none {s : State} (none : s.nextEntry = none) (empty : s.seq.nxt.occ = Option.none) :
    s.NextStands := by
  unfold State.NextStands
  dsimp only
  rw [none, if_pos (.inl rfl)]
  exact empty

/-- R171, R176: a re-evaluation that finds the next context's extended occurrence current, which continues the one on the
air. -/
theorem State.OnAir.compareCurrent_continues {s : State} {o x : Occurrence} {k : Taken} {w : Bool} (h : s.OnAir o k)
    (early : s.seq.cur.early s.instant = false) (current : s.currentEntry = some x) (other : x.key ≠ o.key)
    (next : s.seq.nxt.occ = some x)
    (extended : s.seq.nxt.taken = some { terminal := k.terminal, how := .extended, suspect := w })
    (freq : x.prog.freq = o.prog.freq) (mode : x.prog.mode = o.prog.mode)
    (programme : x.prog.programme = o.prog.programme) (carrier : x.prog.carrier = o.prog.carrier) (b : Bool) :
    s.compareCurrent b = s.continueInto := by
  have key : s.seq.cur.key = some o.key := congrArg (Option.map Occurrence.key) h.occ
  have key' : s.seq.nxt.key = some x.key := congrArg (Option.map Occurrence.key) next
  have may : s.seq.cur.mayContinue x = true := by
    unfold Ctx.mayContinue
    simp [h.state, h.occ, freq, mode, programme, carrier]
  have found : s.searchFirst x = false := by
    unfold State.searchFirst
    simp [key', extended]
  have continues : s.continues x = true := by
    unfold State.continues
    simp [may, key', extended, h.terminal, show s.heldTerminal = some k.terminal from h.held]
  have off : s.setEnding none = s := State.setEnding_none h.calm.ending
  unfold State.compareCurrent
  simp only [h.occ, current, Option.map_some, h.running, early]
  rw [if_neg (by simpa using other), if_neg (by simp)]
  unfold State.endCurrent State.finishCurrent
  simp only [key, found, off, continues]
  rfl

/-- R31, R176: a minute boundary at which the next occurrence continues the one on the air. -/
theorem minute_continues {s : State} {t m : Nat} {o x : Occurrence} {k : Taken} {w : Bool}
    (due : (s.atTime t).minuteDue = true) (now : (s.atTime t).instant = some m) (air : s.OnAir o k) (begun : o.start ≤ m)
    (current : (s.minuteTaken t m).currentEntry = some x) (none : (s.minuteTaken t m).nextEntry = none)
    (other : x.key ≠ o.key) (next : s.seq.nxt.occ = some x)
    (extended : s.seq.nxt.taken = some { terminal := k.terminal, how := .extended, suspect := w })
    (freq : x.prog.freq = o.prog.freq) (mode : x.prog.mode = o.prog.mode)
    (programme : x.prog.programme = o.prog.programme) (carrier : x.prog.carrier = o.prog.carrier)
    (step : s.seq.cur.admitted = some s.seq.nxt.cap) :
    ∃ ser l b r₁ r₂, exec (.minuteBoundary t) s = .next { s.minuteTaken t m with
        serial := ser, log := l, bus := b
        seq := { s.seq with cur := s.seq.continued, nxt := Ctx.reset } }
      ∧ l.NewestAre [r₁, r₂] ∧ r₁.stamp = 60 * m ∧ r₂.stamp = 60 * m
      ∧ r₁.body = .entryOff o.source o.number .completed (some k.terminal) s.seq.cur.admitted s.seq.cur.trips
          (min 86400 s.seq.cur.offSecs)
      ∧ r₂.body = .entryOn x.source x.number (some k.terminal) s.seq.cur.admitted s.link.level 0 := by
  obtain ⟨ser, l, b, hs, news, few, -, shape⟩ := State.minute_shape due now air.calm.handed
  let a : State := { s.minuteTaken t m with serial := ser, log := l, bus := b }
  have airing : a.OnAir o k := { air with
    calm := ⟨air.calm.handed, air.calm.ending, air.calm.release, air.calm.await, air.calm.search⟩ }
  have instant : a.instant = some m := now
  have early : a.seq.cur.early a.instant = false := by
    unfold Ctx.early
    simp [airing.occ, instant, begun]
  obtain ⟨l', b', r₁, r₂, continued, newest, written⟩ := State.continueInto_stands (s := a) air.occ air.mark air.terminal
    air.steadily next (congrArg (Option.map Taken.terminal) extended) step (by rw [instant]; rfl) rfl
  let u : State := { a with
    log := l', bus := b'
    seq := { s.seq with cur := s.seq.continued, nxt := Ctx.reset } }
  have onAir : s.seq.continued.state = .onAir := air.state
  have content : u.Content := by
    refine ⟨⟨air.calm.handed, air.calm.ending, air.calm.release, ?_, rfl⟩, fun h => ?_, fun _ => air.found, fun _ _ => ?_,
      fun _ => State.nextStands_of_none none rfl⟩
    · exact onAir.trans_ne SeqState.noConfusion
    · exact absurd (h.symm.trans air.armed) Bool.false_ne_true
    · exact State.currentStands_of next (congrArg (Option.map Occurrence.key) current) rfl
  have evaluates : a.take (.reevaluate true false) = { u with handed := [.prepareNext] } := by
    have compared : a.compareCurrent true = u := (airing.compareCurrent_continues early current other next extended freq
      mode programme carrier true).trans continued
    refine (if_pos air.armed).trans ?_
    unfold State.evaluate
    dsimp only
    rw [if_neg Bool.false_ne_true, if_neg (by rw [airing.state]; decide), compared]
    exact State.emit_of (s := u) content.calm.handed _
  have prepared : u.take .prepareNext = u := content.prepareNext air.armed
  have d : State.DrainsTo { a with handed := .reevaluate true false :: hs } u (2 * hs.length + 2) :=
    State.DrainsTo.takenTells airing.calm.handed evaluates content.calm.rests.quiet
      (State.DrainsTo.taken (e := u) content.calm.handed prepared content.calm.rests.quiet content.calm.handed
        (State.drainsTo_storeNews content news))
  exact ⟨ser, l', b', r₁, r₂, exec_drains rfl shape d (by omega), newest, written⟩

end Sys2Proof.Machine

/-! SUPPORT. A minute boundary at which the next context's occurrence begins, on its claimed terminal (R77, R171, R174). -/

namespace Sys2Proof.Machine

/-! ## Promotion of the own BOOKED booking (R77) -/

theorem ownIn_eq_none {m : List TermRow} {st : BookState} :
    ownIn m st = none ↔ ∀ r ∈ m, ∀ b ∈ r.slots, isOwn st b = false := by
  unfold ownIn
  induction m with
  | nil => simp [firstSome]
  | cons r m ih =>
    rcases found : r.slots.find? (fun b => b.source == .own && b.state == st) with _ | b
    · have none := List.find?_eq_none.mp found
      simp only [List.map_cons, found, Option.map_none, firstSome, ih, List.mem_cons, forall_eq_or_imp]
      exact ⟨fun h => ⟨fun b hb => Bool.eq_false_iff.mpr (none b hb), h⟩, fun h => h.2⟩
    · simp only [List.map_cons, found, Option.map_some, firstSome, reduceCtorEq, false_iff]
      intro h
      have own := h r List.mem_cons_self b (List.mem_of_find?_eq_some found)
      exact Bool.false_ne_true (own.symm.trans (List.find?_some found))

theorem ownIn_append {l₁ l₂ : List TermRow} {st : BookState} {r : TermRow} {b : Booking} (none : ownIn l₁ st = none)
    (found : r.slots.find? (isOwn st) = some b) : ownIn (l₁ ++ r :: l₂) st = some (r.number, b) := by
  have first : r.slots.find? (fun b => b.source == .own && b.state == st) = some b := found
  unfold ownIn
  induction l₁ with
  | nil =>
    rw [List.nil_append, List.map_cons, first]
    rfl
  | cons x l ih =>
    obtain ⟨bare, rest⟩ := List.forall_mem_cons.mp (ownIn_eq_none.mp none)
    have skip : x.slots.find? (fun b => b.source == .own && b.state == st) = Option.none :=
      List.find?_eq_none.mpr fun b hb => Bool.eq_false_iff.mp (bare b hb)
    rw [List.cons_append, List.map_cons, skip]
    exact ih (ownIn_eq_none.mpr rest)

theorem mem_of_ownIn {m : List TermRow} {st : BookState} {t : Nat} {b : Booking} (h : ownIn m st = some (t, b)) :
    ∃ r ∈ m, r.number = t ∧ b ∈ r.slots ∧ isOwn st b = true := by
  unfold ownIn at h
  induction m with
  | nil => cases h
  | cons r m ih =>
    rcases found : r.slots.find? (fun b => b.source == .own && b.state == st) with _ | c
    · rw [List.map_cons, found] at h
      obtain ⟨x, hx, named⟩ := ih h
      exact ⟨x, List.mem_cons_of_mem _ hx, named⟩
    · rw [List.map_cons, found] at h
      obtain ⟨rfl, rfl⟩ := Prod.mk.inj (Option.some.inj h)
      exact ⟨r, List.mem_cons_self, rfl, List.mem_of_find?_eq_some found, List.find?_some found⟩

/-- R77: the rows with the own BOOKED booking of a terminal promoted. -/
def promotedRows (m : List TermRow) (t : Nat) : List TermRow :=
  updateWhere (·.number == t) (fun r => r.change (isOwn .booked) fun b => { b with state := .held }) m

theorem updateWhere_split {l₁ l₂ : List TermRow} {r : TermRow} {f : TermRow → TermRow}
    (distinct : RowsDistinct (l₁ ++ r :: l₂)) :
    updateWhere (·.number == r.number) f (l₁ ++ r :: l₂) = l₁ ++ f r :: l₂ := by
  unfold RowsDistinct at distinct
  rw [List.map_append, List.map_cons, List.nodup_middle, List.nodup_cons, List.mem_append, not_or, List.mem_map,
    List.mem_map] at distinct
  obtain ⟨⟨before, after⟩, -⟩ := distinct
  have kept (l : List TermRow) (h : ¬ ∃ x ∈ l, x.number = r.number) : updateWhere (·.number == r.number) f l = l := by
    unfold updateWhere
    refine (List.map_congr_left fun x hx => if_neg ?_).trans (List.map_id l)
    simpa using fun e => h ⟨x, hx, e⟩
  have split : updateWhere (·.number == r.number) f (l₁ ++ r :: l₂) = updateWhere (·.number == r.number) f l₁
      ++ f r :: updateWhere (·.number == r.number) f l₂ := by
    unfold updateWhere
    simp
  rw [split, kept l₁ before, kept l₂ after]

/-- R77: what a promotion makes of the map, with the booking alone in its row. -/
theorem promotedRows_own {m : List TermRow} {y : Nat} {b : Booking} {r : TermRow} (unheld : ownHeld m = none)
    (booked : ownBooked m = some (y, b)) (row : rowOf m y = some r) (slots : r.slots = [b]) (distinct : RowsDistinct m)
    (once : OwnOnce m) : ownHeld (promotedRows m y) = some (y, { b with state := .held }) ∧ ownBooked (promotedRows m y) = none
      ∧ rowOf (promotedRows m y) y = some { r with slots := [{ b with state := .held }] } := by
  have own : isOwn .booked b = true := by
    obtain ⟨x, hx, number, hb, own⟩ := mem_of_ownIn booked
    exact own
  obtain ⟨source, -⟩ : b.source = .own ∧ b.state = .booked := by simpa [isOwn] using own
  obtain rfl := rowOf_number row
  obtain ⟨l₁, l₂, rfl⟩ := List.append_of_mem (rowOf_mem row)
  have changed : r.change (isOwn .booked) (fun b => { b with state := .held })
      = { r with slots := [{ b with state := .held }] } := by
    simp [TermRow.change, slots, own, insertBooking]
  have rows : promotedRows (l₁ ++ r :: l₂) r.number = l₁ ++ { r with slots := [{ b with state := .held }] } :: l₂ := by
    rw [promotedRows, updateWhere_split distinct, changed]
  have no_held := ownIn_eq_none.mp unheld
  have no_booked (x : TermRow) (hx : x ∈ l₁ ∨ x ∈ l₂) (c : Booking) (hc : c ∈ x.slots) : isOwn .booked c = false := by
    have count := once.2
    rw [Bool.eq_false_iff]
    intro hit
    simp only [List.flatMap_append, List.flatMap_cons, slots, List.countP_append, List.countP_singleton,
      show (b.source == .own && b.state == .booked) = true from own, if_true] at count
    have more (l : List TermRow) (hl : x ∈ l) :
        0 < (l.flatMap (·.slots)).countP fun b => b.source == .own && b.state == .booked :=
      List.countP_pos_iff.mpr ⟨c, List.mem_flatMap.mpr ⟨x, hl, hc⟩, hit⟩
    rcases hx with hx | hx
    · have := more l₁ hx
      omega
    · have := more l₂ hx
      omega
  have there : rowOf (promotedRows (l₁ ++ r :: l₂) r.number) r.number = some
    { r with slots := [{ b with state := .held }] } := by
    rw [promotedRows, rowOf_updateWhere (f := fun r => r.change (isOwn .booked) fun b =>
      { b with state := .held }) fun _ h => h,
      if_pos rfl, row, Option.map_some, changed]
  refine ⟨?_, ?_, there⟩ <;> rw [rows]
  · refine ownIn_append (ownIn_eq_none.mpr fun x hx => no_held x (List.mem_append_left _ hx)) ?_
    simp [isOwn, source]
  · refine ownIn_eq_none.mpr fun x hx => ?_
    rcases List.mem_append.mp hx with hx | hx
    · exact no_booked x (.inl hx)
    · rcases List.mem_cons.mp hx with rfl | hx
      · simp [isOwn]
      · exact no_booked x (.inr hx)

/-! ## Promote and Close (R126, R127, R174) -/

/-- R124: with PERMIT off a drive starts, suspended while RF is present. -/
theorem State.startDrive_starts {s : State} (permit : s.link.permit = false) (t : Nat) (dir : Direction) (p : Purpose)
    (stop : Option Int) (w : Bool) : s.startDrive t dir p stop w = { s with
      mat := { s.mat.setDrive t (driveStateOf dir p) with
        active := some
          { terminal := t, direction := dir, purpose := p, travel := 0
            running := if s.rfPresent then none else some s.now, stop := stop, openWaits := w } } } := by
  have stays : s.permitLost .driveStart = s := if_neg (by rw [permit]; decide)
  have clear : (if s.linesClear then some s.now else none) = if s.rfPresent then none else some s.now := by
    unfold State.linesClear
    rw [permit]
    cases s.rfPresent <;> rfl
  unfold State.startDrive
  rw [stays]
  dsimp only
  rw [clear]

/-- R127: the own BOOKED booking is alone on its terminal, every crosspoint is OPEN and at rest, and neither a drive nor a
line holds a close back. -/
structure State.MayClose (s : State) (y : Nat) (b : Booking) : Prop where
  unheld  : ownHeld s.map = none
  booked  : ownBooked s.map = some (y, b)
  row     : ∃ r, rowOf s.map y = some r ∧ r.slots = [b]
  owner   : b.owner = s.cfg.station
  distinct : RowsDistinct s.map
  once    : OwnOnce s.map
  there   : y ∈ s.mat.rows.map (·.terminal)
  clear   : ∀ z ∈ s.mat.rows, z.pos = some .opened ∧ z.sense = some .free ∧ z.drive = .idle
  rest    : s.mat.active = none
  pending : s.mat.pendingClose = none
  work    : s.mat.openWork = []
  permit  : s.link.permit = false
  rf      : s.rfPresent = false
  join    : s.pres.join.sendsNotice = true

/-- R124, R127: the matrix once a requested close has started. -/
def Matrix.closing (m : Matrix) (y now : Nat) (stop : Option Int) : Matrix := { m with
  rows := m.rows.map fun z => if z.terminal = y then { z with drive := .closing } else z
  active := some
    { terminal := y, direction := .close, purpose := .requested, travel := 0, running := some now, stop := stop
      openWaits := false } }

namespace State.MayClose
variable {s : State} {y : Nat} {b : Booking} (h : s.MayClose y b)
include h

theorem promoted : ownHeld (promotedRows s.map y) = some (y, { b with state := .held })
    ∧ ownBooked (promotedRows s.map y) = none
    ∧ ∃ r, rowOf (promotedRows s.map y) y = some r ∧ r.slots = [{ b with state := .held }] := by
  obtain ⟨r, row, slots⟩ := h.row
  obtain ⟨held, booked, there⟩ := promotedRows_own h.unheld h.booked row slots h.distinct h.once
  exact ⟨held, booked, _, there, rfl⟩

/-- R77: the promotion, with its notices. -/
theorem promote_eq : ∃ p n m, s.promote y = ({ s with
      map := promotedRows s.map y, pres := p
      bus := { s.bus with notice := n, noticeNext := m }
      handed := s.handed ++ [.heldChanged] }, true) ∧ p.join = s.pres.join := by
  obtain ⟨held, booked, -⟩ := h.promoted
  let e : State := { s with
    map := promotedRows s.map y
    handed := s.handed ++ [.heldChanged] }
  have changes : s.withMap (promotedRows s.map y) = e.noticeChange := by
    unfold State.withMap
    rw [held, booked, h.unheld, h.booked]
    rfl
  obtain ⟨p, n, m, shape, join⟩ := e.noticeChange_noticed
  refine ⟨p, n, m, ?_, join⟩
  unfold State.promote
  rw [h.unheld, h.booked]
  exact (if_pos (by simp)).trans (congrArg (·, true) (changes.trans shape))

theorem found : ∃ z, s.mat.row y = some z := by
  obtain ⟨z, hz, at_y⟩ := List.mem_map.mp h.there
  unfold Matrix.row
  rcases missing : s.mat.rows.find? (·.terminal == y) with _ | x
  · exact absurd (by simpa using at_y) (List.find?_eq_none.mp missing z hz)
  · exact ⟨x, missing⟩

/-- R127: tests 3 and 5 to 8 pass, with no booking of another station on the terminal. -/
theorem closeTest_passes {w : State} (map : w.map = promotedRows s.map y) (cfg : w.cfg = s.cfg)
    (rows : w.mat.rows = s.mat.rows) (stop : Option Int) : w.closeTest y stop = none := by
  obtain ⟨held, booked, r, row, slots⟩ := h.promoted
  obtain ⟨z, found⟩ := h.found
  have closed : ¬ (w.mat.rows.any fun x => x.terminal != y && x.pos != some .opened) = true := by
    rw [rows, List.any_eq_true]
    rintro ⟨x, hx, other⟩
    rw [(h.clear x hx).1] at other
    simp at other
  have foreign : w.closeBlocked y stop = false := by
    unfold State.closeBlocked blocked askRow
    rw [map, row, cfg]
    dsimp only
    rw [slots]
    simp [Booking.occupies, h.owner]
  have uncontested : bookedOver w.map w.cfg.station y w.localSecond stop = false := by
    unfold bookedOver askRow
    rw [map, row]
    dsimp only
    rw [slots, cfg]
    simp [h.owner]
  have sense : (w.mat.row y).bind (·.sense) = some .free := by
    unfold Matrix.row at found ⊢
    rw [rows, found]
    exact (h.clear z (List.mem_of_find?_eq_some found)).2.1
  unfold State.closeTest
  rw [if_neg closed, map, held, foreign, if_neg (by simp), if_neg Bool.false_ne_true, ← map, uncontested, sense]
  rfl

/-- R127: the close of the promoted terminal starts its drive. -/
theorem close_eq {e : State} (map : e.map = promotedRows s.map y) (cfg : e.cfg = s.cfg) (mat : e.mat = s.mat)
    (link : e.link = s.link) (rf : e.rfPresent = s.rfPresent) (join : e.pres.join = s.pres.join) (stop : Int) :
    e.close y (some stop) = { e with mat := s.mat.closing y e.now (some stop) } := by
  obtain ⟨z, found⟩ : ∃ z, s.mat.row y = some z := h.found
  obtain ⟨opened, free, idle⟩ := h.clear z (List.mem_of_find?_eq_some found)
  let q : PendingClose := { terminal := y, stop := some stop, waited := false }
  let w : State := { e with mat := { s.mat with pendingClose := some q } }
  have held : ownHeld e.map = some (y, { b with state := .held }) := map ▸ h.promoted.1
  have pos : s.mat.posOf y = some .opened := by
    unfold Matrix.posOf
    rw [found]
    exact opened
  have waits : e.close y (some stop) = w.testPending := by
    unfold State.close
    rw [mat, h.rest, h.pending, held, pos, if_neg (by simp), if_neg (by simp), if_neg (by simp)]
  have free : w.closeHeldBack = false := by
    have jammed : w.mat.anyJammed = false := by
      refine List.any_eq_false.mpr fun x hx => ?_
      rw [(h.clear x hx).2.2]
      decide
    unfold State.closeHeldBack State.linesClear State.mayDrive
    rw [jammed, show w.mat.active = none from h.rest, show w.mat.openWork = [] from h.work,
      show w.link.permit = false from link ▸ h.permit, show w.rfPresent = false from rf.trans h.rf,
      show w.pres.join = s.pres.join from join, h.join]
    rfl
  have passes : w.closeTest y (some stop) = none := h.closeTest_passes (w := w) map cfg rfl _
  have off : e.link.permit = false := link ▸ h.permit
  have dark : e.rfPresent = false := rf.trans h.rf
  rw [waits]
  unfold State.testPending
  rw [show w.mat.pendingClose = some q from rfl]
  dsimp only
  rw [free, if_neg Bool.false_ne_true, passes]
  refine (State.startDrive_starts (s := { e with mat := { s.mat with pendingClose := none } }) off _ _ _ _ _).trans ?_
  dsimp only
  rw [dark, if_neg Bool.false_ne_true]
  unfold Matrix.closing Matrix.setDrive Matrix.setRow
  rw [h.pending]
  unfold updateWhere
  simp only [beq_iff_eq]
  rfl

end State.MayClose

end Sys2Proof.Machine

/-! SUPPORT. The next context's occurrence begins at a minute boundary (R171, R173, R174). -/

namespace Sys2Proof.Machine

/-- R174: C waits for its claimed terminal, with nothing else for the sequencer to do. -/
structure State.Awaits (s : State) (x : Occurrence) (y : Nat) (b : Booking) : Prop extends s.MayClose y b where
  occ      : s.seq.cur.occ = some x
  terminal : s.seq.cur.terminal = some y
  await    : s.seq.cur.state = .awaitTerminal
  running  : s.seq.cur.running = true
  release  : s.seq.cur.release = none
  ending   : s.seq.ending = none
  next     : s.seq.nxt = Ctx.reset
  armed    : s.seq.armed = true
  found    : s.seq.foundOffer = false
  current  : s.currentEntry = some x
  none     : s.nextEntry = Option.none

/-- R171: an occurrence that runs and is current stays. -/
theorem State.compareCurrent_current {s : State} {o : Occurrence} (occ : s.seq.cur.occ = some o)
    (current : s.currentEntry.map (·.key) = some o.key) (running : s.seq.cur.running = true) (ending : s.seq.ending = none)
    (b : Bool) : s.compareCurrent b = s := by
  have runs : ({ s.seq.cur with running := true } : Ctx) = s.seq.cur := by rw [← running]
  have still : (s.setCur { s.seq.cur with running := true }).setEnding Option.none = s := by
    rw [runs]
    exact State.setEnding_none (s := s) ending
  unfold State.compareCurrent
  simp only [current]
  split
  · rename_i bare
    exact absurd (bare.symm.trans occ) (by simp)
  · rename_i o' occ'
    obtain rfl : o = o' := Option.some.inj (occ.symm.trans occ')
    exact (if_pos (beq_self_eq_true _)).trans still

/-- R174: C once its Close has been handed. -/
def Ctx.switched (c : Ctx) : Ctx := { c.goto .switching with closeAgain := false, brk := none }

/-- R174: C's terminal is promoted and being closed. -/
def State.switchedTo (s : State) (y : Nat) (p : Presence) (b : Bus) : State := { s with
  map := promotedRows s.map y
  pres := p
  bus := b
  mat := s.mat.closing y s.now (some s.seq.cur.stopSec)
  seq := { s.seq with cur := s.seq.cur.switched } }

namespace State.Awaits
variable {s : State} {x : Occurrence} {y : Nat} {b : Booking} (h : s.Awaits x y b)
include h

theorem advance_eq (last : Bool) : s.advance last = (s.advanceAwait last).tryNextSearch := by
  unfold State.advance State.advanceEnding State.advanceRelease
  simp only [h.ending, h.release]

theorem awaitHeld_eq (last : Bool) : s.awaitHeld y last = s.closeOut y last := by
  unfold State.awaitHeld State.heldTerminal
  rw [h.release, h.unheld]
  rfl

/-- R174: while an own close is still out C waits on. -/
theorem advance_waits {last : Bool} (out : s.closeOut y last = true) : s.advance last = s := by
  have waits : s.advanceAwait last = s := by
    unfold State.advanceAwait
    rw [h.occ, h.terminal]
    dsimp only
    rw [if_pos (by simp [h.awaitHeld_eq, out])]
  rw [h.advance_eq, waits]
  unfold State.tryNextSearch
  rw [h.next]
  rfl

/-- R174: otherwise its terminal is promoted and closed. -/
theorem advance_closes {last : Bool} (out : s.closeOut y last = false) :
    ∃ p c, s.advance last = { s.switchedTo y p c with handed := s.handed ++ [.heldChanged] } := by
  obtain ⟨p, n, m, promotes, join⟩ := h.promote_eq
  let e : State := { s with
    map := promotedRows s.map y, pres := p
    bus := { s.bus with notice := n, noticeNext := m }
    handed := s.handed ++ [.heldChanged]
    seq := { s.seq with cur := s.seq.cur.switched } }
  have closes := h.toMayClose.close_eq (e := e) rfl rfl rfl rfl rfl join s.seq.cur.stopSec
  refine ⟨p, { s.bus with notice := n, noticeNext := m }, ?_⟩
  have waits : s.advanceAwait last = { e with mat := s.mat.closing y e.now (some s.seq.cur.stopSec) } := by
    unfold State.advanceAwait
    rw [h.occ, h.terminal]
    dsimp only
    rw [if_neg (by simp [h.awaitHeld_eq, out, h.await]), if_neg (by simp [State.heldTerminal, h.unheld]), promotes]
    exact closes
  rw [h.advance_eq, waits]
  unfold State.tryNextSearch
  rw [show State.seq _ = _ from rfl, show Sequencer.nxt _ = s.seq.nxt from rfl, h.next]
  rfl

theorem of_handed (hs : List Handed) : State.Awaits { s with handed := hs } x y b :=
  { unheld := h.unheld, booked := h.booked, row := h.row, owner := h.owner, distinct := h.distinct, once := h.once,
    there := h.there, clear := h.clear, rest := h.rest, pending := h.pending, work := h.work, permit := h.permit,
    rf := h.rf, join := h.join, occ := h.occ, terminal := h.terminal, await := h.await, running := h.running,
    release := h.release, ending := h.ending, next := h.next, armed := h.armed, found := h.found, current := h.current,
    none := h.none }

/-- R171: the occurrence that C waits with is the current one. -/
theorem evaluate_eq (hh : s.handed = []) : s.evaluate false false = { s with handed := [.prepareNext] } := by
  have compared : s.compareCurrent false = s :=
    State.compareCurrent_current h.occ (congrArg (Option.map Occurrence.key) h.current) h.running h.ending false
  unfold State.evaluate
  rw [if_neg Bool.false_ne_true]
  dsimp only
  rw [if_neg (by rw [h.await]; decide), compared]
  exact State.emit_of hh _

theorem prepareNext_eq : s.prepareNext = s := State.prepareNext_of_none h.ending h.none h.next h.found

/-- R171, R174: with its terminal being closed a re-evaluation finds nothing more to do. -/
theorem switchedTo_content (hh : s.handed = []) (p : Presence) (c : Bus) : (s.switchedTo y p c).Content :=
  ⟨⟨hh, h.ending, h.release, SeqState.noConfusion, by rw [show (s.switchedTo y p c).seq.nxt = s.seq.nxt from rfl, h.next]; rfl⟩,
    fun off => absurd (off.symm.trans h.armed) Bool.false_ne_true, fun _ => h.found,
    fun _ _ => State.currentStands_of h.occ (congrArg (Option.map Occurrence.key) h.current) h.running,
    fun _ => State.nextStands_of_none h.none (congrArg Ctx.occ h.next)⟩

/-- R143: with PERMIT off the move of the own HELD booking is nothing to the link. -/
theorem drainsTo_heldChanged (hh : s.handed = []) (p : Presence) (c : Bus) {hs : List Handed} (news : StoreNews hs) :
    State.DrainsTo { s.switchedTo y p c with handed := .heldChanged :: hs } (s.switchedTo y p c) (2 * hs.length + 1) := by
  have content := h.switchedTo_content hh p c
  have taken : (s.switchedTo y p c).take .heldChanged = s.switchedTo y p c := by
    show (s.switchedTo y p c).permitHeld = _
    unfold State.permitHeld State.permitLost
    rw [show (s.switchedTo y p c).link.permit = false from h.permit]
    simp
  exact State.DrainsTo.taken (e := s.switchedTo y p c) hh taken content.calm.rests.quiet hh
    (State.drainsTo_storeNews content news)

/-- R174: a close that was out has ended once all else has been taken. -/
theorem drainsTo_waits (waits : s.seq.cur.closeWaits = true) (hh : s.handed = []) {hs : List Handed} (news : StoreNews hs) :
    ∃ p c, State.DrainsTo { s with handed := .prepareNext :: hs } (s.switchedTo y p c) (2 * hs.length + 2) := by
  have still : ({ s with handed := [] } : State) = s := by rw [← hh]
  induction hs with
  | nil =>
    have out : s.closeOut y true = false := by
      unfold State.closeOut Matrix.driveOf
      obtain ⟨z, row⟩ := h.toMayClose.found
      rw [h.pending, hh, row, Option.map_some, (h.clear z (List.mem_of_find?_eq_some row)).2.2]
      simp
    obtain ⟨p, c, closes⟩ := h.advance_closes out
    refine ⟨p, c, State.DrainsTo.take rfl (a := { s.switchedTo y p c with handed := [.heldChanged] }) ?_
      (h.drainsTo_heldChanged hh p c (hs := []) news)⟩
    rw [still, show s.take .prepareNext = s from h.prepareNext_eq, show ([] : List Handed).isEmpty = true from rfl, closes, hh]
    rfl
  | cons m hs ih =>
    obtain ⟨n, rfl⟩ := news m List.mem_cons_self
    obtain ⟨p, c, d⟩ := ih fun k hk => news k (List.mem_cons_of_mem _ hk)
    have out : s.closeOut y false = true := by
      unfold State.closeOut
      simp [waits]
    have told : State.closeOut { s with handed := [.prepareNext] } y hs.isEmpty = true := by
      unfold State.closeOut
      simp [waits]
    have taken : s.take (.storeNotice n) = { s with handed := [.prepareNext] } := (if_pos h.armed).trans (h.evaluate_eq hh)
    have notice : State.DrainsTo { s with handed := .storeNotice n :: hs } (s.switchedTo y p c) (2 * hs.length + 3) := by
      refine State.DrainsTo.take rfl (a := { s with handed := [.prepareNext] }) ?_ d
      rw [still, taken]
      exact (h.of_handed [.prepareNext]).advance_waits told
    refine ⟨p, c, State.DrainsTo.take rfl (a := s) ?_ (by rw [hh]; exact notice)⟩
    rw [still, show s.take .prepareNext = s from h.prepareNext_eq]
    exact h.advance_waits out

/-- R174: the occurrence that begins is promoted and closed, at once or when its own close is no longer out. -/
theorem drainsTo_begun (hh : s.handed = []) {hs : List Handed} (news : StoreNews hs) {a : State} {m : Handed}
    (ha : a.handed = []) (begins : a.take m = { s with handed := [.prepareNext] }) :
    ∃ p c, State.DrainsTo { a with handed := m :: hs } (s.switchedTo y p c) (2 * hs.length + 3) := by
  have still : ({ a with handed := [] } : State) = a := by rw [← ha]
  let e : State := { s with handed := [.prepareNext] }
  have waiting := h.of_handed [.prepareNext]
  cases out : State.closeOut e y hs.isEmpty with
  | true =>
    have waits : s.seq.cur.closeWaits = true := by
      unfold State.closeOut at out
      exact (Bool.and_eq_true_iff.mp out).1
    obtain ⟨p, c, d⟩ := h.drainsTo_waits waits hh news
    refine ⟨p, c, State.DrainsTo.take rfl (a := e) ?_ d⟩
    rw [still, begins]
    exact waiting.advance_waits out
  | false =>
    obtain ⟨p, c, closes⟩ := waiting.advance_closes out
    have prepared : (s.switchedTo y p c).take .prepareNext = s.switchedTo y p c :=
      (h.switchedTo_content hh p c).prepareNext h.armed
    refine ⟨p, c, State.DrainsTo.take rfl (a := { s.switchedTo y p c with handed := [.prepareNext, .heldChanged] }) ?_
      (State.DrainsTo.taken (e := s.switchedTo y p c) hh prepared (h.switchedTo_content hh p c).calm.rests.quiet hh
        (h.drainsTo_heldChanged hh p c news))⟩
    rw [still, begins]
    exact closes

end State.Awaits

/-- R171: an occurrence that the next context has prepared moves into an empty C. -/
theorem State.compareCurrent_begins {s : State} {x : Occurrence} (occ : s.seq.cur.occ = none)
    (spent : s.seq.cur.spent ≠ some x.key) (current : s.currentEntry = some x) (next : s.seq.nxt.occ = some x)
    (await : s.seq.nxt.state = .awaitTerminal) (b : Bool) : s.compareCurrent b = { s with
      seq := { s.seq with cur := s.seq.nxt.movedInto s.seq.cur, nxt := Ctx.reset } } := by
  have key : s.seq.nxt.key = some x.key := congrArg (Option.map Occurrence.key) next
  have begun : s.beginCurrent x = { s with
      seq := { s.seq with cur := s.seq.nxt.movedInto s.seq.cur, nxt := Ctx.reset } } := by
    unfold State.beginCurrent
    dsimp only
    rw [if_pos (by simp [key]), if_neg (by simp [await])]
    rfl
  unfold State.compareCurrent State.beginUnspent State.beginIfAny
  simp only [occ, current, Option.any_some]
  rw [if_neg (by simpa using spent)]
  exact begun

/-- R31, R171, R174: a minute boundary at which the next context's occurrence begins. -/
theorem minute_begins {s : State} {t m y : Nat} {x : Occurrence} {b : Booking} {w : Bool}
    (due : (s.atTime t).minuteDue = true) (now : (s.atTime t).instant = some m) (calm : s.Calm)
    (armed : s.seq.armed = true) (found : s.seq.foundOffer = false) (occ : s.seq.cur.occ = none)
    (idle : s.seq.cur.state = .idle) (spent : s.seq.cur.spent ≠ some x.key)
    (current : (s.minuteTaken t m).currentEntry = some x) (none : (s.minuteTaken t m).nextEntry = none)
    (next : s.seq.nxt.occ = some x) (await : s.seq.nxt.state = .awaitTerminal)
    (taken : s.seq.nxt.taken = some { terminal := y, how := .claimed, suspect := w }) (close : s.MayClose y b) :
    ∃ ser l p c, exec (.minuteBoundary t) s = .next { s.minuteTaken t m with
        serial := ser, log := l, pres := p, bus := c
        map := promotedRows s.map y
        mat := s.mat.closing y (max s.now t) (some s.seq.nxt.stopSec)
        seq := { s.seq with cur := (s.seq.nxt.movedInto s.seq.cur).switched, nxt := Ctx.reset } } := by
  obtain ⟨ser, l, c₀, hs, news, few, -, shape⟩ := State.minute_shape due now calm.handed
  let a : State := { s.minuteTaken t m with serial := ser, log := l, bus := c₀ }
  let e : State := { a with seq := { s.seq with cur := s.seq.nxt.movedInto s.seq.cur, nxt := Ctx.reset } }
  have waiting : e.Awaits x y b :=
    { unheld := close.unheld, booked := close.booked, row := close.row, owner := close.owner, distinct := close.distinct,
      once := close.once, there := close.there, clear := close.clear, rest := close.rest, pending := close.pending,
      work := close.work, permit := close.permit, rf := close.rf, join := close.join, occ := next
      terminal := congrArg (Option.map Taken.terminal) taken
      await := await, running := rfl, release := calm.release, ending := calm.ending, next := rfl, armed := armed
      found := found, current := current, none := none }
  have begins : a.take (.reevaluate true false) = { e with handed := [.prepareNext] } := by
    have compared : a.compareCurrent true = e := State.compareCurrent_begins (s := a) occ spent current next await true
    refine (if_pos armed).trans ?_
    unfold State.evaluate
    dsimp only
    rw [if_neg Bool.false_ne_true, if_neg (by rw [show a.seq.cur.state = .idle from idle]; decide), compared]
    exact State.emit_of (s := e) calm.handed _
  obtain ⟨p, c, d⟩ := waiting.drainsTo_begun calm.handed news (a := a) calm.handed begins
  exact ⟨ser, l, p, c, exec_drains rfl shape d (by omega)⟩

end Sys2Proof.Machine

/-! PROOF. O32: a minute boundary, and what it ends, continues, begins or prepares (R18, R23, R31, R171 to R177). -/

namespace Sys2Proof.Machine

/-! ## The next context's search (R100, R173) -/

/-- R100: the claim engine at the start of a search. -/
def State.searching (s : State) (y : Occurrence) (since till : Int) : State := { s with
  claim := { Claim.reset with
    occ := some y, since := since, till := till, marks := y.prog.cands.map fun _ => .opened, phase := .halted
    watched := s.claim.watched } }

/-- R100: a search by an engine that has nothing else in hand. -/
theorem State.search_begins {s : State} {y : Occurrence} {since till : Int} (set : s.utc ≠ none)
    (phase : s.claim.phase = .idle ∨ s.claim.phase = .booked) (start : s.localSecondOf y.start = some since)
    (stop : s.localSecondOf y.stop = some till) (late : (s.localSecond : Int) < till) :
    s.search y [] = (s.searching y since till).walk := by
  have begins : s.beginSearch y [] = (s.searching y since till).walk := by
    unfold State.beginSearch
    rw [start, stop]
    exact if_neg (by omega)
  unfold State.search
  rw [if_neg (by simpa using set)]
  rcases phase with e | e <;> rw [e] <;> exact begins

/-- R102, R108, R173: a search whose first candidate is claimed. -/
theorem State.search_claims {s : State} {y : Occurrence} {since till : Int} {c : Nat} {ts : List Nat} (set : s.utc ≠ none)
    (phase : s.claim.phase = .idle ∨ s.claim.phase = .booked) (start : s.localSecondOf y.start = some since)
    (stop : s.localSecondOf y.stop = some till) (late : (s.localSecond : Int) < till) (cands : y.prog.cands = c :: ts)
    (clean : isSuspect s.map c s.localSecond = false)
    (usable : State.usable { s with claim := { s.claim with since := since, till := till } } y c = true)
    (unowned : ownReaching s.map c since = none) (undedicated : ownDedicated s.map s.cfg.station c = false)
    (join : s.pres.join = .joined) (empty : s.bus.claim = none) :
    ∃ m, s.search y [] = { s with
        bus := { s.bus with claim := some { terminal := c, cls := y.prog.cls, since := since, till := till } }
        claim := m }
      ∧ m.phase = .placed ∧ m.occ = some y ∧ m.terminal = some c ∧ m.watched = s.claim.watched := by
  let w : State := s.searching y since till
  have claims := State.walk_claims (s := w) (o := y) (x := c) rfl (by rw [cands]; rfl)
    (by simp [w, State.searching, cands, Claim.reset]) clean usable unowned undedicated join empty
  exact ⟨_, (State.search_begins set phase start stop late).trans claims, rfl, rfl, rfl, rfl⟩

/-- R173: another occurrence that is next is held in the next context, and its search is deferred. -/
theorem State.prepareNext_defers {s : State} {o y : Occurrence} (ending : s.seq.ending = none)
    (occ : s.seq.cur.occ = some o) (busy : s.seq.cur.state ≠ .idle) (next : s.nextEntry = some y) (other : y.key ≠ o.key)
    (empty : s.seq.nxt = Ctx.reset) (found : s.seq.foundOffer = false) :
    s.prepareNext = s.setNxt { s.freshCtx y false with deferred := true } := by
  have emptied : s.emptyNext = s := by
    unfold State.emptyNext
    rw [empty]
    rfl
  have key : s.seq.cur.key = some o.key := congrArg (Option.map Occurrence.key) occ
  have bare : s.seq.nxt.key = none := by
    rw [empty]
    rfl
  unfold State.prepareNext
  simp only [ending, next, emptied, key, bare, Option.map_some]
  simp [State.setNxt, Ne.symm other, busy, found, key, bare, occ]

/-- R173: what is next, other than what C runs, is in the next context. -/
theorem State.nextStands_of {s : State} {o y : Occurrence} (occ : s.seq.cur.occ = some o) (next : s.nextEntry = some y)
    (other : y.key ≠ o.key) (holds : s.seq.nxt.occ = some y) : s.NextStands := by
  have key : s.seq.cur.key = some o.key := congrArg (Option.map Occurrence.key) occ
  unfold State.NextStands
  dsimp only
  rw [next, key, if_neg (by simpa using other)]
  exact congrArg (Option.map Occurrence.key) holds

/-- R173: the engine is free of an occurrence on the air, whose terminal is read CLOSED and at rest. -/
theorem State.engineFree_onAir {s : State} {o : Occurrence} {k : Taken} {x : XRow} (occ : s.seq.cur.occ = some o)
    (taken : s.seq.cur.taken = some k) (state : s.seq.cur.state = .onAir)
    (held : (ownHeld s.map).map (·.1) = some k.terminal) (row : s.mat.row k.terminal = some x)
    (closed : x.pos = some .closed) (idle : x.drive = .idle) : s.engineFree = true := by
  unfold State.engineFree Ctx.terminal State.heldTerminal Matrix.posOf Matrix.driveOf
  simp only [occ, taken, Option.map_some, held, row, Option.bind_some, closed, Option.getD_some, idle, state]
  simp

/-- R173: a deferred search is handed once the engine is free. -/
theorem State.advance_searches {s : State} {y : Occurrence} (ending : s.seq.ending = none)
    (release : s.seq.cur.release = none) (await : s.seq.cur.state ≠ .awaitTerminal) (next : s.seq.nxt.occ = some y)
    (claiming : s.seq.nxt.state = .claiming) (deferred : s.seq.nxt.deferred = true) (free : s.engineFree = true)
    (last : Bool) : s.advance last = State.search (s.setNxt { s.seq.nxt with deferred := false }) y [] := by
  have waits : s.advanceAwait last = s := by
    unfold State.advanceAwait
    split
    · rw [if_pos (by simp [await])]
    · rfl
  have made : s.advanceEnding = s := by
    unfold State.advanceEnding
    rw [ending]
  have released : s.advanceRelease last = s := by
    unfold State.advanceRelease
    rw [release]
  unfold State.advance
  rw [made, released, waits]
  unfold State.tryNextSearch
  rw [next]
  exact if_pos (by simp [claiming, deferred, free])

/-- R31, R173: a minute boundary at which another occurrence is searched for. -/
theorem minute_searches {s : State} {t m c : Nat} {o y : Occurrence} {k : Taken} {x : XRow} {ts : List Nat}
    {since till : Int}
    (due : (s.atTime t).minuteDue = true) (now : (s.atTime t).instant = some m) (air : s.OnAir o k)
    (current : (s.minuteTaken t m).currentEntry.map (·.key) = some o.key)
    (next : (s.minuteTaken t m).nextEntry = some y) (other : y.key ≠ o.key) (empty : s.seq.nxt = Ctx.reset)
    (row : s.mat.row k.terminal = some x) (closed : x.pos = some .closed) (idle : x.drive = .idle)
    (phase : s.claim.phase = .idle ∨ s.claim.phase = .booked) (join : s.pres.join = .joined) (none : s.bus.claim = none)
    (cands : y.prog.cands = c :: ts) (start : (s.minuteTaken t m).localSecondOf y.start = some since)
    (stop : (s.minuteTaken t m).localSecondOf y.stop = some till) (late : ((max s.now t / 1000 : Nat) : Int) < till)
    (clean : isSuspect s.map c (max s.now t / 1000) = false)
    (usable : State.usable { s.atTime t with claim := { s.claim with since := since, till := till } } y c = true)
    (unowned : ownReaching s.map c since = Option.none) (undedicated : ownDedicated s.map s.cfg.station c = false) :
    ∃ ser l b q n, exec (.minuteBoundary t) s = .next { s.minuteTaken t m with
        serial := ser, log := l, claim := q, bus := b
        seq := { s.seq with nxt := n } }
      ∧ b.claim = some { terminal := c, cls := y.prog.cls, since := since, till := till }
      ∧ q.phase = .placed ∧ q.occ = some y ∧ q.terminal = some c ∧ q.watched = s.claim.watched
      ∧ n.occ = some y ∧ n.state = .claiming ∧ n.taken = Option.none ∧ n.running = false := by
  obtain ⟨ser, l, b, hs, news, few, slot, shape⟩ := State.minute_shape due now air.calm.handed
  let a : State := { s.minuteTaken t m with serial := ser, log := l, bus := b }
  obtain ⟨ss, rt, converted⟩ := a.convert_eq ({ Ctx.reset with occ := some y, running := false }.goto .claiming)
  let n : Ctx := { Ctx.goto { Ctx.reset with occ := some y, running := false } .claiming with stopSec := ss, rampTime := rt }
  let e : State := a.setNxt { n with deferred := true }
  have evaluates : a.take (.reevaluate true false) = { a with handed := [.prepareNext] } := by
    have compared : a.compareCurrent true = a :=
      State.compareCurrent_current (s := a) air.occ current air.running air.calm.ending true
    refine (if_pos air.armed).trans ?_
    unfold State.evaluate
    dsimp only
    rw [if_neg Bool.false_ne_true, if_neg (by rw [show a.seq.cur.state = .onAir from air.state]; decide), compared]
    exact State.emit_of (s := a) air.calm.handed _
  have prepared : a.take .prepareNext = e := by
    refine (State.prepareNext_defers (s := a) air.calm.ending air.occ
      (by rw [show a.seq.cur.state = .onAir from air.state]; decide)
      next other empty air.found).trans ?_
    rw [show a.freshCtx y false = n from converted]
  have set : e.utc ≠ Option.none := by
    intro bare
    have : e.instant = some m := now
    rw [State.instant, bare] at this
    cases this
  obtain ⟨q, claims, placed, serves, terminal, watched⟩ := State.search_claims (s := a.setNxt n) set phase start stop late
    cands clean usable unowned undedicated join (slot.trans none)
  let u : State := { a.setNxt n with
    bus := { b with claim := some { terminal := c, cls := y.prog.cls, since := since, till := till } }
    claim := q }
  have free : e.engineFree = true := State.engineFree_onAir (s := e) air.occ air.taken air.state air.held row closed idle
  have content : u.Content := by
    refine ⟨⟨air.calm.handed, air.calm.ending, air.calm.release, air.calm.await, rfl⟩, fun off => ?_, fun _ => air.found,
      fun _ _ => State.currentStands_of (s := u) air.occ current air.running, fun _ => ?_⟩
    · exact absurd (off.symm.trans air.armed) Bool.false_ne_true
    · exact State.nextStands_of (s := u) air.occ next other rfl
  have searched : (State.take { a with handed := [] } .prepareNext).advance hs.isEmpty = u := by
    rw [show ({ a with handed := [] } : State) = a by rw [← show a.handed = [] from air.calm.handed], prepared]
    exact (State.advance_searches (s := e) air.calm.ending air.calm.release air.calm.await rfl rfl rfl free _).trans claims
  have news' : State.DrainsTo { u with handed := u.handed ++ hs } u (2 * hs.length) := by
    rw [show u.handed = [] from air.calm.handed, List.nil_append]
    exact State.drainsTo_storeNews content news
  have d : State.DrainsTo { a with handed := .reevaluate true false :: hs } u (2 * hs.length + 2) :=
    State.DrainsTo.takenTells air.calm.handed evaluates air.calm.rests.quiet (State.DrainsTo.take rfl searched news')
  exact ⟨ser, l, _, q, n, exec_drains rfl shape d (by omega), rfl, placed, serves, terminal, watched, rfl, rfl, rfl, rfl⟩

/-! ## The obligation -/

/-- R18: the headers of a changeover, the SPENT one first. -/
theorem headerWrites_changedOver (s : Store) (bk : Bank) (m : Nat) :
    headerWrites (s.changedOver bk m) ((s.spentBy bk m).toList ++ [bk])
      = (if (s.bank bk.other).passes m then
          [{ what := .header bk.other (((s.changedOver bk m).bank bk.other).header bk.other), reply := none }] else [])
        ++ [{ what := .header bk (((s.changedOver bk m).bank bk).header bk), reply := none }] := by
  unfold headerWrites
  rw [Store.spentBy_eq]
  split <;> rfl

/-- Settles O32. -/
theorem minuteBoundaryMakesTheChangeover : Obligations.MinuteBoundaryMakesTheChangeover := by
  intro s t m due now stored
  have same : stored = { s.atTime t with store := s.store.atMinute m } := by
    show ({ s.atTime t with store := ((s.atTime t).storeMinute m).store } : State) = _
    rw [State.storeMinute_store]
    rfl
  rw [same]
  refine ⟨fun content => ?_, fun o k air begun _ => ⟨fun p nothing none nxt ramp => ?_, ?_, ?_⟩, ?_⟩
  · have content : (s.minuteTaken t m).Content := State.Content.at_minute content
    rcases bank : s.store.dueBank m with _ | bk
    · refine ⟨_, minute_rests due now content bank, rfl, rfl, fun _ => ?_, fun bk h => (by cases h), rfl, rfl, rfl, rfl⟩
      have kept : s.store.atMinute m = { s.store with extras := removeExtras s.store.extras m } := by
        unfold Store.atMinute
        rw [bank]
      have first : (s.store.atMinute m).bankA = s.store.bankA := by rw [kept]
      have second : (s.store.atMinute m).bankB = s.store.bankB := by rw [kept]
      exact ⟨first, second, rfl, rfl⟩
    · obtain ⟨l, b, runs, r, newest, seq, stamp, unset, body⟩ := minute_changes due now content bank
      refine ⟨_, runs, rfl, rfl, fun h => (by cases h), ?_, rfl, rfl, rfl, rfl⟩
      rintro bk' ⟨⟩
      have at_bank (o : Bank) : (s.store.atMinute m).bank o = (s.store.changedOver bk m).bank o :=
        Store.atMinute_bank bank o
      refine ⟨(at_bank bk).trans (Store.changedOver_bank _ _ _), (at_bank bk.other).trans (Store.changedOver_other _ _ _), ?_,
        r, newest, seq, stamp, unset, body.trans ?_⟩
      · have writes := congrArg (s.serial.writes ++ ·) (headerWrites_changedOver s.store bk m)
        rw [← at_bank, ← at_bank, ← List.append_assoc] at writes
        exact writes
      · rw [Store.spentBy_eq]
        rfl
  · exact minute_cuts due now air begun nothing none nxt ramp
  · intro x w current none other next extended freq mode programme carrier step
    obtain ⟨ser, l, b, r₁, r₂, runs, newest, stamp₁, stamp₂, body₁, body₂⟩ :=
      minute_continues due now air begun current none other next extended freq mode programme carrier step
    exact ⟨_, r₁, r₂, runs, rfl, newest, stamp₁, stamp₂, body₁, body₂, next, air.state, rfl, rfl, rfl, rfl, rfl, rfl, rfl, rfl,
      rfl, rfl, rfl, rfl, rfl⟩
  · intro x y ts current next other empty row closed idle phase join none c since till cands start stop late clean usable
      unowned undedicated
    obtain ⟨ser, l, b, q, n, runs, slot, placed, serves, terminal, watched, occ, state, taken, running⟩ :=
      minute_searches due now air current next other empty row closed idle phase join none cands start stop late clean usable
        unowned undedicated
    exact ⟨_, runs, occ, state, taken, running, rfl, placed, serves, terminal, watched, slot, rfl, rfl, rfl, rfl, rfl⟩
  · intro x b r y w calm armed found join occ idle spent current none next await taken unheld booked row slots owner distinct
      once there clear rest pending work permit rf
    have close : s.MayClose y b :=
      ⟨unheld, booked, ⟨r, row, slots⟩, owner, distinct, once, there, clear, rest, pending, work, permit, rf, join⟩
    obtain ⟨ser, l, p, c, runs⟩ :=
      minute_begins due now calm armed found occ idle spent current none next await taken close
    obtain ⟨held, unbooked, -⟩ := close.promoted
    exact ⟨_, runs, held, unbooked, next, rfl, rfl, rfl, rfl, rfl, rfl, rfl, rfl, rfl⟩

end Sys2Proof.Machine

/-! PROOF. O40: RF-PRESENT suspends a drive, and its end settles the link or lets an opening resume (R124, R136, R148). -/

namespace Sys2Proof.Machine

/-- R124: a suspended opening goes on with both lines clear. -/
theorem State.resumeDrive_opens {s : State} {d : Drive} (active : s.mat.active = some d) (held : d.running = none)
    (opening : d.direction = .openUp) (permit : s.link.permit = false) (rf : s.rfPresent = false) :
    s.resumeDrive = { s with mat := { s.mat with active := some { d with running := some s.now } } } := by
  have untested : s.retestClose = s := by
    unfold State.retestClose
    rw [active]
    exact if_neg (by rw [opening]; decide)
  unfold State.resumeDrive
  rw [active]
  dsimp only
  rw [if_neg (by simp [held, State.linesClear, permit, rf]), untested, active]

/-- Settles O40. -/
theorem rfPresentSuspendsAndResumes : Obligations.RfPresentSuspendsAndResumes := by
  intro s t hh
  refine ⟨exec_quiet rfl ?_ hh, fun unarmed settling rest => ?_, fun d op permit active held opening => ?_⟩
  · have suspends (d : Drive) : (if d.running.isSome then d.suspend (s.atTime t).now else d) = match d.running with
        | some r => { d with travel := min (d.travel + (max s.now t - r)) 7999, running := none }
        | none => d := by
      unfold Drive.suspend Drive.travelAt
      rcases d.running with _ | r <;> rfl
    show (s.atTime t).rfActive = _
    unfold State.rfActive
    simp only [suspends]
    rfl
  · let u : State := { s.atTime t with
      rfPresent := false
      link := { (s.atTime t).link with op := .none, opTerminal := none } }
    let w : State := { u with handed := [.txSettled] }
    have settles : ruleOf (.rfPresentInactive t) (s.atTime t) = w := by
      have told : State.trySettle { s.atTime t with rfPresent := false } = w := by
        unfold State.trySettle
        rw [if_pos (by simp [settling])]
        exact State.emit_of (s := u) hh _
      show State.resumeDrive (State.trySettle { s.atTime t with rfPresent := false }) = w
      rw [told]
      unfold State.resumeDrive
      rw [show w.mat.active = none from rest]
    exact exec_drains rfl settles (State.DrainsTo.still (s := w) rfl (Still.txSettled (s := w) unarmed.seq)
      (State.drainsTo_rest (s := u) hh 0))
  · have steady : State.trySettle { s.atTime t with rfPresent := false } = { s.atTime t with rfPresent := false } :=
      if_neg (by simp [op])
    exact exec_quiet rfl ((congrArg State.resumeDrive steady).trans
      (State.resumeDrive_opens (s := { s.atTime t with rfPresent := false }) active held opening permit rfl)) hh

end Sys2Proof.Machine

/-! SUPPORT. A drive that has failed (R52, R79, R131). -/

namespace Sys2Proof.Machine

/-! ## The mark of an own FAULT (R79) -/

theorem rowOf_mapMark_other {m : List TermRow} {t y : Nat} (h : y ≠ t) (n a minutes : Nat) :
    rowOf (mapMark m t n a minutes) y = rowOf m y := by
  unfold mapMark
  rw [rowOf_updateWhere (f := (·.mark n a minutes)) fun r e => (r.mark_number n a minutes).trans e, if_neg h]

/-- R79: a terminal in the reach is suspect after a FAULT of 30 minutes at the present second. -/
theorem isSuspect_mapMark {m : List TermRow} {t n : Nat} (there : (rowOf m t).isSome = true) :
    isSuspect (mapMark m t n n 30) t n = true := by
  unfold mapMark isSuspect
  rw [rowOf_updateWhere (f := (·.mark n n 30)) fun r e => (r.mark_number n n 30).trans e, if_pos rfl]
  obtain ⟨r, row⟩ := Option.isSome_iff_exists.mp there
  rw [row, Option.map_some]
  unfold TermRow.isSuspect
  rw [TermRow.mark_eq]
  rcases r.suspect with _ | v
  · simp
  · by_cases later : n < v <;> simp [later]

/-! ## The jam (R131) -/

/-- R52: a FAULT takes the place of no other frame. -/
theorem Bus.placeFault_other (b : Bus) (f : FaultFrame) :
    (b.placeFault f).free = b.free ∧ (b.placeFault f).claim = b.claim := by
  unfold Bus.placeFault
  rcases b.fault with _ | g
  · exact ⟨rfl, rfl⟩
  · exact iteInduction (motive := fun c : Bus => c.free = b.free ∧ c.claim = b.claim) (fun _ => ⟨rfl, rfl⟩) fun _ =>
      iteInduction (motive := fun c : Bus => c.free = b.free ∧ c.claim = b.claim) (fun _ => ⟨rfl, rfl⟩) fun _ =>
        iteInduction (motive := fun c : Bus => c.free = b.free ∧ c.claim = b.claim) (fun _ => ⟨rfl, rfl⟩) fun _ => ⟨rfl, rfl⟩

/-- R131: the matrix once a drive has failed: its crosspoint is JAMMED, and the RECOVERY drive toward OPEN has started. -/
def Matrix.jammedBy (m : Matrix) (d : Drive) (rf : Bool) (now : Nat) : Matrix := { m with
  rows := m.rows.map fun x =>
    if x.terminal = d.terminal then { x with drive := .jammed, recovery := true, failed := d.direction } else x
  active := some
    { terminal := d.terminal, direction := .openUp, purpose := .recovery, travel := 0
      running := if rf then none else some now, stop := none, openWaits := false } }

/-- R131: what a failed drive leaves, before its hand-outs are taken. -/
def State.jammedWith (s : State) (d : Drive) (l : AirLog) (p : Presence) (b : Bus) : State := { s with
  log := l, pres := p, bus := b
  alert := { s.alert with jammed := true }
  map := mapMark s.map d.terminal s.localSecond s.localSecond 30
  mat := s.mat.jammedBy d s.rfPresent s.now }

/-- R131: the first jam of a drive that has had no RECOVERY drive. -/
theorem State.jam_eq {s : State} {d : Drive} (permit : s.link.permit = false)
    (untried : ∀ x ∈ s.mat.rows, x.terminal = d.terminal → x.recovery = false)
    (sound : ∀ x ∈ s.mat.rows, x.drive ≠ .jammed) (free : s.bus.fault = none) :
    ∃ l p b bad r, s.jam d = { s.jammedWith d l p b with
        handed := s.handed ++ bad ++ if d.purpose = .tidy then [] else [.mxJammed d.terminal d.direction] }
      ∧ (bad = [] ∨ bad = [.suspect d.terminal true]) ∧ p.join = s.pres.join
      ∧ l.NewestAre [r] ∧ r.body = .jammed d.terminal 0 d.direction none
      ∧ b.fault = some { terminal := d.terminal, reason := .crosspoint, minutes := 30 }
      ∧ b.free = s.bus.free ∧ b.claim = s.bus.claim := by
  let failed : LogBody := .jammed d.terminal 0 d.direction none
  let bad : List Handed :=
    if (! isSuspect s.map d.terminal s.localSecond
        && isSuspect (mapMark s.map d.terminal s.localSecond s.localSecond 30) d.terminal s.localSecond)
      && isOwnTerminal (mapMark s.map d.terminal s.localSecond s.localSecond 30) d.terminal
    then [.suspect d.terminal true] else []
  let tell : List Handed := if d.purpose = .tidy then [] else [.mxJammed d.terminal d.direction]
  let e : State := { s with
    mat := { s.mat.setRow d.terminal fun x => { x with drive := .jammed, failed := d.direction, recovery := true } with
      active := none } }
  have first : s.mat.anyJammed = false := by
    refine List.any_eq_false.mpr fun x hx => ?_
    simpa using sound x hx
  have once : ((s.mat.row d.terminal).map (·.recovery)).getD false = false := by
    unfold Matrix.row
    rcases found : s.mat.rows.find? (·.terminal == d.terminal) with _ | x
    · rw [found]
      rfl
    · rw [found]
      exact untried x (List.mem_of_find?_eq_some found) (by simpa using List.find?_some found)
  have newest := AirLog.newestAre_writeLog e failed
  have slot := e.writeLog_faultSlot failed
  have slot' := e.writeLog_freeSlot failed
  have slot'' := e.writeLog_claimSlot failed
  obtain ⟨l, b, logged⟩ := e.writeLog_logged failed
  rw [logged] at newest slot slot' slot''
  let frame : FaultFrame := { terminal := d.terminal, reason := .crosspoint, minutes := 30 }
  let f : State := { e with
    log := l, bus := b.placeFault frame
    map := mapMark s.map d.terminal s.localSecond s.localSecond 30
    handed := s.handed ++ bad }
  have faults : (e.writeLog failed).ownFault d.terminal .crosspoint faultMinutes = f := by
    rw [logged]
    rfl
  obtain ⟨p, n, m, noticed, join⟩ := State.noticeChange_noticed { f with alert := { f.alert with jammed := true } }
  let b' : Bus := { b.placeFault frame with notice := n, noticeNext := m }
  refine ⟨l, p, b', bad, _, ?_, (ite_eq_or_eq _ _ _).symm, join, newest, e.recordOf_body failed,
    Bus.placeFault_free (slot.trans free) frame, ?_, ?_⟩
  · let g : State := { f with
      alert := { f.alert with jammed := true }, pres := p, bus := b', handed := s.handed ++ bad ++ tell }
    have told : (if d.purpose == .tidy then ({ g with handed := s.handed ++ bad } : State)
        else State.emit { g with handed := s.handed ++ bad } [.mxJammed d.terminal d.direction]) = g := by
      unfold State.emit
      by_cases tidy : d.purpose = .tidy
      · rw [if_pos (by simp [tidy])]
        simp [g, tell, tidy]
      · rw [if_neg (by simp [tidy])]
        simp [g, tell, tidy]
    have drives := State.startDrive_starts (s := g) permit d.terminal .openUp .recovery none false
    have rows (l : List XRow) : updateWhere (·.terminal == d.terminal) (fun x => { x with drive := .jammed })
        (updateWhere (·.terminal == d.terminal)
          (fun x => { x with drive := .jammed, failed := d.direction, recovery := true }) l)
        = l.map fun x => if x.terminal = d.terminal then
            { x with drive := .jammed, recovery := true, failed := d.direction } else x := by
      unfold updateWhere
      rw [List.map_map]
      refine List.map_congr_left fun x _ => ?_
      by_cases own : x.terminal = d.terminal <;> simp [own]
    have matrix : g.mat.setDrive d.terminal (driveStateOf .openUp .recovery) = { g.mat with
        rows := s.mat.rows.map fun x => if x.terminal = d.terminal then
          { x with drive := .jammed, recovery := true, failed := d.direction } else x } := by
      have := rows s.mat.rows
      unfold Matrix.setDrive Matrix.setRow
      exact congrArg (fun l => ({ g.mat with rows := l } : Matrix)) this
    let w : State := (e.writeLog failed).ownFault d.terminal .crosspoint faultMinutes
    have alerted : State.noticeChange { w with alert := { w.alert with jammed := true } } =
      { g with handed := s.handed ++ bad } := by
      rw [show w = f from faults]
      exact noticed
    have jams : s.jam d = (if d.purpose == .tidy then ({ g with handed := s.handed ++ bad } : State)
        else State.emit { g with handed := s.handed ++ bad } [.mxJammed d.terminal d.direction]).startDrive d.terminal .openUp
          .recovery none false := by
      rw [← alerted]
      unfold State.jam
      rw [first, once]
      rfl
    rw [jams, told, drives, matrix]
    rfl
  · exact (b.placeFault_other frame).1.trans slot'
  · exact (b.placeFault_other frame).2.trans slot''

/-! ## The notices of a jam, at a station that has not been armed (R80, R131, R146) -/

/-- R80, R131, R146: a suspect notice, what it does to the carrier, and JAMMED. -/
inductive Handed.OfJam : Handed → Prop where
  | suspect (t : Nat) : OfJam (.suspect t true)
  | level : OfJam .levelChanged
  | capped (kw : Nat) : OfJam (.txCapped kw)
  | jammed (t : Nat) (d : Direction) : OfJam (.mxJammed t d)

/-- R80, R146: the link, the power share unit and the NOTICE alone have moved, with no other hand-out than these. -/
def State.Aside (s u : State) : Prop := ∃ l q p n m hs, u = { s with
      link := l, psu := q, pres := p
      bus := { s.bus with notice := n, noticeNext := m }
      handed := hs }
    ∧ q.phase = s.psu.phase ∧ ∀ k ∈ hs, Handed.OfJam k

theorem State.Aside.trans {s a u : State} (h : s.Aside a) (k : a.Aside u) : s.Aside u := by
  obtain ⟨l, q, p, n, m, hs, rfl, phase, -⟩ := h
  obtain ⟨l', q', p', n', m', hs', rfl, phase', news⟩ := k
  exact ⟨l', q', p', n', m', hs', rfl, phase'.trans phase, news⟩

theorem State.PowerNoticed.aside {s u : State} (h : s.PowerNoticed u) (news : ∀ k ∈ s.handed, Handed.OfJam k) : s.Aside u := by
  obtain ⟨q, ⟨p, n, m, rfl, -⟩, phase⟩ := h
  exact ⟨s.link, q, p, n, m, s.handed, rfl, phase, news⟩

theorem State.aside_link {s : State} (news : ∀ k ∈ s.handed, Handed.OfJam k) (l : Link) {hs : List Handed}
    (more : ∀ k ∈ hs, Handed.OfJam k) : s.Aside { s with link := l, handed := s.handed ++ hs } :=
  ⟨l, s.psu, s.pres, s.bus.notice, s.bus.noticeNext, s.handed ++ hs, rfl, rfl, fun k hk =>
    (List.mem_append.mp hk).elim (news k) (more k)⟩

/-- R146: a suspect notice lowers the carrier at most. -/
theorem State.aside_linkSuspect {s : State} (news : ∀ k ∈ s.handed, Handed.OfJam k) (t : Nat) (on : Bool) :
    s.Aside (s.linkSuspect t on) := by
  have stays : s.Aside s := (State.PowerNoticed.refl s).aside news
  have lowered (l : Link) : s.Aside { s with link := l } := by
    have := State.aside_link news l (hs := []) fun k hk => by cases hk
    rwa [List.append_nil] at this
  unfold State.linkSuspect
  split
  · exact stays
  · rename_i p ramp
    refine iteInduction (fun _ => iteInduction (fun _ => ?_) fun _ => lowered _) fun _ => stays
    let limit := s.levelLimit p.carrier
    let x : State := { s with link := { s.link with
      ramp := some { p with target := min p.target limit }, plan := s.link.plan.map (PlanItem.cap limit) } }
    have shape : (x.issueLevel limit).emit [.txCapped limit] = { s with
        link := { x.link with out := x.issuing (.level (x.limited limit)), level := x.limited limit }
        handed := s.handed ++ (levelNews x.link.level (x.limited limit) ++ [.txCapped limit]) } := by
      rw [State.issueLevel_out, ← List.append_assoc]
      rfl
    refine shape ▸ State.aside_link news _ fun k hk => ?_
    rcases List.mem_append.mp hk with hk | hk
    · unfold levelNews at hk
      split at hk
      · cases hk
      · exact List.mem_singleton.mp hk ▸ .level
    · exact List.mem_singleton.mp hk ▸ .capped _

/-- R80, R131, R146: at a station that has not been armed such a hand-out moves nothing else. -/
theorem State.aside_take {s : State} {m : Handed} (hm : m.OfJam) (reset : s.seq = Sequencer.reset) (hh : s.handed = [])
    (power : s.psu.phase = .none) (mark : s.mat.releaseMark = none) : s.Aside (s.take m) := by
  have none : ∀ k ∈ s.handed, Handed.OfJam k := by
    rw [hh]
    exact fun k hk => by cases hk
  have stays : s.Aside s := (State.PowerNoticed.refl s).aside none
  have uncapped (c : Ctx) (hc : c = Ctx.reset) (t : Option Nat) (on : Bool) : c.capAt t on = c := by
    rw [hc]
    rfl
  cases hm with
  | suspect t =>
    have moved := (State.powerNoticed_powerSuspect power t true).aside none
    have reset' : (s.powerSuspect t true).seq = Sequencer.reset := by
      obtain ⟨_, _, _, _, _, _, shape, -⟩ := moved
      rw [shape]
      exact reset
    have lowered : s.Aside ((s.powerSuspect t true).linkSuspect t true) := by
      obtain ⟨q, ⟨p, n, m, shape, -⟩, -⟩ := State.powerNoticed_powerSuspect power t true
      exact moved.trans (State.aside_linkSuspect (by rw [shape]; exact none) t true)
    have seq : ((s.powerSuspect t true).linkSuspect t true).seq = Sequencer.reset := by
      obtain ⟨_, _, _, _, _, _, shape, -⟩ := lowered
      rw [shape]
      exact reset
    have kept : State.seqSuspect ((s.powerSuspect t true).linkSuspect t true) t true
        = (s.powerSuspect t true).linkSuspect t true := by
      unfold State.seqSuspect
      rw [uncapped _ (by rw [seq]; rfl), uncapped _ (by rw [seq]; rfl)]
    exact (show s.Aside (State.seqSuspect _ t true) from kept.symm ▸ lowered)
  | level => exact (State.powerNoticed_powerLevel s).aside none
  | capped kw =>
    have again : s.seq.cur.retry = Option.none := by
      rw [reset]
      rfl
    have retry : s.noRetry = s := by
      unfold State.noRetry State.setCur
      rw [← again]
    have kept : s.seqCapped = s := by
      unfold State.seqCapped
      rw [uncapped _ (by rw [reset]; rfl)]
      rfl
    show s.Aside (s.noRetry.seqCapped)
    rw [retry, kept]
    exact stays
  | jammed t d =>
    have taken := (Still.mxJammed reset mark t d).take
    rw [show ({ s with handed := [] } : State) = s by rw [← hh]] at taken
    rw [taken]
    exact stays

/-- R131: at a station that has not been armed the notices of a jam leave the matrix, the map and the records. -/
theorem State.aside_drainFrom {s : State} (reset : s.seq = Sequencer.reset) (power : s.psu.phase = .none)
    (mark : s.mat.releaseMark = none) (news : ∀ k ∈ s.handed, Handed.OfJam k) (n : Nat) : s.Aside (s.drainFrom n) := by
  induction n generalizing s with
  | zero => exact (State.PowerNoticed.refl s).aside news
  | succ n ih =>
    rcases hs : s.handed with _ | ⟨m, rest⟩
    · rw [show s.drainFrom (n + 1) = s from State.drainsTo_self hs (n + 1) (Nat.zero_le _)]
      exact (State.PowerNoticed.refl s).aside news
    · rw [hs] at news
      obtain ⟨hm, later⟩ := List.forall_mem_cons.mp news
      obtain ⟨l, q, p, k, k', hs', shape, phase, more⟩ := State.aside_take
        (s := { s with handed := [] }) hm reset rfl power mark
      let a : State := { s with
        link := l, psu := q, pres := p
        bus := { s.bus with notice := k, noticeNext := k' }
        handed := hs' }
      have quiet : a.seq.Quiet := by
        rw [show a.seq = _ from reset]
        exact Sequencer.reset_quiet
      have shape : State.take { s with handed := [] } m = a := shape
      have all : ∀ j ∈ hs' ++ rest, Handed.OfJam j := fun j hj => (List.mem_append.mp hj).elim (more j) (later j)
      rw [State.drainFrom_cons hs, shape, quiet.advance]
      have first : s.Aside { a with handed := a.handed ++ rest } := ⟨l, q, p, k, k', hs' ++ rest, rfl, phase, all⟩
      exact first.trans (ih (s := { a with handed := a.handed ++ rest }) reset (phase.trans power) mark all)

end Sys2Proof.Machine

/-! PROOF. O39: a drive that exceeds its travel time (R131, R132, R174, R177, R179). -/

namespace Sys2Proof.Machine

/-! ## The terminal of a failed close is given up (R174, R179) -/

/-- R174: the occurrence waits for the close of a terminal of which the drive has failed, and its search has been made as
far as that candidate. -/
structure State.ClosesIn (s : State) (o : Occurrence) (x : Nat) : Prop where
  handed   : s.handed = []
  ending   : s.seq.ending = none
  release  : s.seq.cur.release = none
  search   : s.seq.nxt.deferred = false
  found    : s.seq.foundOffer = false
  state    : s.seq.cur.state = .switching
  occ      : s.seq.cur.occ = some o
  terminal : s.seq.cur.terminal = some x
  power    : s.psu.phase = .none
  phase    : s.claim.phase = .booked
  serves   : s.claim.occ = some o
  index    : s.claim.index = 1

/-- R177: a release that waits in CLEARING goes on with the notice of the crosspoint alone. -/
theorem Sequencer.quiet_clearing {q : Sequencer} {x : Nat} {w : Bool} (ending : q.ending = none)
    (release : q.cur.release = some { terminal := x, stage := .clearing, waitLink := w })
    (await : q.cur.state ≠ .awaitTerminal) (search : q.nxt.deferred = false) : q.Quiet := by
  refine ⟨ending, fun r hr hs => ?_, await, search⟩
  obtain rfl := Option.some.inj (release.symm.trans hr)
  cases hs

namespace State.ClosesIn
variable {s : State} {o : Occurrence} {x : Nat} (h : s.ClosesIn o x)
include h

theorem quiet : s.seq.Quiet :=
  Sequencer.Rests.quiet ⟨h.ending, h.release, by rw [h.state]; exact SeqState.noConfusion, h.search⟩

/-- R131, R179: JAMMED of the close gives the terminal up; its release waits in CLEARING, and the walk goes on. -/
theorem take_jammed {rs : List LogRecord} (newest : s.log.NewestAre rs) (few : rs.length < 64) (dir : Direction) :
    ∃ l q p b, s.take (.mxJammed x dir) = State.walk { s with
        log := l, psu := q, pres := p, bus := b, claim := s.claim.without o x
        seq := { s.seq with cur := s.seq.cur.gaveUp x .clearing s.now } }
      ∧ (∃ r, l.NewestAre (rs ++ [r]) ∧ r.body = .terminalFault o.source o.number x .jammed)
      ∧ q.phase = .none ∧ p.join = s.pres.join ∧ b.claim = s.bus.claim ∧ b.fault = s.bus.fault ∧ b.free = s.bus.free := by
  obtain ⟨l, q, p, b, walks, rest⟩ := State.giveUp_walks h.occ h.phase h.serves h.power newest few x .jammed .clearing
  refine ⟨l, q, p, b, Eq.trans ?_ walks, rest⟩
  show s.seqJammed x = _
  have closing : s.switchingOn x = true := by
    unfold State.switchingOn
    simp [h.occ, h.terminal, h.state]
  have kept : s.releaseAt x .opening = false := by
    unfold State.releaseAt
    rw [h.release]
  unfold State.seqJammed
  rw [kept, closing]
  rfl

/-- R105, R179: with no candidate left the occurrence has ended LOST. -/
theorem ends {rs : List LogRecord} (newest : s.log.NewestAre rs) (few : rs.length < 63) (dir : Direction)
    (skipped : s.claim.skipped = false) (cands : o.prog.cands = [x]) (marks : s.claim.marks = [.opened]) :
    ∃ u r, State.DrainsTo { s with handed := [.mxJammed x dir] } u 2
      ∧ u.mat = s.mat ∧ u.alert = s.alert ∧ u.map = s.map ∧ u.bus.fault = s.bus.fault ∧ u.bus.free = s.bus.free
      ∧ u.claim = { Claim.reset with watched := s.claim.watched }
      ∧ u.seq = { s.seq with cur := { Ctx.reset with
          spent := some o.key, release := some { terminal := x, stage := .clearing, waitLink := false } } }
      ∧ r.body = .terminalFault o.source o.number x .jammed
      ∧ (s.seq.cur.onAir = none → s.seq.cur.running = false → u.log.NewestAre (rs ++ [r]))
      ∧ (∀ g, s.seq.cur.onAir = none → s.seq.cur.running = true → s.seq.cur.early s.instant = false →
        s.seq.cur.furthest = some g → (g = .switching ∨ g = .tuning ∨ g = .admitting ∨ g = .ramping ∨ g = .onAir) →
        ∃ c, u.log.NewestAre (rs ++ [r] ++ [c]) ∧ c.body = .entryMissed o.source o.number .lost g)
      ∧ (s.seq.cur.onAir.isSome = true → ∃ c off, u.log.NewestAre (rs ++ [r] ++ [c])
        ∧ c.body = .entryOff o.source o.number .lost (some x) s.seq.cur.admitted s.seq.cur.trips off) := by
  obtain ⟨l, q, p, b, walks, ⟨r, both, named⟩, power, -, -, slot, free⟩ := h.take_jammed newest (by omega) dir
  let w : State := { s with
    log := l, psu := q, pres := p, bus := b, claim := s.claim.without o x
    seq := { s.seq with cur := s.seq.cur.gaveUp x .clearing s.now } }
  let e : State := { w with claim := w.claim.idle }
  have all : ∀ m ∈ w.claim.marks, m = .exhausted := by
    simp [w, Claim.without, cands, marks]
  have ended : s.take (.mxJammed x dir) = { e with handed := [.exhausted o.key] } :=
    walks.trans (State.walk_exhausted (s := w) h.serves (h.index.trans (by simp [cands])) skipped all h.handed)
  obtain ⟨q', p', b', closes, slot', free'⟩ := State.take_exhausted (s := e) h.occ h.ending h.found power
  let f : State := { e with
    log := (e.closing .lost).log, psu := q', pres := p', bus := b'
    seq := { e.seq with cur := { e.seq.cur.emptied .idle with spent := some o.key } } }
  have quiet : e.seq.Quiet := Sequencer.quiet_clearing h.ending rfl SeqState.noConfusion h.search
  have quiet' : f.seq.Quiet := Sequencer.quiet_clearing h.ending rfl SeqState.noConfusion h.search
  have d : State.DrainsTo { s with handed := [.mxJammed x dir] } f 2 :=
    State.DrainsTo.takenTells h.handed ended quiet
      (State.DrainsTo.taken (e := e) (a := f) h.handed closes quiet' h.handed (State.drainsTo_rest (s := f) h.handed 0))
  have furthest (g : SeqState) (hg : s.seq.cur.furthest = some g)
      (late : g = .switching ∨ g = .tuning ∨ g = .admitting ∨ g = .ramping ∨ g = .onAir) : e.seq.cur.furthest = some g := by
    show (if ((s.seq.cur.furthest.map SeqState.place).getD 0) < SeqState.claiming.place then some .claiming
      else s.seq.cur.furthest) = some g
    rw [hg]
    rcases late with rfl | rfl | rfl | rfl | rfl <;> rfl
  refine ⟨f, r, d, rfl, rfl, rfl, slot'.trans slot, free'.trans free, rfl, rfl, named, fun off fresh => ?_,
    fun g off ran early hg late => ?_, fun on => ?_⟩
  · show (e.closing .lost).log.NewestAre _
    rw [State.closing_unrun (s := e) off fresh]
    exact both
  · refine ⟨e.recordOf (.entryMissed o.source o.number .lost g), ?_, e.recordOf_body _⟩
    show (e.closing .lost).log.NewestAre _
    rw [State.closing_missed (s := e) h.occ off ran early (furthest g hg late)]
    exact both.writeLog (s := e) (by simp; omega) _
  · refine ⟨e.recordOf (.entryOff o.source o.number .lost (some x) s.seq.cur.admitted s.seq.cur.trips
      (e.seq.cur.offAir e.now)), e.seq.cur.offAir e.now, ?_, e.recordOf_body _⟩
    have away : e.closing .lost = e.writeLog (.entryOff o.source o.number .lost (some x) s.seq.cur.admitted s.seq.cur.trips
      (e.seq.cur.offAir e.now)) := State.closing_off (s := e) h.occ on
    show (e.closing .lost).log.NewestAre _
    rw [away]
    exact both.writeLog (s := e) (by simp; omega) _

/-- R102, R108, R179: otherwise the next candidate is claimed. -/
theorem claims {rs : List LogRecord} (newest : s.log.NewestAre rs) (few : rs.length < 63) (dir : Direction) {y : Nat}
    {ts : List Nat} {ms : List Mark} (cands : o.prog.cands = x :: y :: ts) (marks : s.claim.marks = .opened :: .opened :: ms)
    (away : y ≠ x) (clean : isSuspect s.map y s.localSecond = false) (usable : s.usable o y = true)
    (unowned : ownReaching s.map y s.claim.since = none) (undedicated : ownDedicated s.map s.cfg.station y = false)
    (joined : s.pres.join = .joined) (empty : s.bus.claim = none) :
    ∃ u r, State.DrainsTo { s with handed := [.mxJammed x dir] } u 1
      ∧ u.mat = s.mat ∧ u.alert = s.alert ∧ u.map = s.map ∧ u.bus.fault = s.bus.fault ∧ u.bus.free = s.bus.free
      ∧ u.seq.nxt = s.seq.nxt ∧ u.log.NewestAre (rs ++ [r]) ∧ r.body = .terminalFault o.source o.number x .jammed
      ∧ u.bus.claim = some { terminal := y, cls := o.prog.cls, since := s.claim.since, till := s.claim.till }
      ∧ u.claim.phase = .placed ∧ u.claim.terminal = some y ∧ u.claim.marks[0]? = some .exhausted
      ∧ u.seq.cur.state = .claiming ∧ u.seq.cur.occ = some o ∧ u.seq.cur.taken = none
      ∧ u.seq.cur.givenUp = s.seq.cur.givenUp ++ [x]
      ∧ u.seq.cur.release = some { terminal := x, stage := .clearing, waitLink := false } := by
  obtain ⟨l, q, p, b, walks, ⟨r, both, named⟩, power, join, claim, slot, free⟩ := h.take_jammed newest (by omega) dir
  let w : State := { s with
    log := l, psu := q, pres := p, bus := b, claim := s.claim.without o x
    seq := { s.seq with cur := s.seq.cur.gaveUp x .clearing s.now } }
  have marked : w.claim.marks = .exhausted :: .opened :: List.zipWith (fun m c => if c == x then .exhausted else m) ms ts := by
    simp [w, Claim.without, cands, marks, away]
  have one : w.claim.index = 1 := h.index
  have claims := State.walk_claims (s := w) h.serves (x := y) (by rw [one, cands]; rfl) (by rw [one, marked]; rfl) clean usable
    unowned undedicated (join.trans joined) (claim.trans empty)
  let u : State := { w with
    bus := { w.bus with
      claim := some { terminal := y, cls := o.prog.cls, since := w.claim.since, till := w.claim.till } }
    claim := { w.claim with index := w.claim.index + 1, terminal := some y, crossing := [], phase := .placed } }
  have quiet : u.seq.Quiet := Sequencer.quiet_clearing h.ending rfl SeqState.noConfusion h.search
  have d : State.DrainsTo { s with handed := [.mxJammed x dir] } u 1 :=
    State.DrainsTo.taken h.handed (walks.trans claims) quiet h.handed (State.drainsTo_rest (s := u) h.handed 0)
  refine ⟨u, r, d, rfl, rfl, rfl, slot, free, rfl, both, named, rfl, rfl, rfl, ?_, rfl, h.occ, rfl, rfl, rfl⟩
  rw [show u.claim.marks = w.claim.marks from rfl, marked]
  rfl

end State.ClosesIn

/-! ## The suspect notice of the jam (R80, R146, R165, R175) -/

/-- R175: the cap of a context on another terminal stands. -/
theorem Ctx.capAt_other {c : Ctx} {t : Nat} (h : c.terminal ≠ some t) (on : Bool) : c.capAt (some t) on = c :=
  if_neg (by simp [h])

/-- R103: a mark of another terminal makes none unusable. -/
theorem State.usable_mapMark {s : State} {t y : Nat} (h : y ≠ t) (n a minutes : Nat) (o : Occurrence) :
    State.usable { s with map := mapMark s.map t n a minutes } o y = s.usable o y := by
  unfold State.usable blocked bookedAgainst noRoom askRow ownReaching ownHeld ownBooked
  simp only [rowOf_mapMark_other h, ownIn_mapMark]

theorem isSuspect_mapMark_other {m : List TermRow} {t y : Nat} (h : y ≠ t) (n a minutes k : Nat) :
    isSuspect (mapMark m t n a minutes) y k = isSuspect m y k := by
  unfold isSuspect
  rw [rowOf_mapMark_other h]

theorem ownReaching_mapMark (m : List TermRow) (t y n a minutes : Nat) (since : Int) :
    ownReaching (mapMark m t n a minutes) y since = ownReaching m y since := by
  unfold ownReaching ownHeld ownBooked
  rw [ownIn_mapMark, ownIn_mapMark]

theorem ownDedicated_mapMark {m : List TermRow} {t y : Nat} (h : y ≠ t) (station n a minutes : Nat) :
    ownDedicated (mapMark m t n a minutes) station y = ownDedicated m station y := by
  unfold ownDedicated
  rw [rowOf_mapMark_other h]

/-- R80, R175: with no carrier the suspect notice of a failed close moves the caps of the occurrence alone. -/
theorem State.ClosesIn.suspected {z : State} {o : Occurrence} {x : Nat} (h : z.ClosesIn o x) (off : z.link.op = .none)
    (other : z.seq.nxt.terminal ≠ some x) {bad : List Handed} (only : bad = [] ∨ bad = [.suspect x true]) (m : Handed) :
    ∃ q p n k cap taken, (∀ u j, State.DrainsTo { z with
          psu := q, pres := p
          bus := { z.bus with notice := n, noticeNext := k }
          seq := { z.seq with cur := { z.seq.cur with cap := cap, taken := taken } }
          handed := [m] } u j → State.DrainsTo { z with handed := bad ++ [m] } u (j + 1))
      ∧ p.join = z.pres.join ∧ State.ClosesIn { z with
          psu := q, pres := p
          bus := { z.bus with notice := n, noticeNext := k }
          seq := { z.seq with cur := { z.seq.cur with cap := cap, taken := taken } } } o x := by
  rcases only with rfl | rfl
  · exact ⟨z.psu, z.pres, z.bus.notice, z.bus.noticeNext, z.seq.cur.cap, z.seq.cur.taken,
      fun u j d i hi => d i (by omega), rfl, h⟩
  · have carrier : z.onCarrier = false := by
      unfold State.onCarrier
      rw [off]
      rfl
    obtain ⟨e, ⟨q, ⟨p, n, k, rfl, join⟩, phase⟩, taken⟩ := State.takeSuspect_still h.power carrier x true
    obtain ⟨cap, taken', cur, terminal⟩ := z.seq.cur.capAt_capped (some x) true
    let e : State := { z with
      psu := q, pres := p
      bus := { z.bus with notice := n, noticeNext := k }
      seq := { z.seq with cur := { z.seq.cur with cap := cap, taken := taken' } } }
    have closes : e.ClosesIn o x := ⟨h.handed, h.ending, h.release, h.search, h.found, h.state, h.occ,
      terminal.trans h.terminal,
      phase.trans h.power, h.phase, h.serves, h.index⟩
    have suspected : z.take (.suspect x true) = e := by
      refine taken.trans ?_
      rw [cur, Ctx.capAt_other other]
    exact ⟨q, p, n, k, cap, taken', fun u j d => State.DrainsTo.taken h.handed suspected closes.quiet h.handed d, join, closes⟩

/-! ## A release whose opening has failed (R177) -/

/-- R177: while another terminal is being released beyond its first stage the sequencer does nothing of its own. -/
theorem State.advance_releasing {s : State} {x : Nat} {stage : ReleaseStage} {w : Bool} (ending : s.seq.ending = none)
    (release : s.seq.cur.release = some { terminal := x, stage := stage, waitLink := w }) (beyond : stage ≠ .settle)
    (other : s.seq.cur.terminal ≠ some x) (search : s.seq.nxt.deferred = false) (last : Bool) : s.advance last = s := by
  have made : s.advanceEnding = s := by
    unfold State.advanceEnding
    rw [ending]
  have released : s.advanceRelease last = s := by
    unfold State.advanceRelease
    rw [release]
    split
    · rename_i h
      exact absurd (congrArg Release.stage (Option.some.inj h)) beyond
    · rfl
  have waits : s.advanceAwait last = s := by
    unfold State.advanceAwait
    split
    · rename_i y _ terminal
      have away : x ≠ y := fun e => other (e ▸ terminal)
      have held : s.awaitHeld y last = true := by
        unfold State.awaitHeld
        rw [release]
        simp [away]
      rw [held, Bool.or_true, if_pos rfl]
    · rfl
  unfold State.advance
  rw [made, released, waits]
  unfold State.tryNextSearch
  split
  · rfl
  · exact if_neg (by simp [search])

end Sys2Proof.Machine

/-! PROOF. O39: a drive that exceeds its travel time (R131, R132, R174, R177, R179). -/

namespace Sys2Proof.Machine

/-- R131: a drive whose travel time has come. -/
theorem State.overdueDrive_of {s : State} {d : Drive} {r : Nat} (active : s.mat.active = some d) (running : d.running = some r)
    (late : 8000 ≤ d.travel + (s.now - r)) : s.overdueDrive = some d := by
  unfold State.overdueDrive Drive.travelAt
  rw [active]
  simp [running, travelLimitMs, late]

/-- R131: what a jam leaves in the matrix, the map, ALERT and the FAULT slot. -/
structure State.Jams (s u : State) (d : Drive) : Prop where
  mat   : u.mat = s.mat.jammedBy d s.rfPresent s.now
  alert : u.alert.jammed = true
  fault : u.bus.fault = some { terminal := d.terminal, reason := .crosspoint, minutes := 30 }
  map   : u.map = mapMark s.map d.terminal s.localSecond s.localSecond 30

theorem State.Jams.suspects {s u : State} {d : Drive} (h : s.Jams u d) (there : (rowOf s.map d.terminal).isSome = true) :
    isSuspect u.map d.terminal s.localSecond = true := by
  rw [h.map]
  exact isSuspect_mapMark there

theorem State.Jams.held {s u : State} {d : Drive} (h : s.Jams u d) : ownHeld u.map = ownHeld s.map := by
  rw [h.map]
  exact ownIn_mapMark _ _ _ _ _ _

/-- R131: at a station that has not been armed. -/
theorem jam_unarmed {s : State} {t : Nat} {d : Drive} (rule : ruleOf (.driveTimeout t) (s.atTime t) = (s.atTime t).jam d)
    (permit : s.link.permit = false) (untried : ∀ x ∈ s.mat.rows, x.terminal = d.terminal → x.recovery = false)
    (sound : ∀ x ∈ s.mat.rows, x.drive ≠ .jammed) (free : s.bus.fault = none) (h : s.Unarmed)
    (mark : s.mat.releaseMark = none) :
    ∃ u q, exec (.driveTimeout t) s = .next u ∧ (s.atTime t).Jams u d ∧ u.log.ring.getLast? = some q
      ∧ q.body = .jammed d.terminal 0 d.direction none := by
  obtain ⟨l, p, b, bad, r, jams, only, -, newest, named, slot, -, -⟩ :=
    State.jam_eq (s := s.atTime t) permit untried sound free
  let z : State := { (s.atTime t).jammedWith d l p b with
    handed := s.handed ++ bad ++ if d.purpose = .tidy then [] else [.mxJammed d.terminal d.direction] }
  have news : ∀ k ∈ z.handed, Handed.OfJam k := by
    intro k hk
    simp only [z, h.handed, List.nil_append, List.mem_append] at hk
    rcases hk with hk | hk
    · rcases only with rfl | rfl
      · cases hk
      · exact List.mem_singleton.mp hk ▸ .suspect _
    · split at hk
      · cases hk
      · exact List.mem_singleton.mp hk ▸ .jammed _ _
  obtain ⟨k, q, p', n, m, hs, drained, -, -⟩ := State.aside_drainFrom (s := z) h.seq h.power mark news handoutFuel
  refine ⟨_, r, (exec_eq_run rfl s).trans (congrArg Host.Outcome.next ((congrArg State.drain (rule.trans jams)).trans drained)),
    ⟨rfl, rfl, slot, rfl⟩, newest.getLast? (rs := []), named⟩

/-- R131: the close that the occurrence waits for, or its reversal, has failed; its terminal is still to be given up. -/
def State.jammedClose (s : State) (d : Drive) (l : AirLog) (p : Presence) (b : Bus) (q : Power) (cap : Nat)
    (taken : Option Taken) : State := { s.jammedWith d l p b with
  psu := q
  seq := { s.seq with cur := { s.seq.cur with cap := cap, taken := taken } } }

theorem jam_closing {s : State} {t : Nat} {d : Drive} {o : Occurrence}
    (rule : ruleOf (.driveTimeout t) (s.atTime t) = (s.atTime t).jam d)
    (permit : s.link.permit = false) (untried : ∀ x ∈ s.mat.rows, x.terminal = d.terminal → x.recovery = false)
    (sound : ∀ x ∈ s.mat.rows, x.drive ≠ .jammed) (free : s.bus.fault = none) (told : d.purpose ≠ .tidy)
    (h : s.ClosesIn o d.terminal) (off : s.link.op = .none) (other : s.seq.nxt.terminal ≠ some d.terminal) :
    ∃ l p b q cap taken r, ((s.atTime t).jammedClose d l p b q cap taken).ClosesIn o d.terminal
      ∧ (s.atTime t).Jams ((s.atTime t).jammedClose d l p b q cap taken) d
      ∧ l.NewestAre [r] ∧ r.body = .jammed d.terminal 0 d.direction none ∧ b.free = s.bus.free ∧ b.claim = s.bus.claim
      ∧ p.join = s.pres.join
      ∧ ∀ u n, State.DrainsTo { (s.atTime t).jammedClose d l p b q cap taken with
          handed := [.mxJammed d.terminal d.direction] } u n → n ≤ 99 → exec (.driveTimeout t) s = .next u := by
  obtain ⟨l, p, b, bad, r, jams, only, join, newest, named, slot, free', claim⟩ :=
    State.jam_eq (s := s.atTime t) permit untried sound free
  let z : State := (s.atTime t).jammedWith d l p b
  have closes : z.ClosesIn o d.terminal := ⟨h.handed, h.ending, h.release, h.search, h.found, h.state, h.occ, h.terminal,
    h.power, h.phase, h.serves, h.index⟩
  obtain ⟨q, p', n, k, cap, taken, drains, join', closes'⟩ :=
    closes.suspected off other only (.mxJammed d.terminal d.direction)
  refine ⟨l, p', { b with notice := n, noticeNext := k }, q, cap, taken, r, closes', ⟨rfl, rfl, slot, rfl⟩, newest, named,
    free', claim, join'.trans join, fun u j dr hj => ?_⟩
  refine exec_drains rfl (rule.trans (jams.trans ?_)) (drains u j dr) (by omega)
  rw [if_neg told, show (s.atTime t).handed = [] from h.handed, List.nil_append]

/-- R131, R177: the opening of a release has failed; the release waits in CLEARING. -/
theorem jam_opening {s : State} {t : Nat} {d : Drive} (rule : ruleOf (.driveTimeout t) (s.atTime t) = (s.atTime t).jam d)
    (permit : s.link.permit = false) (untried : ∀ x ∈ s.mat.rows, x.terminal = d.terminal → x.recovery = false)
    (sound : ∀ x ∈ s.mat.rows, x.drive ≠ .jammed) (free : s.bus.fault = none) (told : d.purpose ≠ .tidy)
    (hh : s.handed = []) (ending : s.seq.ending = none) (search : s.seq.nxt.deferred = false)
    (release : s.seq.cur.release = some { terminal := d.terminal, stage := .opening, waitLink := false })
    (again : s.seq.cur.closeAgain = false) (away : s.seq.cur.terminal ≠ some d.terminal)
    (other : s.seq.nxt.terminal ≠ some d.terminal) (request : s.psu.request.map (·.terminal) ≠ some d.terminal)
    (off : s.link.op = .none) :
    ∃ l p b r, exec (.driveTimeout t) s = .next { (s.atTime t).jammedWith d l p b with
        seq := { s.seq with cur := { s.seq.cur with
          release := some { terminal := d.terminal, stage := .clearing, waitLink := false } } } }
      ∧ (s.atTime t).Jams ((s.atTime t).jammedWith d l p b) d
      ∧ l.NewestAre [r] ∧ r.body = .jammed d.terminal 0 d.direction none ∧ b.free = s.bus.free := by
  obtain ⟨l, p, b, bad, r, jams, only, -, newest, named, slot, free', -⟩ :=
    State.jam_eq (s := s.atTime t) permit untried sound free
  let z : State := (s.atTime t).jammedWith d l p b
  let u : State := z.startRelease d.terminal .clearing false
  have jammed : z.take (.mxJammed d.terminal d.direction) = u := by
    have opening : z.releaseAt d.terminal .opening = true := by
      unfold State.releaseAt
      rw [show z.seq.cur.release = _ from release]
      simp
    show z.seqJammed d.terminal = u
    unfold State.seqJammed
    rw [opening]
    refine (if_pos rfl).trans ?_
    unfold State.closeAgain
    split
    · exact if_neg (by simp [State.startRelease, State.setCur, z, State.jammedWith, again])
    · rfl
  have clearing : State.DrainsTo { z with handed := [.mxJammed d.terminal d.direction] } u 1 := by
    refine State.DrainsTo.take rfl (a := u) ?_ ?_
    · rw [show ({ z with handed := [] } : State) = z by rw [← show z.handed = [] from hh], jammed]
      exact State.advance_releasing (s := u) (stage := .clearing) ending rfl (by decide) away search _
    · rw [show u.handed = [] from hh]
      exact State.drainsTo_rest (s := u) hh 0
  have suspects : z.take (.suspect d.terminal true) = z := by
    have power : z.powerSuspect d.terminal true = z := if_neg (by simpa [z, State.jammedWith] using request)
    have link : z.linkSuspect d.terminal true = z := State.linkSuspect_still (by
      unfold State.onCarrier
      rw [show z.link.op = .none from off]
      rfl) _ _
    show State.seqSuspect ((z.powerSuspect d.terminal true).linkSuspect d.terminal true) d.terminal true = z
    rw [power, link]
    unfold State.seqSuspect
    rw [Ctx.capAt_other (c := z.seq.cur) away, Ctx.capAt_other (c := z.seq.nxt) other]
  have dr : State.DrainsTo { z with handed := bad ++ [.mxJammed d.terminal d.direction] } u 2 := by
    rcases only with rfl | rfl
    · exact fun k hk => clearing k (by omega)
    · refine State.DrainsTo.take rfl (a := z) ?_ ?_
      · rw [show ({ z with handed := [] } : State) = z by rw [← show z.handed = [] from hh], suspects]
        exact State.advance_releasing (s := z) ending release (by decide) away search _
      · rw [show z.handed = [] from hh]
        exact clearing
  refine ⟨l, p, b, r, exec_drains rfl (rule.trans (jams.trans ?_)) dr, ⟨rfl, rfl, slot, rfl⟩, newest, named, free'⟩
  rw [if_neg told, show (s.atTime t).handed = [] from hh, List.nil_append]

/-- R132: a RECOVERY drive that fails ends with a record. -/
theorem recovery_fails {s : State} {t : Nat} {d : Drive} (over_due : (s.atTime t).overdueDrive = some d) (hh : s.handed = [])
    (recovery : d.purpose = .recovery) (work : s.mat.openWork = []) (pending : s.mat.pendingClose = none) :
    ∃ l b, exec (.recoveryDriveTimeout t) s = .next { s.atTime t with
        log := l, bus := b
        mat := { s.mat with
          active := none
          rows := s.mat.rows.map fun x => if x.terminal = d.terminal then { x with failed := .openUp } else x } }
      ∧ l = ((s.atTime t).writeLog (.jammed d.terminal 1 .openUp none)).log := by
  let a : State := s.atTime t
  let failed : LogBody := .jammed d.terminal 1 .openUp none
  obtain ⟨l, b, logged⟩ := a.writeLog_logged failed
  let rest : Matrix := { s.mat with
    active := none
    rows := s.mat.rows.map fun x => if x.terminal = d.terminal then { x with failed := .openUp } else x }
  refine ⟨l, b, exec_quiet rfl ?_ hh, by rw [logged]⟩
  have rows : (updateWhere (·.terminal == d.terminal) (fun x => { x with failed := .openUp }) s.mat.rows)
      = s.mat.rows.map fun x => if x.terminal = d.terminal then { x with failed := .openUp } else x := by
    unfold updateWhere
    simp
  have ends : a.endRecovery d = State.nextDrive { a with log := l, bus := b, mat := rest } := by
    unfold State.endRecovery Matrix.setRow
    rw [logged]
    dsimp only
    rw [show a.mat.rows = s.mat.rows from rfl, rows]
    rfl
  have done : State.nextDrive { a with log := l, bus := b, mat := rest } = { a with log := l, bus := b, mat := rest } := by
    unfold State.nextDrive
    split
    · rfl
    · rw [show rest.openWork = [] from work]
      unfold List.length State.nextOpen
      rw [show chooseOpen rest.openWork = none by rw [show rest.openWork = [] from work]; rfl]
      unfold State.testPending
      rw [show rest.pendingClose = none from pending]
  have rule : ruleOf (.recoveryDriveTimeout t) a = a.endRecovery d := by
    show a.timeOutRecovery = _
    unfold State.timeOutRecovery
    rw [over_due]
    exact if_pos (by simp [recovery])
  exact rule.trans (ends.trans done)

/-- Settles O39. -/
theorem overdueDriveFails : Obligations.OverdueDriveFails := by
  intro s t r d active running late jams failed
  have due : (s.atTime t).overdueDrive = some d := State.overdueDrive_of (s := s.atTime t) active running late
  have is_jammed {u : State} (runs : exec (.driveTimeout t) s = .next u) (h : (s.atTime t).Jams u d) : jams u :=
    ⟨runs, congrArg Matrix.active h.mat, congrArg Matrix.rows h.mat, h.alert, h.fault, h.suspects⟩
  refine ⟨fun other permit untried sound free => ?_, fun hh recovery work pending => ?_⟩
  · have rule : ruleOf (.driveTimeout t) (s.atTime t) = (s.atTime t).jam d := by
      show (s.atTime t).timeOutDrive = _
      unfold State.timeOutDrive
      rw [due]
      exact if_neg (by simpa using other)
    refine ⟨fun h mark => ?_, fun o k calm found kind state occ taken same next power level op phase serves index skipped
      pass => ?_, fun hh ending search release kind again away next request op => ?_⟩
    · obtain ⟨u, q, runs, jam, last, named⟩ := jam_unarmed rule permit untried sound free h mark
      exact ⟨u, q, is_jammed runs jam, last, named⟩
    · have terminal : s.seq.cur.terminal = some d.terminal := by
        unfold Ctx.terminal
        rw [taken, ← same]
        rfl
      have told : d.purpose ≠ .tidy := by
        rcases kind with ⟨e, -⟩ | e <;> rw [e] <;> exact Purpose.noConfusion
      obtain ⟨l, p, b, q, cap, taken', a, closes, jam, newest, named, free', claim, join, runs⟩ :=
        jam_closing rule permit untried sound free told ⟨calm.handed, calm.ending, calm.release, calm.search, found, state, occ,
          terminal, power, phase, serves, index⟩ op next
      let e : State := (s.atTime t).jammedClose d l p b q cap taken'
      refine ⟨fun cands marks => ?_, fun y ts ms cands marks away clean usable unowned undedicated joined empty => ?_⟩
      · obtain ⟨u, c, dr, mat, alert, map, slot, free'', engine, seq, given, unrun, missed, off⟩ :=
          closes.ends (rs := [a]) newest (by simp) d.direction skipped cands marks
        have jam' : (s.atTime t).Jams u d := ⟨mat.trans jam.mat, (congrArg Alert.jammed alert).trans jam.alert,
          slot.trans jam.fault, map.trans jam.map⟩
        refine ⟨u, is_jammed (runs u _ dr (by omega)) jam', jam'.held, free''.trans free', engine, ?_, ?_,
          fun off fresh => ⟨a, c, unrun off fresh, named, given⟩, fun g bare ran early hg later => ?_, fun on => ?_⟩
        · rw [seq]
          rfl
        · rw [seq]
        · obtain ⟨n, three, ended⟩ := missed g bare ran early hg later
          exact ⟨a, c, n, three, named, given, ended⟩
        · obtain ⟨n, secs, three, ended⟩ := off on
          exact ⟨a, c, n, secs, three, named, given, ended⟩
      · obtain ⟨u, c, dr, mat, alert, map, slot, free'', nxt, both, given, placed, phase', term, mark, state', occ',
          none, up, rel⟩ :=
          closes.claims (rs := [a]) newest (by simp) d.direction cands marks away
            ((isSuspect_mapMark_other away _ _ _ _).trans clean)
            ((State.usable_mapMark (s := s.atTime t) away _ _ _ o).trans usable)
            ((ownReaching_mapMark _ _ _ _ _ _ _).trans unowned) ((ownDedicated_mapMark away _ _ _ _).trans undedicated)
            (join.trans joined) (claim.trans empty)
        have jam' : (s.atTime t).Jams u d := ⟨mat.trans jam.mat, (congrArg Alert.jammed alert).trans jam.alert,
          slot.trans jam.fault, map.trans jam.map⟩
        exact ⟨u, a, c, is_jammed (runs u _ dr (by omega)) jam', free''.trans free', nxt, both, named, given, placed, phase',
          term, mark, state', occ', none, up, rel⟩
    · obtain ⟨l, p, b, q, runs, jam, newest, named, free'⟩ := jam_opening rule permit untried sound free
        (by rw [kind]; exact Purpose.noConfusion) hh ending search release again away next request op
      have jam' := is_jammed runs ⟨jam.mat, jam.alert, jam.fault, jam.map⟩
      exact ⟨_, q, jam', newest.getLast? (rs := []), named, rfl, jam.held, free', rfl, rfl⟩
  · obtain ⟨l, b, runs, log⟩ := recovery_fails due hh recovery work pending
    refine ⟨_, (s.atTime t).recordOf (.jammed d.terminal 1 .openUp none), runs, rfl, ?_, State.recordOf_body _ _, rfl, rfl⟩
    rw [log]
    exact (s.atTime t).writeLog_newest _

end Sys2Proof.Machine

/-! PROOF. O37: of a TIDY opening it does not ask that the rows of the map be distinct, and with two rows of one terminal
a phantom can take the own HELD booking out of the map. -/

namespace Sys2Proof.Machine

/-- A row of the map with no suspect mark. -/
def plainRow (n occRun : Nat) (slots : List Booking) : TermRow :=
  { number := n, load := false, low := 2300, high := 26100, rating := 500, dedicated := 0, suspect := none,
    occRun := occRun, freeRun := 0, slots := slots }

/-- An open-ended own HELD booking of station 5. -/
def heldByFive : Booking :=
  { owner := 5, state := .held, cls := 0, since := 0, till := none, source := .own, heard := none, found := false }

/-- An own crosspoint as it was last read. -/
def readRow (n : Nat) (p : Position) (d : DriveState) : XRow :=
  { terminal := n, pos := some p, sense := some .free, drive := d, recovery := false, failed := .close }

/-- The TIDY opening of terminal 3, which a first row of the map gives an occupied run of 2 and a second one the own HELD
booking. Terminal 5 is held too, was read CLOSED, and the occurrence tunes on it. -/
def tidiesTwoRows : State :=
  { State.reset with
    image := some .accepted,
    cfg := { Settings.reset with station := 5 },
    pres := { Presence.reset with join := .joined },
    rfPresent := true,
    map := [plainRow 3 2 [], plainRow 3 0 [heldByFive], plainRow 5 0 [heldByFive]],
    mat := { Matrix.reset with
      scanFrom := some 0,
      rows := [readRow 3 .between .opening, readRow 5 .closed .idle],
      active := some
        { terminal := 3, direction := .openUp, purpose := .tidy, travel := 0, running := none, stop := none,
          openWaits := false } },
    seq := { Sequencer.reset with
      armed := true,
      cur := { Ctx.reset with
        state := .tuning,
        occ := some
          { source := .extra 0, number := 0, start := 0, stop := 0,
            prog :=
              { start := 0, stop := 0, freq := 6000, mode := .am, carrier := 250, cls := 1, programme := 4, cands := [5] } },
        taken := some { terminal := 5, how := .claimed, suspect := false } } } }

/-- Both crosspoints read OPEN, and the column of terminal 3 is occupied. -/
def opensBoth : Contacts := { openMade := 40, closedMade := 0, senseMade := 8 }

theorem tidiesTwoRows_reads :
    ∀ x ∈ tidiesTwoRows.mat.rows, opensBoth.openMade.getLsbD x.terminal = true
      ∧ opensBoth.closedMade.getLsbD x.terminal = false := by decide

theorem tidiesTwoRows_drives :
    ∀ x ∈ tidiesTwoRows.mat.rows, x.drive = if x.terminal = 3 then DriveState.opening else .idle := by decide

theorem tidiesTwoRows_held : (ownHeld tidiesTwoRows.map).map (·.1) = some 3 := by decide

/-- With the phantom of terminal 3 the HELD booking of terminal 5 is the first in the map, its crosspoint has moved, and
the occurrence asks to have it closed again (R133, R174). -/
theorem tidiesTwoRows_moves :
    (tidiesTwoRows.run 100 fun s => if s.scansTaken then s.takeScan opensBoth else s).seq.cur.state = .switching := by
  decide +kernel

/-- Refutes O37: of the scan that ends a TIDY opening it says that the sequencer stands. It asks for no distinct rows of
the map, so that a phantom can replace a second row with the own HELD booking in it (R78, R90). -/
theorem not_scanIsRead : ¬ Obligations.ScanIsRead := by
  intro h
  obtain ⟨due, -⟩ := h tidiesTwoRows 100 opensBoth rfl (by decide)
  obtain ⟨-, works, -⟩ := due 0 rfl (by decide) rfl (by decide)
  obtain ⟨-, ends⟩ := works rfl rfl rfl (by decide)
  obtain ⟨tidy, -, -⟩ := ends _ rfl rfl rfl (by decide) rfl rfl rfl (by decide) tidiesTwoRows_drives
  have opens : ∀ x ∈ tidiesTwoRows.mat.rows,
      (if opensBoth.openMade.getLsbD x.terminal = opensBoth.closedMade.getLsbD x.terminal then Position.between
        else if opensBoth.openMade.getLsbD x.terminal then .opened else .closed)
      = if (ownHeld tidiesTwoRows.map).map (·.1) = some x.terminal ∧ x.terminal ≠ 3 then .closed else .opened := by
    intro x hx
    obtain ⟨made, apart⟩ := tidiesTwoRows_reads x hx
    rw [made, apart, tidiesTwoRows_held]
    by_cases e : x.terminal = 3
    · simp [e]
    · simp [Ne.symm e]
  obtain ⟨u, ran, -, seq, -⟩ := tidy rfl rfl rfl opens
  have run : (tidiesTwoRows.run 100 fun s => if s.scansTaken then s.takeScan opensBoth else s) = u := Host.Outcome.next.inj ran
  have moves := tidiesTwoRows_moves
  rw [run, seq] at moves
  cases moves

end Sys2Proof.Machine

/-! PROOF. O6: a rejected image (R192, R62). -/

namespace Sys2Proof.Machine

theorem State.discardDisabled_shape (s : State) : ∃ r, s.discardDisabled = { s with req := r } := by
  unfold State.discardDisabled
  split
  · exact ⟨_, rfl⟩
  · exact ⟨s.req, rfl⟩

/-- R66 step 2, DISABLED: the claim engine, the sequencer, the link and the request queue alone are changed, and the
sequencer has nothing left to do. -/
theorem State.takeJoin_disabled (s : State) :
    ∃ c q l r, s.takeJoin .disabled = { s with claim := c, seq := q, link := l, req := r } ∧ q.Rests := by
  let emptied : State := { s with
    claim := Claim.reset,
    seq := { s.seq with cur := Ctx.reset, nxt := Ctx.reset, ending := none },
    link := { s.link with lossDeadline := none, out := [] } }
  obtain ⟨r, shape⟩ := emptied.discardDisabled_shape
  exact ⟨_, _, _, r, shape, rfl, rfl, nofun, rfl⟩

/-- R66 steps 3 to 5, DISABLED: the record and the ALERT causes. -/
theorem State.joinTail_disabled {s : State} {old : JoinState} {cause : JoinCause} (join : s.pres.join = .disabled) :
    s.joinTail old .disabled cause = { s.writeLog (.join .disabled old cause) with
      alert := s.alert.onJoin .disabled } := by
  have alert : (s.writeLog (.join .disabled old cause)).alert = s.alert := s.writeLog_alert _
  have pres : (s.writeLog (.join .disabled old cause)).pres.join = .disabled := by rw [State.writeLog_pres, join]
  unfold State.joinTail State.noticeChange
  dsimp only
  rw [pres, alert]
  rfl

/-- A change to DISABLED that nothing else is handed out with. -/
theorem State.drainsTo_disabled {s : State} {cause : JoinCause} (hh : s.handed = []) :
    ∃ u, State.DrainsTo (s.changeJoin .disabled cause) u 2 ∧ u.image = s.image ∧ u.cfg = s.cfg ∧ u.store = s.store
      ∧ u.serial = s.serial ∧ u.map = s.map ∧ u.mat = s.mat ∧ u.pres.join = .disabled ∧ u.alert.disabled = true
      ∧ u.log = (s.writeLog (.join .disabled s.pres.join cause)).log := by
  obtain ⟨c, q, l, r, taken, rests⟩ := (s.entered .disabled).takeJoin_disabled
  let b : State := { s.entered .disabled with claim := c, seq := q, link := l, req := r }
  have join : b.pres.join = .disabled := rfl
  have tail := b.joinTail_disabled (old := s.pres.join) (cause := cause) join
  refine ⟨b.joinTail s.pres.join .disabled cause, ?_, ?_⟩
  · rw [State.changeJoin_eq, hh]
    have tailed : State.DrainsTo { b with handed := b.handed ++ [.joinTail s.pres.join .disabled cause] }
        (b.joinTail s.pres.join .disabled cause) 1 := by
      rw [show b.handed = [] from hh]
      exact drainsTo_joinTail (a := b) hh rests
    exact State.DrainsTo.takeRests (a := b) rfl (hh ▸ taken) rests tailed
  · rw [tail]
    refine ⟨b.writeLog_image _, b.writeLog_cfg _, b.writeLog_store _, b.writeLog_serial _, b.writeLog_map _, b.writeLog_mat _,
      ?_, ?_, ?_⟩
    · show (b.writeLog _).pres.join = _
      rw [State.writeLog_pres, join]
    · simp [Alert.onJoin]
    · exact State.writeLog_log_congr (s := b) (t := s) rfl rfl rfl rfl _

/-- R184, R192: START as the first record of a ring with room left, and one more record. -/
theorem State.writeStart_writeLog_ring {s : State} {body : LogBody} {b : LogBody} (room : s.log.ring.length ≤ 62) :
    ((s.writeStart body).writeLog b).log.ring
      = { seq := s.log.nextSeq - BitVec.ofNat 16 s.log.ring.length,
          stamp := if s.log.ring.isEmpty then s.localSecond else 0, unset := true, body := body }
        :: (s.log.ring.map fun r => { r with seq := r.seq + 1 }) ++ [(s.writeStart body).recordOf b] := by
  have none : s.log.ring.length + 1 - ringCapacity = 0 := by simp only [ringCapacity]; omega
  have less : s.log.ring.length + 1 + 1 - ringCapacity = 0 := by simp only [ringCapacity]; omega
  rw [State.writeLog_ring]
  simp [State.writeStart, AirLog.writeFirst, none, less]

/-- Settles O6: START before the records written since the reset, and the change to DISABLED after them. -/
theorem rejectedImageDisablesTheStation : Obligations.RejectedImageDisablesTheStation := by
  intro s t image scan unarmed none join room fails
  let written : State := State.writeStart { s.atTime t with image := some (imageResult image) }
    (.start (imageResult image) 0 0 0)
  have rule : ruleOf (.handOver t image scan) (s.atTime t) = written.changeJoin .disabled .config := by
    show State.handOver (s.atTime t) image scan = _
    unfold State.handOver
    rw [if_neg (by simp [State.atTime, none])]
    split
    · contradiction
    · rfl
  obtain ⟨u, drains, himage, hcfg, hstore, hserial, hmap, hmat, hjoin, halert, hlog⟩ :=
    written.drainsTo_disabled (cause := .config) unarmed.handed
  let first : LogRecord :=
    { seq := s.log.nextSeq - BitVec.ofNat 16 s.log.ring.length,
      stamp := if s.log.ring.isEmpty then (s.atTime t).localSecond else 0, unset := true,
      body := .start (imageResult image) 0 0 0 }
  have ring : u.log.ring = first :: (s.log.ring.map fun r => { r with seq := r.seq + 1 })
      ++ [written.recordOf (.join .disabled .listening .config)] := by
    rw [hlog, ← join]
    exact State.writeStart_writeLog_ring (s := { s.atTime t with image := some (imageResult image) }) room
  exact ⟨u, first, _, exec_of_drainsTo rfl (rule ▸ drains), himage, hjoin, halert, rfl, State.recordOf_body _ _, rfl, ring,
    hstore, hmap, hcfg, hmat, hserial⟩

end Sys2Proof.Machine

/-! SUPPORT. O7: the reach of an accepted image (R191). -/

namespace Sys2Proof.Machine

/-! ## Records whose terminal an earlier one names are dropped -/

/-- The terminals of the records kept are those named, each once, in the order of their first record. -/
theorem dropRepeats_numbers (kept l : List TermRow) :
    (dropRepeats kept l).1.map (·.number) = kept.map (·.number)
      ++ ((l.map (·.number)).filter fun n => ! kept.any (·.number == n)).eraseDups := by
  induction l generalizing kept with
  | nil => simp [dropRepeats]
  | cons r l ih =>
    by_cases known : kept.any (·.number == r.number) = true
    · rw [dropRepeats, if_pos known]
      simpa [known] using ih kept
    · have fresh : kept.any (·.number == r.number) = false := by simpa using known
      rw [dropRepeats, if_neg known, ih]
      simp only [List.map_cons, List.filter_cons, fresh, Bool.not_false, if_true, List.eraseDups_cons, List.filter_filter,
        List.map_append, List.append_assoc, List.map_nil, List.singleton_append]
      congr 3
      refine List.filter_congr fun n _ => ?_
      simp only [List.any_append, List.any_cons, List.any_nil, Bool.or_false, Bool.not_or, BEq.comm (a := r.number)]
      exact Bool.and_comm _ _

/-- Each record is kept or counted. -/
theorem dropRepeats_count (kept l : List TermRow) :
    (dropRepeats kept l).1.length + (dropRepeats kept l).2 = kept.length + l.length := by
  induction l generalizing kept with
  | nil => rfl
  | cons r l ih =>
    rw [dropRepeats]
    split
    · have := ih kept
      simp only [List.length_cons]
      omega
    · have := ih (kept ++ [r])
      simp only [List.length_append, List.length_cons, List.length_nil] at this ⊢
      omega

/-- A record kept is the first of its terminal. -/
theorem dropRepeats_first {kept l : List TermRow} {q : TermRow} (h : q ∈ (dropRepeats kept l).1) :
    q ∈ kept ∨ kept.any (·.number == q.number) = false ∧ l.find? (·.number == q.number) = some q := by
  induction l generalizing kept with
  | nil => exact .inl h
  | cons r l ih =>
    rw [dropRepeats] at h
    split at h
    · next known =>
      refine (ih h).imp_right fun ⟨fresh, first⟩ => ⟨fresh, ?_⟩
      have other : (r.number == q.number) = false := by
        refine Bool.eq_false_iff.mpr fun e => ?_
        rw [beq_iff_eq.mp e] at known
        exact Bool.noConfusion (fresh.symm.trans known)
      rw [List.find?_cons, other]
      exact first
    · next unknown =>
      rcases ih h with before | ⟨fresh, first⟩
      · rcases List.mem_append.mp before with old | new
        · exact .inl old
        · obtain rfl := List.mem_singleton.mp new
          exact .inr ⟨by simpa using unknown, by simp⟩
      · rw [List.any_append] at fresh
        obtain ⟨fresh, other⟩ := Bool.or_eq_false_iff.mp fresh
        refine .inr ⟨fresh, ?_⟩
        have other : (r.number == q.number) = false := by simpa using other
        rw [List.find?_cons, other]
        exact first

theorem dropRepeats_rows {kept : List TermRow} (l : List TermRow) (distinct : RowsDistinct kept) :
    RowsDistinct (dropRepeats kept l).1 := by
  induction l generalizing kept with
  | nil => exact distinct
  | cons r l ih =>
    rw [dropRepeats]
    split
    · exact ih distinct
    · next unknown =>
      refine ih ?_
      unfold RowsDistinct
      rw [List.map_append]
      refine List.Nodup.append distinct (List.nodup_singleton _) ?_
      simpa [List.disjoint_singleton] using unknown

/-! ## The reach settled -/

/-- R191: the records of the image that are used. -/
def usedRecords (r : RawImage) : List RawReach := r.reach.take (max 1 (min 40 r.reachCount.toNat))

theorem settleImage_reach (r : RawImage) :
    (settleImage r).reach = (dropRepeats [] ((usedRecords r).map fun q => (settleReach q).row)).1 := by
  simp [settleImage, usedRecords, clampTo, Function.comp_def]

theorem settleImage_numbers (r : RawImage) :
    (settleImage r).reach.map (·.number) = ((usedRecords r).map fun q => (settleReach q).row.number).eraseDups := by
  rw [settleImage_reach, dropRepeats_numbers]
  simp [Function.comp_def]

theorem settleImage_first {r : RawImage} {q : TermRow} (h : q ∈ (settleImage r).reach) :
    ∃ p, (usedRecords r).find? (fun p => (settleReach p).row.number == q.number) = some p ∧ (settleReach p).row = q := by
  rw [settleImage_reach] at h
  rcases dropRepeats_first h with absurdly | ⟨-, first⟩
  · cases absurdly
  · rw [List.find?_map] at first
    obtain ⟨p, found, rfl⟩ := Option.map_eq_some_iff.mp first
    exact ⟨p, found, rfl⟩

/-- R191: each terminal has one row. -/
theorem settleImage_rows (r : RawImage) : RowsDistinct (settleImage r).reach := by
  rw [settleImage_reach]
  exact dropRepeats_rows _ List.nodup_nil

end Sys2Proof.Machine

/-! SUPPORT. O7: the banks read back (R16). -/

namespace Sys2Proof.Machine

/-! ## Records added to the air log -/

/-- R184: the records `bs` are added to an air log with room for them. -/
def AirLog.Adds (l k : AirLog) (bs : List LogBody) : Prop :=
  l.ring.length + bs.length ≤ 64 → k.ring.map (·.body) = l.ring.map (·.body) ++ bs

theorem AirLog.Adds.refl (l : AirLog) : l.Adds l [] := fun _ => (List.append_nil _).symm

theorem AirLog.Adds.trans {l k m : AirLog} {bs cs : List LogBody} (h : l.Adds k bs) (g : k.Adds m cs) :
    l.Adds m (bs ++ cs) := by
  intro room
  rw [List.length_append] at room
  have first := h (by omega)
  have longer : k.ring.length = l.ring.length + bs.length := by
    simpa using congrArg List.length first
  rw [g (by omega), first, List.append_assoc]

theorem State.writeLog_adds (s : State) (b : LogBody) : s.log.Adds (s.writeLog b).log [b] := by
  intro room
  have none : s.log.ring.length + 1 - ringCapacity = 0 := by simp [ringCapacity] at room ⊢; omega
  rw [State.writeLog_ring]
  simp [none]

/-! ## One bank (R16) -/

/-- R16: the header that is issued for a bank as it is settled. -/
def headerWrite (bank : Bank) (d : BankData) : PendingWrite := { what := .header bank (d.header bank), reply := none }

/-- R16: the BANKLOST record of a lost bank. -/
def lostRecord (bank : Bank) (l : Nat × Option Nat) : LogBody := .bankLost bank l.1 l.2

/-- R16: a bank is settled as it is read back; a lost one with its record, and its header issued for writing. -/
theorem State.settleBank_shape (s : State) (bank : Bank) :
    let r := readBack s.cfg s.map bank (s.serial.bank bank)
    ∃ l b, s.settleBank bank = { s with
        store := s.store.setBank bank r.1, log := l, bus := b,
        serial := { s.serial with writes := s.serial.writes ++ if r.2.isSome then [headerWrite bank r.1] else [] } }
      ∧ s.log.Adds l (r.2.map (lostRecord bank)).toList := by
  dsimp only
  unfold State.settleBank
  rcases readBack s.cfg s.map bank (s.serial.bank bank) with ⟨d, _ | ⟨cause, entry⟩⟩
  · exact ⟨s.log, s.bus, by simp, AirLog.Adds.refl _⟩
  · let settled : State := { s with store := s.store.setBank bank d }
    obtain ⟨l, b, shape⟩ := settled.writeLog_logged (.bankLost bank cause entry)
    have adds := settled.writeLog_adds (.bankLost bank cause entry)
    rw [shape] at adds
    refine ⟨l, b, ?_, adds⟩
    show State.writeHeader (settled.writeLog _) bank _ = _
    rw [shape]
    simp only [settled, State.writeHeader, State.issueWrite, headerWrite, Store.bank_setBank, Option.isSome_some, if_true]

/-! ## Both banks -/

/-- R16: what is found of a bank, in the configuration and reach in force, and what is lost of it. -/
def State.foundBank (s : State) (bank : Bank) : BankData := (readBack s.cfg s.map bank (s.serial.bank bank)).1
def State.bankLoss (s : State) (bank : Bank) : Option (Nat × Option Nat) :=
  (readBack s.cfg s.map bank (s.serial.bank bank)).2

/-- R16: whether both banks are found LIVE. -/
def State.bothLive (s : State) : Bool :=
  decide ((s.foundBank .a).state = .live) && decide ((s.foundBank .b).state = .live)

/-- R16: bank B as it is settled. -/
def State.settledB (s : State) : BankData :=
  { s.foundBank .b with state := if s.bothLive then .spent else (s.foundBank .b).state }

/-- R16: the banks as they are settled. -/
def State.settledBank (s : State) : Bank → BankData
  | .a => s.foundBank .a
  | .b => s.settledB

/-- R16: a LIVE bank is not lost. -/
theorem readBack_live {cfg : Settings} {m : List TermRow} {bank : Bank} {d : StoredBank}
    (h : (readBack cfg m bank d).1.state = .live) : (readBack cfg m bank d).2 = none := by
  unfold readBack at h ⊢
  split at h
  · split at h
    · cases h
    · split at h
      · cases h
      · cases h
      · split at h
        · cases h
        · simp_all
  · cases h

theorem State.settleBothLive_shape (s : State) :
    let both := s.store.bankA.state == .live && s.store.bankB.state == .live
    let b := { s.store.bankB with state := if both then .spent else s.store.bankB.state }
    s.settleBothLive = { s with
      store := { s.store with bankB := b },
      serial := { s.serial with writes := s.serial.writes ++ if both then [headerWrite .b b] else [] } } := by
  intro both b
  unfold State.settleBothLive
  split
  · next live => simp [b, both, live, State.writeHeader, State.issueWrite, headerWrite, Store.bank]
  · next dead => simp [b, both, dead]

theorem filterMap_banks {α : Type} (f : Bank → Option α) :
    [Bank.a, Bank.b].filterMap f = (f .a).toList ++ (f .b).toList := by
  simp only [List.filterMap_cons, List.filterMap_nil]
  cases f .a <;> cases f .b <;> rfl

/-- R16: a lost bank B is settled as it is found. -/
theorem State.settledB_lost {s : State} (h : (s.bankLoss .b).isSome = true) :
    s.bothLive = false ∧ s.settledB = s.foundBank .b := by
  have dead : s.bothLive = false := by
    refine Bool.eq_false_iff.mpr fun live => ?_
    obtain ⟨-, liveB⟩ := Bool.and_eq_true_iff.mp live
    have kept : s.bankLoss .b = none := readBack_live (of_decide_eq_true liveB)
    rw [kept] at h
    cases h
  exact ⟨dead, by simp [State.settledB, dead]⟩

/-- R16: the headers that are issued, each bank's last. -/
theorem State.headerWrites_banks (s : State) :
    (s.serial.writes ++ if (s.bankLoss .a).isSome then [headerWrite .a (s.foundBank .a)] else [])
        ++ (if (s.bankLoss .b).isSome then [headerWrite .b (s.foundBank .b)] else [])
        ++ (if s.bothLive then [headerWrite .b s.settledB] else [])
      = s.serial.writes
          ++ ([Bank.a, Bank.b].filter fun bk => (s.bankLoss bk).isSome || (s.bothLive && bk == .b)).map fun bk =>
            headerWrite bk (s.settledBank bk) := by
  by_cases lostB : (s.bankLoss .b).isSome = true
  · obtain ⟨dead, same⟩ := s.settledB_lost lostB
    by_cases lostA : (s.bankLoss .a).isSome = true <;> simp [lostA, lostB, dead, same, State.settledBank]
  · have keptB : (s.bankLoss .b).isSome = false := by simpa using lostB
    by_cases lostA : (s.bankLoss .a).isSome = true <;> cases s.bothLive <;>
      simp [lostA, keptB, State.settledBank]

/-- R16, R192 step 3: both banks are settled as they are found, of two LIVE ones B as SPENT. -/
theorem State.readBanks_shape (s : State) :
    ∃ l b, s.readBanks = { s with
        store := { s.store with bankA := s.foundBank .a, bankB := s.settledB }, log := l, bus := b,
        serial := { s.serial with
          writes := s.serial.writes
            ++ ([Bank.a, Bank.b].filter fun bk => (s.bankLoss bk).isSome || (s.bothLive && bk == .b)).map fun bk =>
              headerWrite bk (s.settledBank bk) } }
      ∧ s.log.Adds l ([Bank.a, Bank.b].filterMap fun bk => (s.bankLoss bk).map (lostRecord bk)) := by
  obtain ⟨l, b, settledA, addsA⟩ := s.settleBank_shape .a
  let a : State := { s with
    store := s.store.setBank .a (s.foundBank .a), log := l, bus := b,
    serial := { s.serial with
      writes := s.serial.writes ++ if (s.bankLoss .a).isSome then [headerWrite .a (s.foundBank .a)] else [] } }
  obtain ⟨k, c, settledB, addsB⟩ := a.settleBank_shape .b
  have banks : (s.settleBank .a).settleBank .b = _ := (congrArg (State.settleBank · .b) settledA).trans settledB
  refine ⟨k, c, ?_, ?_⟩
  · unfold State.readBanks
    rw [banks, State.settleBothLive_shape]
    rw [← s.headerWrites_banks]
    rfl
  · have all := addsA.trans addsB
    have records : ((s.bankLoss .a).map (lostRecord .a)).toList ++ ((s.bankLoss .b).map (lostRecord .b)).toList
        = [Bank.a, Bank.b].filterMap fun bk => (s.bankLoss bk).map (lostRecord bk) := by
      rw [filterMap_banks]
    exact records ▸ all

end Sys2Proof.Machine

/-! SUPPORT. O7: the crosspoints found CLOSED (R134), and the reading of the reach. -/

namespace Sys2Proof.Machine

/-! ## The terminals found CLOSED -/

theorem mem_of_lowestOf {l : List Nat} {t : Nat} (h : lowestOf l = some t) : t ∈ l ∧ ∀ n ∈ l, t ≤ n := by
  induction l generalizing t with
  | nil => cases h
  | cons x l ih =>
    rw [lowestOf] at h
    rcases e : lowestOf l with _ | u
    · rw [e] at h
      obtain rfl := Option.some.inj h
      have : l = [] := by
        cases l with
        | nil => rfl
        | cons y l =>
          rw [lowestOf] at e
          split at e <;> cases e
      simp [this]
    · rw [e] at h
      obtain rfl := Option.some.inj h
      obtain ⟨mem, low⟩ := ih e
      refine ⟨?_, fun n hn => ?_⟩
      · rcases Nat.le_total x u with le | le
        · simp [Nat.min_eq_left le]
        · simp [Nat.min_eq_right le, mem]
      · rcases List.mem_cons.mp hn with rfl | hn
        · exact Nat.min_le_left _ _
        · exact (Nat.min_le_right _ _).trans (low n hn)

theorem lowestOf_eq_none {l : List Nat} (h : lowestOf l = none) : l = [] := by
  cases l with
  | nil => rfl
  | cons x l =>
    rw [lowestOf] at h
    split at h <;> cases h

/-- R134: the lowest terminal of a list is the one that no other is below. -/
theorem lowestOf_eq_some_iff {l : List Nat} {t : Nat} : lowestOf l = some t ↔ t ∈ l ∧ ∀ n ∈ l, t ≤ n := by
  refine ⟨mem_of_lowestOf, fun ⟨mem, low⟩ => ?_⟩
  rcases e : lowestOf l with _ | u
  · rw [lowestOf_eq_none e] at mem
    cases mem
  · obtain ⟨memU, lowU⟩ := mem_of_lowestOf e
    rw [Nat.le_antisymm (low u memU) (lowU t mem)]

/-- R122, R134: the terminals of the reach that the scan reads CLOSED. -/
def foundIn (reach : List Nat) (scan : Contacts) : List Nat := reach.filter fun n => readPosition scan n == .closed

theorem closedTerminals_fresh (reach : List Nat) (scan : Contacts) :
    closedTerminals (reach.map fun t => (XRow.fresh t).read scan) = foundIn reach scan := by
  simp [closedTerminals, foundIn, List.filter_map, Function.comp_def, XRow.read, XRow.fresh]

/-! ## The own HELD booking found -/

/-- R134: the rows with a booking added to one terminal. -/
def addedRows (m : List TermRow) (t : Option Nat) (b : Booking) : List TermRow :=
  m.map fun r => { r with slots := r.slots ++ if t = some r.number then [b] else [] }

theorem addedRows_none (m : List TermRow) (b : Booking) : addedRows m none b = m := by
  simp [addedRows]

/-- R93: a row that the image has settled holds at most the DEDICATED booking it names. -/
def TermRow.Bare (r : TermRow) : Prop := r.slots = [] ∨ ∃ d, r.slots = [dedicatedBooking d]

theorem settleReach_bare (q : RawReach) : (settleReach q).row.Bare := by
  unfold settleReach TermRow.Bare
  dsimp only
  split
  · exact .inl rfl
  · exact .inr ⟨_, rfl⟩

/-- R78: a booking of class 3 takes its place behind the DEDICATED one. -/
theorem TermRow.Bare.enter {r : TermRow} (h : r.Bare) {b : Booking} (held : b.state = .held) (cls : b.cls = 3)
    (owner : b.owner ≠ 0) (since : 0 ≤ b.since) : r.enter b = some { r with slots := r.slots ++ [b] } := by
  unfold TermRow.enter
  rcases h with e | ⟨d, e⟩ <;> rw [e]
  · rfl
  · have behind : b.before (dedicatedBooking d) = false := by
      simp [Booking.before, Booking.rank, Rank.beats, dedicatedBooking, held, cls, owner, Int.not_lt.mpr since]
    simp [slotCapacity, insertBooking, behind]

theorem ownIn_bare {m : List TermRow} (bare : ∀ r ∈ m, r.Bare) (st : BookState) : ownIn m st = none := by
  refine ownIn_eq_none.mpr fun r hr b hb => ?_
  rcases bare r hr with e | ⟨d, e⟩ <;> rw [e] at hb
  · cases hb
  · obtain rfl := List.mem_singleton.mp hb
    rfl

/-- R77: rows replaced, with the notices of it. -/
theorem State.withMap_shape (s : State) (m : List TermRow) :
    ∃ p b hs, s.withMap m = { s with map := m, pres := p, bus := b, handed := s.handed ++ hs }
      ∧ p.join = s.pres.join ∧ hs.length ≤ 1 ∧ ∀ k ∈ hs, k = .heldChanged := by
  let hs : List Handed := if (ownHeld s.map).map (·.1) != (ownHeld m).map (·.1) then [.heldChanged] else []
  have news : ∀ k ∈ hs, k = .heldChanged := by
    intro k hk
    dsimp only [hs] at hk
    split at hk
    · exact List.mem_singleton.mp hk
    · cases hk
  have few : hs.length ≤ 1 := by
    dsimp only [hs]
    split <;> decide
  let told : State := { s with map := m, handed := s.handed ++ hs }
  obtain ⟨p, n, q, shape, join⟩ := told.noticeChange_noticed
  by_cases changed : (ownHeld s.map != ownHeld m || ownBooked s.map != ownBooked m) = true
  · exact ⟨p, _, hs, (if_pos changed).trans shape, join, few, news⟩
  · exact ⟨s.pres, s.bus, hs, if_neg changed, rfl, few, news⟩

theorem RowsDistinct.rowOf_of_mem {m : List TermRow} {r : TermRow} (d : RowsDistinct m) (h : r ∈ m) :
    rowOf m r.number = some r := by
  rcases e : rowOf m r.number with _ | x
  · exact absurd (List.find?_eq_none.mp e r h) (by simp)
  · rw [d.eq_of_number e h rfl]

/-- R77, R134: the lowest terminal found CLOSED is held, with the notices of it. -/
theorem State.foundClosed_shape {s : State} {t : Nat} (bare : ∀ r ∈ s.map, r.Bare) (rows : RowsDistinct s.map)
    (there : t ∈ s.map.map (·.number)) (station : s.cfg.station ≠ 0) :
    ∃ p b hs, s.foundClosed t = { s with
        map := addedRows s.map (some t) (ownBooking s.cfg.station .held 3 s.localSecond none true)
        pres := p
        bus := b
        handed := s.handed ++ hs }
      ∧ p.join = s.pres.join ∧ hs.length ≤ 2 ∧ ∀ k ∈ hs, k = .heldChanged ∨ k = .entered t := by
  obtain ⟨r, hr, rfl⟩ := List.mem_map.mp there
  have row := rows.rowOf_of_mem hr
  have entered := (bare r hr).enter (b := ownBooking s.cfg.station .held 3 s.localSecond none true) rfl rfl station
    (Int.natCast_nonneg _)
  have added : setRow s.map { r with slots := r.slots ++ [ownBooking s.cfg.station .held 3 s.localSecond none true] }
      = addedRows s.map (some r.number) (ownBooking s.cfg.station .held 3 s.localSecond none true) := by
    refine List.map_congr_left fun x hx => ?_
    by_cases e : x.number = r.number
    · obtain rfl := rows.eq_of_number row hx e
      simp
    · simp [e, Ne.symm e]
  obtain ⟨p, b, hs, shape, join, few, news⟩ := s.withMap_shape
    (addedRows s.map (some r.number) (ownBooking s.cfg.station .held 3 s.localSecond none true))
  refine ⟨p, b, hs ++ [.entered r.number], ?_, join, ?_, fun k hk => ?_⟩
  · unfold State.foundClosed State.enterBooking mapEnter
    rw [ownHeld, ownIn_bare bare, row, Option.bind_some, entered, Option.map_some, added]
    dsimp only [Option.isSome_none]
    rw [if_neg Bool.false_ne_true, shape, State.emit, List.append_assoc]
  · rw [List.length_append]
    exact Nat.add_le_add_right few 1
  · exact (List.mem_append.mp hk).imp (news k) List.mem_singleton.mp

/-- R134: the matrix interface as the start-up scan leaves it. -/
def foundMatrix (reach : List Nat) (scan : Contacts) (now : Nat) : Matrix :=
  let several := decide (1 < (foundIn reach scan).length)
  { Matrix.reset with
    rows := reach.map fun t => (XRow.fresh t).read scan
    scanFrom := some now
    releaseMark := if several then lowestOf (foundIn reach scan) else none
    openWork := if several then (lowestOf (foundIn reach scan)).toList.map fun t => { terminal := t, purpose := .release }
      else [] }

/-- R134: what the start-up scan changes, and the notices of it. -/
theorem State.settleFound_shape {s : State} {reach : List Nat} (scan : Contacts) (bare : ∀ r ∈ s.map, r.Bare)
    (rows : RowsDistinct s.map) (numbers : s.map.map (·.number) = reach) (station : s.cfg.station ≠ 0) :
    ∃ p b hs, s.settleFound reach scan = { s with
        map := addedRows s.map (lowestOf (foundIn reach scan)) (ownBooking s.cfg.station .held 3 s.localSecond none true)
        mat := foundMatrix reach scan s.now
        pres := p
        bus := b
        handed := s.handed ++ hs }
      ∧ p.join = s.pres.join ∧ hs.length ≤ 2 ∧ ∀ k ∈ hs, k = .heldChanged ∨ ∃ t, k = .entered t := by
  unfold State.settleFound foundMatrix
  dsimp only
  rw [closedTerminals_fresh]
  rcases e : lowestOf (foundIn reach scan) with _ | t
  · refine ⟨s.pres, s.bus, [], ?_, rfl, by decide, nofun⟩
    simp [addedRows_none, Matrix.reset]
  · obtain ⟨mem, -⟩ := mem_of_lowestOf e
    let read : State := { s with mat := { Matrix.reset with
      rows := reach.map fun t => (XRow.fresh t).read scan, scanFrom := some s.now } }
    obtain ⟨p, b, hs, shape, join, few, news⟩ := State.foundClosed_shape (s := read) bare rows
      (numbers ▸ (List.mem_filter.mp mem).1) station
    refine ⟨p, b, hs, ?_, join, few, fun k hk => (news k hk).imp_right fun h => ⟨t, h⟩⟩
    dsimp only
    rw [shape]
    by_cases several : 1 < (foundIn reach scan).length
    · simp [several, read, State.localSecond]
    · simp [several, read, State.localSecond, Matrix.reset]

end Sys2Proof.Machine

/-! SUPPORT. O7: the hand-over of an accepted image (R192), as it is taken. -/

namespace Sys2Proof.Machine

/-! ## START (R192 step 2) -/

theorem State.writeStart_adds (s : State) (body : LogBody) (room : s.log.ring.length < 64) :
    (s.writeStart body).log.ring.map (·.body) = body :: s.log.ring.map (·.body) := by
  have none : s.log.ring.length + 1 - ringCapacity = 0 := by simp only [ringCapacity]; omega
  simp [State.writeStart, AirLog.writeFirst, none, Function.comp_def]

/-- R184: a record is none of the hand-outs' concern. -/
theorem State.writeLog_withHanded (s : State) (hs : List Handed) (b : LogBody) :
    State.writeLog { s with handed := hs } b = { s.writeLog b with handed := hs } := by
  unfold State.writeLog
  change (match s.utc with | some _ => _ | none => _) = _
  cases s.utc <;> rfl

/-! ## The notices of a crosspoint found CLOSED -/

/-- R142, R128: with PERMIT off and no drive the own HELD booking found is nothing to the link or the matrix interface. -/
theorem Still.found {s : State} (permit : s.link.permit = false) (idle : s.mat.active = none) (rests : s.seq.Rests)
    {k : Handed} (hk : k = .heldChanged ∨ ∃ t, k = .entered t) : Still s k := by
  refine ⟨?_, fun last => Sequencer.Rests.advance (s := { s with handed := [] }) rests last⟩
  rcases hk with rfl | ⟨t, rfl⟩
  · simp [State.take, State.permitHeld, State.permitLost, permit]
  · simp [State.take, State.matrixEntered, idle]

/-! ## The hand-over -/

/-- R191: the state with the configuration and the reach in force, from which the banks are read back. -/
def State.configured (s : State) (i : SettledImage) : State := { s with cfg := i.cfg, map := i.reach }

/-- R192: what an accepted hand-over leaves. -/
structure State.Accepts (s u : State) (t : Nat) (i : SettledImage) (scan : Contacts) : Prop where
  now       : u.now = max s.now t
  image     : u.image = some .accepted
  cfg       : u.cfg = i.cfg
  join      : u.pres.join = s.pres.join
  listening : u.pres.listening = some (u.now + 3000)
  link      : u.link = { Link.reset with lossDeadline := some (u.now + 3000) }
  psu       : u.psu = { Power.reset with announced := i.cfg.standby, ceiling := i.cfg.standby }
  map       : u.map = addedRows i.reach (lowestOf (foundIn (i.reach.map (·.number)) scan))
    (ownBooking i.cfg.station .held 3 (u.now / 1000 : Nat) none true)
  mat       : u.mat = foundMatrix (i.reach.map (·.number)) scan u.now
  store     : u.store = { s.store with bankA := (s.configured i).foundBank .a, bankB := (s.configured i).settledB }
  serial    : u.serial = { s.serial with
    writes := s.serial.writes ++ ([Bank.a, Bank.b].filter fun bk =>
          ((s.configured i).bankLoss bk).isSome || ((s.configured i).bothLive && bk == .b)).map fun bk =>
        headerWrite bk ((s.configured i).settledBank bk) }
  records   : s.log.ring.length ≤ 60 → u.log.ring.map (·.body)
    = .start .accepted i.cfg.station i.reach.length i.count :: s.log.ring.map (·.body)
      ++ ([Bank.a, Bank.b].filterMap fun bk => ((s.configured i).bankLoss bk).map (lostRecord bk))
      ++ [.join .listening .listening .start]

/-- R192: an accepted hand-over in a state with no sequencer under way. -/
theorem accept_accepts {s : State} {t : Nat} {i : SettledImage} (scan : Contacts) (unarmed : s.Unarmed)
    (bare : ∀ r ∈ i.reach, r.Bare) (rows : RowsDistinct i.reach) (station : i.cfg.station ≠ 0) :
    ∃ u, State.DrainsTo ((s.atTime t).acceptImage i scan) u 4096 ∧ s.Accepts u t i scan := by
  let start : LogBody := .start .accepted i.cfg.station i.reach.length i.count
  let written : State :=
    State.writeStart { s.atTime t with image := some .accepted, cfg := i.cfg, map := i.reach } start
  obtain ⟨l, b, banks, adds⟩ := written.readBanks_shape
  let read : State := { written with
    store := { written.store with bankA := written.foundBank .a, bankB := written.settledB }
    log := l
    bus := b
    serial := { written.serial with
      writes := written.serial.writes
        ++ ([Bank.a, Bank.b].filter fun bk => (written.bankLoss bk).isSome || (written.bothLive && bk == .b)).map fun bk =>
          headerWrite bk (written.settledBank bk) } }
  obtain ⟨p, c, hs, found, join, few, news⟩ := State.settleFound_shape (s := read)
    (reach := i.reach.map (·.number)) scan bare rows rfl station
  let held : State := { read with
    map := addedRows i.reach (lowestOf (foundIn (i.reach.map (·.number)) scan))
      (ownBooking i.cfg.station .held 3 read.localSecond none true)
    mat := foundMatrix (i.reach.map (·.number)) scan read.now
    pres := p
    bus := c }
  let u : State := held.takeHandOver.writeLog (.join .listening .listening .start)
  have none : held.handed = [] := unarmed.handed
  have rule : (s.atTime t).acceptImage i scan = { u with handed := hs } := by
    show State.writeLog (State.takeHandOver (written.readBanks.settleFound _ scan)) _ = _
    rw [banks]
    show State.writeLog (State.takeHandOver (read.settleFound _ scan)) _ = _
    rw [found, show read.handed = [] from unarmed.handed]
    exact State.writeLog_withHanded held.takeHandOver hs _
  have rests : u.seq.Rests := by
    have seq : u.seq = Sequencer.reset := (State.writeLog_seq _ _).trans unarmed.seq
    rw [seq]
    exact ⟨rfl, rfl, by decide, rfl⟩
  refine ⟨u, ?_, ?_⟩
  · rw [rule]
    have permit : u.link.permit = false := by rw [State.writeLog_link]; rfl
    have idle : u.mat.active = Option.none := by rw [State.writeLog_mat]; rfl
    have still : ∀ k ∈ hs, Still { u with handed := hs } k := fun k hk =>
      Still.found (s := { u with handed := hs }) permit idle rests (news k hk)
    have quiet : u.handed = [] := (State.writeLog_handed _ _).trans none
    have end_ : State.DrainsTo { u with handed := [] } u 0 := by
      have done := State.drainsTo_self quiet
      rw [← quiet]
      exact done
    have all := State.DrainsTo.stills (s := { u with handed := hs }) (ms := hs) (List.append_nil hs).symm still end_
    exact fun k hk => all k (by omega)
  · have local_ : u.now = max s.now t := State.writeLog_now _ _
    have log := held.takeHandOver.writeLog_adds (.join .listening .listening .start)
    refine { now := local_, image := State.writeLog_image _ _, cfg := State.writeLog_cfg _ _, join := ?_, listening := ?_,
             link := ?_, psu := State.writeLog_psu _ _, map := ?_, mat := ?_, store := State.writeLog_store _ _,
             serial := ?_, records := fun room => ?_ }
    · rw [State.writeLog_pres]
      exact join
    · rw [State.writeLog_pres, local_]
      rfl
    · rw [State.writeLog_link, local_]
      rfl
    · rw [State.writeLog_map, local_]
      rfl
    · rw [State.writeLog_mat, local_]
      rfl
    · rw [State.writeLog_serial]
      rfl
    · have first := State.writeStart_adds { s.atTime t with image := some .accepted, cfg := i.cfg, map := i.reach } start
        (show s.log.ring.length < 64 by omega)
      have length : written.log.ring.length = s.log.ring.length + 1 := by
        have sizes := congrArg List.length first
        rwa [List.length_map, List.length_cons, List.length_map] at sizes
      have few : ([Bank.a, Bank.b].filterMap fun bk => (written.bankLoss bk).map (lostRecord bk)).length ≤ 2 :=
        List.length_filterMap_le _ _
      have all := (adds.trans log) (by rw [List.length_append, length, List.length_singleton]; omega)
      rw [first] at all
      exact all.trans (List.append_assoc _ _ _).symm

end Sys2Proof.Machine

/-! PROOF. O7: an accepted image is taken into force (R191, R192). -/

namespace Sys2Proof.Machine

/-! ## Values settled (R191) -/

theorem changes_eq (v c : Nat) : (if c == v then 0 else 1) = if v = c then 0 else 1 := by
  by_cases h : v = c
  · simp [h]
  · simp [h, Ne.symm h]

theorem clampTo_count (lo hi v : Nat) : (clampTo lo hi v).count = if v = max lo (min hi v) then 0 else 1 :=
  changes_eq _ _

theorem clampHigh_count (low v : Nat) :
    (clampHigh low v).count = if v = max low (max 2300 (min 26100 v)) then 0 else 1 :=
  changes_eq _ _

theorem clampTime_value (z lo hi v : Nat) : (clampTime z lo hi v).value = if v = 0 then z else max lo (min hi v) := by
  unfold clampTime
  by_cases h : v = 0 <;> simp [h, clampTo]

theorem clampTime_count (z lo hi v : Nat) :
    (clampTime z lo hi v).count = if v = 0 then 0 else if v = max lo (min hi v) then 0 else 1 := by
  unfold clampTime
  by_cases h : v = 0
  · simp [h]
  · simp [h, clampTo_count]

/-- R191: a kind is a terminal or, brought to 1, a load. -/
theorem clampTo_load (v : Nat) : ((clampTo 0 1 v).value == 1) = decide (1 ≤ v) := by
  show (max 0 (min 1 v) == 1) = _
  by_cases h : 1 ≤ v
  · simp [h]
  · simp [show v = 0 by omega]

/-! ## A bank read back, in the words of R16 -/

theorem readBack_snd (cfg : Settings) (m : List TermRow) (bank : Bank) (d : StoredBank) :
    (readBack cfg m bank d).2 = match d.entries with
      | none => some (1, none)
      | some es =>
        if d.header.intact = false ∨ bankSum bank d.header.state d.header.label d.header.instant es ≠ d.header.sum then
          some (1, none)
        else if d.header.state = .empty then none
        else if d.header.state = .loading then some (0, none)
        else (es.find? fun e => (entryFail cfg m e.number e.days.toNat e.prog.toRaw).isSome).map fun e =>
          (2, some e.number) := by
  unfold readBack
  cases d.entries with
  | none => split <;> simp_all
  | some es =>
    cases d.header.intact with
    | false => simp
    | true =>
      by_cases sums : bankSum bank d.header.state d.header.label d.header.instant es = d.header.sum
      · simp only [sums]
        cases d.header.state <;> simp <;> cases List.find? _ es <;> rfl
      · simp [sums]

theorem readBack_fst (cfg : Settings) (m : List TermRow) (bank : Bank) (d : StoredBank) :
    (readBack cfg m bank d).1 =
      if (readBack cfg m bank d).2.isSome = true ∨ d.header.state = .empty then
        { state := .empty, label := 0, instant := none, entries := [] }
      else { state := d.header.state, label := d.header.label, instant := d.header.instant,
             entries := d.entries.getD [] } := by
  unfold readBack
  cases d.entries with
  | none => split <;> simp_all [BankData.reset]
  | some es =>
    cases d.header.intact with
    | false => simp [BankData.reset]
    | true =>
      by_cases sums : bankSum bank d.header.state d.header.label d.header.instant es = d.header.sum
      · simp only [sums]
        cases d.header.state <;> simp [BankData.reset] <;> cases List.find? _ es <;> rfl
      · simp [sums, BankData.reset]

/-- R2: the check of an entry is no question to the bookings of a terminal. -/
theorem candidateFail_addedRows (m : List TermRow) (t : Option Nat) (b : Booking) (freq : Nat) (cands : List Nat)
    (pos : Nat) (seen : List Nat) (ended : Bool) :
    candidateFail (addedRows m t b) freq pos seen ended cands = candidateFail m freq pos seen ended cands := by
  induction cands generalizing pos seen ended with
  | nil => rfl
  | cons c cands ih =>
    have found : (addedRows m t b).find? (·.number == c)
        = (m.find? (·.number == c)).map fun r => { r with slots := r.slots ++ if t = some r.number then [b] else [] } := by
      rw [addedRows, List.find?_map]
      rfl
    unfold candidateFail
    rw [found]
    simp only [ih]
    cases m.find? (·.number == c) <;> rfl

theorem entryFail_addedRows (cfg : Settings) (m : List TermRow) (t : Option Nat) (b : Booking) (n days : Nat) (r : RawProg) :
    entryFail cfg (addedRows m t b) n days r = entryFail cfg m n days r := by
  simp only [entryFail, progFail, candidateFail_addedRows]

/-! ## The statement, part by part -/

/-- R191: the configuration settled. -/
theorem settleImage_cfg (r : RawImage) :
    let clamp (lo hi v : Nat) : Nat := max lo (min hi v)
    let time (ifZero lo hi v : Nat) : Nat := if v = 0 then ifZero else clamp lo hi v
    let fmin := clamp 2300 26100 r.fmin.toNat
    let limit := clamp 100 20000 r.limit.toNat
    (settleImage r).cfg =
        { station := r.station.toNat, rating := clamp 1 999 r.rating.toNat, fmin := fmin,
          fmax := max fmin (clamp 2300 26100 r.fmax.toNat), standby := clamp 0 200 r.standby.toNat,
          efficiency := clamp 40 95 r.efficiency.toNat, limit := limit, reserve := clamp 0 limit r.reserve.toNat,
          lead := time 120 30 600 r.lead.toNat, tune := time 90 20 180 r.tune.toNat } := by
  simp only [settleImage, clampTime_value]
  rfl

/-- R191, R93: the row of a record used. -/
theorem settleReach_row (q : RawReach) :
    let low := max 2300 (min 26100 q.low.toNat)
    let owner := max 0 (min 30 q.dedicated.toNat)
    (settleReach q).row =
      { number := max 0 (min 39 q.terminal.toNat), load := decide (1 ≤ q.kind.toNat), low := low,
        high := max low (max 2300 (min 26100 q.high.toNat)), rating := max 1 (min 999 q.rating.toNat), dedicated := owner,
        suspect := none, occRun := 0, freeRun := 0,
        slots := if owner = 0 then [] else
          [{ owner := owner, state := .dedicated, cls := 0, since := 0, till := none, source := .config, heard := none,
             found := false }] } := by
  simp only [settleReach, clampTo_load]
  congr 1
  by_cases h : (clampTo 0 30 q.dedicated.toNat).value = 0
  · rw [h]
    exact (if_pos h).symm
  · rw [if_neg (by simpa using h)]
    exact (if_neg h).symm

/-- R191: one for a value that was changed as it was settled. -/
def changedBy (old new : Nat) : Nat := if old = new then 0 else 1

theorem clampTime_changed (z lo hi v : Nat) :
    (clampTime z lo hi v).count = if v = 0 then 0 else changedBy v (clampTime z lo hi v).value := by
  rw [clampTime_count, clampTime_value]
  by_cases h : v = 0 <;> simp [h, changedBy]

/-- R191: what was clamped of a record used. -/
theorem settleReach_count (q : RawReach) :
    (settleReach q).count = changedBy q.terminal.toNat (settleReach q).row.number
      + changedBy q.kind.toNat (min 1 q.kind.toNat) + changedBy q.low.toNat (settleReach q).row.low
      + changedBy q.high.toNat (settleReach q).row.high + changedBy q.rating.toNat (settleReach q).row.rating
      + changedBy q.dedicated.toNat (settleReach q).row.dedicated := by
  have kind : (clampTo 0 1 q.kind.toNat).count = changedBy q.kind.toNat (min 1 q.kind.toNat) := by
    rw [clampTo_count, Nat.zero_max]
    rfl
  simp only [settleReach, kind, clampTo_count, clampHigh_count]
  rfl

/-- R191: what was clamped and dropped of an image. -/
theorem settleImage_count (r : RawImage) :
    let c := (settleImage r).cfg
    (settleImage r).count = changedBy r.rating.toNat c.rating + changedBy r.fmin.toNat c.fmin + changedBy r.fmax.toNat c.fmax
      + changedBy r.standby.toNat c.standby + changedBy r.efficiency.toNat c.efficiency
      + changedBy r.limit.toNat c.limit + changedBy r.reserve.toNat c.reserve
      + (if r.lead.toNat = 0 then 0 else changedBy r.lead.toNat c.lead)
      + (if r.tune.toNat = 0 then 0 else changedBy r.tune.toNat c.tune)
      + changedBy r.reachCount.toNat (max 1 (min 40 r.reachCount.toNat))
      + ((usedRecords r).map fun q => (settleReach q).count).sum
      + ((usedRecords r).length - (settleImage r).reach.length) := by
  have dropped : (dropRepeats [] ((usedRecords r).map fun q => (settleReach q).row)).2
      = (usedRecords r).length - (settleImage r).reach.length := by
    have counts := dropRepeats_count [] ((usedRecords r).map fun q => (settleReach q).row)
    rw [List.length_map, List.length_nil, ← settleImage_reach] at counts
    omega
  have lead : (clampTime 120 30 600 r.lead.toNat).count
      = if r.lead.toNat = 0 then 0 else changedBy r.lead.toNat (settleImage r).cfg.lead := clampTime_changed _ _ _ _
  have tune : (clampTime 90 20 180 r.tune.toNat).count
      = if r.tune.toNat = 0 then 0 else changedBy r.tune.toNat (settleImage r).cfg.tune := clampTime_changed _ _ _ _
  dsimp only
  rw [← dropped, ← lead, ← tune]
  simp only [settleImage, clampTo_count, clampHigh_count, List.map_map]
  rfl

theorem imageResult_station {r : RawImage} (h : imageResult (some r) = .accepted) : r.station.toNat ≠ 0 := by
  intro zero
  unfold imageResult at h
  dsimp only at h
  rw [zero] at h
  split at h <;> simp at h

theorem addedRows_numbers (m : List TermRow) (t : Option Nat) (b : Booking) :
    (addedRows m t b).map (·.number) = m.map (·.number) := by
  simp [addedRows]

/-- Settles O7, from what the hand-over leaves (`State.Accepts`). -/
theorem acceptedImageIsTakenIntoForce : Obligations.AcceptedImageIsTakenIntoForce := by
  intro s t r scan unarmed none accepted clamp time changed used row rowChanges fmin limit
  have station : (settleImage r).cfg.station ≠ 0 := imageResult_station accepted
  have bare : ∀ q ∈ (settleImage r).reach, q.Bare := by
    intro q hq
    obtain ⟨p, -, rfl⟩ := settleImage_first hq
    exact settleReach_bare p
  obtain ⟨u, drains, k⟩ := accept_accepts (t := t) scan unarmed bare (settleImage_rows r) station
  have rule : ruleOf (.handOver t (some r) scan) (s.atTime t) = (s.atTime t).acceptImage (settleImage r) scan := by
    show State.handOver (s.atTime t) (some r) scan = _
    unfold State.handOver
    rw [if_neg (by simp [State.atTime, none]), accepted]
  have rows : row = fun q => (settleReach q).row := funext fun q => (settleReach_row q).symm
  have numbers : u.map.map (·.number) = (settleImage r).reach.map (·.number) := by
    rw [k.map, addedRows_numbers]
  refine ⟨u, exec_of_drainsTo rfl (rule ▸ drains), k.image, k.join, ?_, ?_, k.listening, k.link, ?_, ?_, ?_, ?_⟩
  · rw [k.cfg]
    exact settleImage_cfg r
  · rw [numbers, settleImage_numbers, rows]
    rfl
  · rw [k.psu, k.cfg]
  · have read : u.map.map (fun q => (q.number, some (readPosition scan q.number), some (readSense scan q.number),
      DriveState.idle))
        = (u.map.map (·.number)).map fun n => (n, some (readPosition scan n), some (readSense scan n), DriveState.idle) := by
      rw [List.map_map]
      rfl
    rw [read, numbers, k.mat]
    simp [foundMatrix, XRow.read, XRow.fresh]
  · intro closed
    have found : closed = foundIn ((settleImage r).reach.map (·.number)) scan := by
      rw [← numbers]
      rfl
    refine ⟨fun q hq => ?_, fun few => ?_, fun x hx low several => ?_⟩
    · rw [k.map] at hq
      obtain ⟨p, hp, rfl⟩ := List.mem_map.mp hq
      obtain ⟨c, first, rfl⟩ := settleImage_first hp
      refine ⟨c, ?_, ?_⟩
      · rw [rows]
        exact first
      · rw [rows, k.cfg, ← found]
        have lowest : lowestOf closed = some (settleReach c).row.number
            ↔ (settleReach c).row.number ∈ closed ∧ ∀ n ∈ closed, (settleReach c).row.number ≤ n := lowestOf_eq_some_iff
        simp only [lowest]
        rfl
    · rw [k.mat]
      simp [foundMatrix, ← found, Nat.not_lt.mpr few, Matrix.reset]
    · have lowest : lowestOf closed = some x := lowestOf_eq_some_iff.mpr ⟨hx, low⟩
      rw [k.mat]
      simp [foundMatrix, ← found, several, lowest]
  · intro header loss found both
    let b : State := s.configured (settleImage r)
    have losses : loss = b.bankLoss := by
      funext bk
      refine Eq.trans ?_ (readBack_snd _ _ _ _).symm
      simp only [loss, k.cfg, k.map, entryFail_addedRows]
      rfl
    have founds : found = b.foundBank := by
      funext bk
      refine Eq.trans ?_ (readBack_fst _ _ _ _).symm
      simp only [found, losses]
      rfl
    have bothEq : both = b.bothLive := by
      show (decide ((found .a).state = .live) && decide ((found .b).state = .live)) = _
      rw [founds]
      rfl
    refine ⟨?_, ?_, fun room => ?_⟩
    · rw [k.store, founds, bothEq]
      rfl
    · have settled : ∀ bk, u.store.bank bk = b.settledBank bk := by
        intro bk
        rw [k.store]
        cases bk <;> rfl
      rw [k.serial, losses, bothEq]
      simp only [settled]
      rfl
    · rw [losses]
      have length : (settleImage r).reach.length = u.map.length := by
        simpa using (congrArg List.length numbers).symm
      refine (k.records room).trans ?_
      congr 3
      rw [← k.cfg, length]
      congr 1
      refine (settleImage_count r).trans ?_
      have records : (fun q => (settleReach q).count) = rowChanges := by
        funext q
        refine (settleReach_count q).trans ?_
        simp only [rowChanges, rows]
        rfl
      rw [records, ← length, ← k.cfg]
      rfl

end Sys2Proof.Machine

/-! SUPPORT. O57: the law that the transmitter link carries through every operation. What reads neither the link nor the map
keeps it by the definition; here are the operations that every block uses, and those of the map (chapters 4 and 5). -/

namespace Sys2Proof.Machine

/-! ## The law -/

/-- R139, R145 to R148: the law of the carrier, as a law of what it reads. -/
structure Carrier (rating : Nat) (permit : Bool) (op : Operation) (level : Nat) (out : List TxOut) : Prop where
  asserted : permit = true ↔ op ≠ .none ∧ op ≠ .settling
  carried  : level ≠ 0 → op = .rampUp ∨ op = .steady ∨ op = .rampDown
  rated    : level ≤ rating
  sent     : ∀ x ∈ out, ∀ kw, x.record = .level kw → kw ≤ rating

theorem carrierLaw_iff {l : Link} {rating : Nat} : CarrierLaw l rating ↔ Carrier rating l.permit l.op l.level l.out :=
  ⟨fun k => ⟨k.permit, k.level, k.rated, k.sent⟩, fun k => ⟨k.asserted, k.carried, k.rated, k.sent⟩⟩

/-- R142, R139: what PERMIT asserted says of the operation; and, each while the proposition given with it holds, that the
own HELD terminal is the operation terminal or its change is still to be taken, and the law of the carrier. -/
structure LinkLaw (named carried : Prop) (rating : Nat) (held : Option Nat) (told : Prop) (permit localFlag : Bool)
    (op : Operation) (opTerminal : Option Nat) (level : Nat) (out : List TxOut) : Prop where
  remote : permit = true → localFlag = false ∧ op ≠ .none ∧ op ≠ .settling
  named  : named → permit = true → held = opTerminal ∨ told
  law    : carried → Carrier rating permit op level out

/-- The law in a state. It reads nothing but the rating, the own HELD terminal, the hand-outs and six fields of the link. -/
def State.Sound (n c : Prop) (s : State) : Prop :=
  LinkLaw n c s.cfg.rating ((ownHeld s.map).map (·.1)) (.heldChanged ∈ s.handed) s.link.permit s.link.localFlag s.link.op
    s.link.opTerminal s.link.level s.link.out

section
variable {n c : Prop} {s : State}

/-- Where the three laws of O57 hold, so does this one. -/
theorem State.Sound.of_laws (lines : Lines s) (named : n → PermitNamed s) (law : c → CarrierLaw s.link s.cfg.rating) :
    s.Sound n c where
  remote on := ⟨(lines.permit on).remote, (lines.permit on).works⟩
  named k on := named k on
  law k := carrierLaw_iff.mp (law k)

/-- R89: the runs are no question to the bookings. -/
theorem TermRow.run_keeps (r : TermRow) (sense : Sense) (pos : Position) :
    (r.run sense pos).number = r.number ∧ (r.run sense pos).slots = r.slots := by
  unfold TermRow.run
  split <;> exact ⟨rfl, rfl⟩

theorem ownHeld_mapRuns (rows : List XRow) (m : List TermRow) : ownHeld (mapRuns rows m) = ownHeld m := by
  have keeps (r : TermRow) : ∀ q, q = (match rows.find? (·.terminal == r.number) with
      | some x => match x.sense, x.pos with
        | some se, some p => r.run se p
        | _, _ => r
      | none => r) → q.number = r.number ∧ q.slots = r.slots := by
    rintro q rfl
    split
    · split
      · exact r.run_keeps _ _
      · exact ⟨rfl, rfl⟩
    · exact ⟨rfl, rfl⟩
  exact ownIn_map (fun r => (keeps r _ rfl).1) fun r => congrArg _ (keeps r _ rfl).2

/-- R92: no own HELD booking is STALE. -/
theorem ownHeld_clearStale (m : List TermRow) : ownHeld (m.map TermRow.clearStale) = ownHeld m := by
  refine ownIn_map (fun r => ?_) fun r => ?_
  · unfold TermRow.clearStale
    split <;> rfl
  · unfold TermRow.clearStale
    split
    · exact find?_filter_of_kept (fun b hb => by simp_all [isOwn]) r.slots
    · rfl

namespace State.Sound

theorem ite {a b : State} {p : Prop} [Decidable p] (ha : p → a.Sound n c) (hb : ¬ p → b.Sound n c) :
    (if p then a else b).Sound n c := by
  split
  · exact ha ‹_›
  · exact hb ‹_›

variable (h : s.Sound n c)
include h

/-- More hand-outs. -/
theorem emit (ms : List Handed) : (s.emit ms).Sound n c where
  remote := h.remote
  named k on := (h.named k on).imp_right (List.mem_append_left ms)
  law := h.law

theorem writeLog (b : LogBody) : (s.writeLog b).Sound n c := by
  unfold State.writeLog
  split
  · exact h
  · exact h

theorem noticeChange : s.noticeChange.Sound n c := by
  unfold State.noticeChange
  refine ite (fun _ => ?_) fun _ => h
  split
  · exact h
  · exact ite (fun _ => h) fun _ => h

/-! ## The join state (R66, R70, R72) -/

theorem changeJoin (new : JoinState) (cause : JoinCause) : (s.changeJoin new cause).Sound n c := emit h _

theorem joinTail (old new : JoinState) (cause : JoinCause) : (s.joinTail old new cause).Sound n c :=
  noticeChange (writeLog h _)

theorem takeIsolation : s.takeIsolation.Sound n c := ite (fun _ => h.changeJoin _ _) fun _ => h

theorem takeHeard (start : Nat) : (s.takeHeard start).Sound n c := by
  refine ite (fun _ => h) fun _ => ?_
  split
  · exact h
  · exact h
  · exact h.changeJoin _ _
  · exact h
  · exact h

theorem setDuplicate : s.setDuplicate.Sound n c := writeLog h _

theorem takeDuplicate : s.takeDuplicate.Sound n c := by
  have duplicate : (if s.pres.duplicate then s else s.setDuplicate).Sound n c := ite (fun _ => h) fun _ => h.setDuplicate
  refine ite (fun _ => h) fun _ => ?_
  split
  · exact h.setDuplicate.changeJoin _ _
  · exact duplicate
  · exact duplicate
  · exact duplicate
  · exact h

/-! ## The map (R77 to R96) -/

/-- Rows that keep the own HELD booking. -/
theorem setMap {m : List TermRow} (held : ownHeld m = ownHeld s.map) : ({ s with map := m } : State).Sound n c where
  remote := h.remote
  named k on := by
    show (ownHeld m).map (·.1) = _ ∨ _
    rw [held]
    exact h.named k on
  law := h.law

/-- R142: rows of any kind, with the notice that tells the link of another own HELD terminal. -/
theorem withMap (m : List TermRow) : (s.withMap m).Sound n c := by
  have told : (State.emit { s with map := m }
      (if (ownHeld s.map).map (·.1) != (ownHeld m).map (·.1) then [.heldChanged] else [])).Sound n c := by
    refine ⟨h.remote, fun k on => ?_, h.law⟩
    by_cases same : (ownHeld s.map).map (·.1) = (ownHeld m).map (·.1)
    · exact (h.named k on).imp (same ▸ ·) (List.mem_append_left _)
    · right
      have moved : ((ownHeld s.map).map (·.1) != (ownHeld m).map (·.1)) = true := by simpa using same
      rw [moved]
      exact List.mem_append_right _ List.mem_cons_self
  unfold State.withMap
  exact ite (fun _ => told.noticeChange) fun _ => told

theorem enterBooking (t : Nat) (b : Booking) : (s.enterBooking t b).Sound n c := by
  unfold State.enterBooking
  split
  · exact h
  · exact (h.withMap _).emit _

theorem enterOwnBooked (t cls : Nat) (since till : Int) : (s.enterOwnBooked t cls since till).1.Sound n c := by
  unfold State.enterOwnBooked
  split
  · exact h
  · split
    · exact h
    · exact (h.withMap _).emit _

theorem extendOwn (t : Nat) (st : BookState) (cls : Nat) (till : Option Int) : (s.extendOwn t st cls till).Sound n c :=
  h.withMap _

theorem promote (t : Nat) : (s.promote t).1.Sound n c := by
  unfold State.promote
  split
  · exact h.withMap _
  · exact h

theorem removeOwn (t : Nat) (st : BookState) : (s.removeOwn t st).Sound n c := h.withMap _

/-- R79, R80: the marks are no question to the own bookings. -/
theorem markFault (t a minutes : Nat) : (s.markFault t a minutes).Sound n c :=
  emit (setMap h (ownIn_mapMark _ _ _ _ _ _)) _

theorem ownFault (t : Nat) (reason : FaultReason) (minutes : Nat) : (s.ownFault t reason minutes).Sound n c :=
  markFault h _ _ _

theorem endMarks : s.endMarks.Sound n c := by
  refine emit (setMap h (ownIn_map (fun r => ?_) fun r => ?_)) _
  · split
    · split <;> rfl
    · rfl
  · split
    · split <;> rfl
    · rfl

/-- R82: a HEARD booking is no own one. -/
theorem mapNotice (f : RxFrame) : (s.mapNotice f).Sound n c := by
  have flushed : ownHeld (mapFlush s.map f.sender.toNat) = ownHeld s.map :=
    ownIn_map (fun _ => rfl) fun r => find?_filter_of_kept (fun b hb => by simp_all [isOwn]) r.slots
  exact enterBooking (enterBooking (setMap h flushed) _ _) _ _

/-- R84. -/
theorem mapFreeFrame (f : RxFrame) : (s.mapFreeFrame f).Sound n c :=
  setMap h (ownIn_mapDropAt fun b hb => by simp_all [isOwn])

theorem mapDenied (f : RxFrame) (st : BookState) : (s.mapDenied f st).Sound n c :=
  enterBooking (setMap h (ownIn_mapDropAt fun b hb => by simp_all [isOwn, denyReplaces])) _ _

theorem mapDeniedStale (f : RxFrame) : (s.mapDeniedStale f).Sound n c :=
  ite (fun _ => h) fun _ => h.enterBooking _ _

theorem mapDeny (f : RxFrame) : (s.mapDeny f).Sound n c := by
  unfold State.mapDeny
  split
  · exact h.mapDenied _ _
  · exact h.mapDenied _ _
  · exact h.mapDeniedStale _
  · exact h

theorem mapClaimEnters (t : Nat) (b : Booking) : (s.mapClaimEnters t b).Sound n c :=
  enterBooking (setMap h (ownIn_mapDropAt fun x hx => by simp_all [isOwn])) _ _

theorem yieldBooking (t : Nat) : (s.yieldBooking t).Sound n c := by
  unfold State.yieldBooking
  split
  · exact (h.removeOwn _ _).emit _
  · exact h

theorem mapClaim (f : RxFrame) : (s.mapClaim f).Sound n c := by
  unfold State.mapClaim
  split
  split
  · exact h
  · exact (h.yieldBooking _).mapClaimEnters _ _
  · exact h.mapClaimEnters _ _

theorem mapFaultFrame (f : RxFrame) : (s.mapFaultFrame f).Sound n c := h.markFault _ _ _

theorem ageMap : s.ageMap.Sound n c := ite (fun _ => h.withMap _) fun _ => h

theorem expireMap : s.expireMap.Sound n c := ite (fun _ => h.withMap _) fun _ => h

theorem expireSuspects : s.expireSuspects.Sound n c := ite (fun _ => h.endMarks) fun _ => h

/-! ## Scans (R89 to R92) -/

theorem enterPhantoms (l : List Nat) : (s.enterPhantoms l).Sound n c := by
  induction l generalizing s with
  | nil => exact h
  | cons t l ih => exact ih (ite (fun _ => h.enterBooking _ _) fun _ => h)

theorem mapScan (rows : List XRow) : (s.mapScan rows).Sound n c :=
  setMap (enterPhantoms (setMap h (ownHeld_mapRuns rows s.map)) _) (ownHeld_clearStale _)

end State.Sound
end

end Sys2Proof.Machine

/-! SUPPORT. O57: the power share unit (chapter 9), the requests and the schedule store (chapters 1 and 11) move nothing that
the law of the link reads. -/

namespace Sys2Proof.Machine

section
variable {n c : Prop} {s : State}

namespace State.Sound
variable (h : s.Sound n c)
include h

/-! ## The power share unit -/

theorem announce : s.announce.Sound n c := ite (fun _ => h) fun _ => noticeChange h

theorem settleLower : s.settleLower.Sound n c := by
  unfold State.settleLower
  split
  · exact ite (fun _ => announce h) fun _ => h
  · exact h

theorem lowerTo (k : Nat) : (s.lowerTo k).Sound n c := by
  unfold State.lowerTo
  split
  · exact h
  · exact ite (fun _ => settleLower h) fun _ => h

theorem settleRelease : s.settleRelease.Sound n c := ite (fun _ => announce h) fun _ => h

theorem powerLevel : s.powerLevel.Sound n c := h.settleLower.settleRelease

theorem placeWithdrawal : s.placeWithdrawal.Sound n c := by
  unfold State.placeWithdrawal
  split
  · exact ite (fun _ => h) fun _ => h
  · exact h

theorem admitStep (r : AdmitReq) (k : Nat) : (s.admitStep r k).Sound n c := by
  refine emit ?_ _
  exact announce h

theorem waitForRoom (r : AdmitReq) : (s.waitForRoom r).Sound n c := emit h _

theorem takeLowering (r : AdmitReq) (k : Nat) : (s.takeLowering r k).Sound n c := by
  refine lowerTo ?_ k
  exact emit h _

theorem chooseStep : s.chooseStep.Sound n c := by
  unfold State.chooseStep
  split
  · exact h
  · split
    · exact h.waitForRoom _
    · exact ite (fun _ => h.takeLowering _ _) fun _ => ite (fun _ => h) fun _ => h.admitStep _ _

theorem chooseIfWaiting : s.chooseIfWaiting.Sound n c := ite (fun _ => chooseStep h) fun _ => h

theorem requestStep (r : AdmitReq) (cap : Nat) : (s.requestStep r cap).Sound n c :=
  ite (fun _ => h.emit _) fun _ => ite (fun _ => h.emit _) fun _ => chooseStep h

theorem cancelAdmission : s.cancelAdmission.Sound n c := by
  have asked : (if s.psu.phase == .placed || s.psu.phase == .window then s.placeWithdrawal else s).Sound n c :=
    ite (fun _ => h.placeWithdrawal) fun _ => h
  exact ite (fun _ => h) fun _ => asked

theorem releaseAdmission : s.releaseAdmission.Sound n c := settleRelease (cancelAdmission h)

theorem takeIntentSent (start : Nat) : (s.takeIntentSent start).Sound n c := ite (fun _ => h) fun _ => h

theorem takeIntentLost : s.takeIntentLost.Sound n c := ite (fun _ => chooseStep h) fun _ => h

theorem endIntentWindow : s.endIntentWindow.Sound n c := by
  unfold State.endIntentWindow
  split
  · exact ite (fun _ => h.admitStep _ _) fun _ => placeWithdrawal h
  · exact h

theorem powerNotice (f : RxFrame) : (s.powerNotice f).Sound n c := chooseIfWaiting h

theorem powerIntent (f : RxFrame) : (s.powerIntent f).Sound n c := chooseIfWaiting h

theorem takePowerLocal : s.takePowerLocal.Sound n c := announce (cancelAdmission h)

theorem takePowerRemote : s.takePowerRemote.Sound n c := announce h

theorem takeStepLower (k : Nat) : (s.takeStepLower k).Sound n c := by
  refine chooseIfWaiting (lowerTo ?_ k)
  exact h

theorem powerSuspect (t : Nat) (on : Bool) : (s.powerSuspect t on).Sound n c := by
  refine ite (fun _ => chooseIfWaiting (lowerTo ?_ _)) fun _ => h
  exact h

theorem endBackoff : s.endBackoff.Sound n c := chooseStep h

theorem expireIntents : s.expireIntents.Sound n c := chooseIfWaiting h

/-! ## The schedule store -/

theorem changeOver (bk : Bank) (t : Nat) : (s.changeOver bk t).Sound n c := by
  unfold State.changeOver
  dsimp only
  split
  · refine emit (writeLog ?_ _) _
    exact h
  · refine emit (writeLog ?_ _) _
    exact h

theorem changeoverTest (t : Nat) : (s.changeoverTest t).Sound n c := by
  unfold State.changeoverTest
  split
  · exact h.changeOver _ _
  · exact h

theorem storeMinute (t : Nat) : (s.storeMinute t).Sound n c := changeoverTest h t

theorem bankOpen (p : List Byte) : (s.bankOpen p).Sound n c := by
  unfold State.bankOpen
  split
  · exact h
  · split
    · exact h
    · exact h
    · exact ite (fun _ => emit h _) fun _ => h

theorem entryPut (p : List Byte) : (s.entryPut p).Sound n c := by
  unfold State.entryPut
  split
  · exact h
  · refine ite (fun _ => h) fun _ => ?_
    split
    · exact h
    · exact h
    · dsimp only
      split
      · exact h
      · exact h

theorem bankClose (p : List Byte) : (s.bankClose p).Sound n c := by
  unfold State.bankClose
  split
  · exact h
  · refine ite (fun _ => h) fun _ => ?_
    split
    · exact h
    · exact ite (fun _ => h) fun _ => emit h _

theorem storeExtra (slot : Nat) (x : Extra) : (s.storeExtra slot x).Sound n c := emit h _

theorem extraPut (p : List Byte) : (s.extraPut p).Sound n c := by
  unfold State.extraPut
  split
  · exact h
  · dsimp only
    split
    · exact h
    · split
      · exact h
      · exact emit h _

theorem extraDrop (p : List Byte) : (s.extraDrop p).Sound n c :=
  ite (fun _ => h) fun _ => ite (fun _ => h) fun _ => emit h _

theorem entryGet (p : List Byte) : (s.entryGet p).Sound n c := by
  unfold State.entryGet
  split
  · exact h
  · refine ite (fun _ => h) fun _ => ?_
    split
    · exact h
    · exact h

theorem logGet (p : List Byte) : (s.logGet p).Sound n c := by
  unfold State.logGet
  split
  · exact h
  · exact h

/-! ## The request queue -/

theorem discardDisabled : s.discardDisabled.Sound n c := ite (fun _ => h) fun _ => h

theorem takeRequest (f : RxFrame) : (s.takeRequest f).Sound n c := ite (fun _ => discardDisabled h) fun _ => h

theorem endRequest : s.endRequest.Sound n c := discardDisabled h

theorem serve {service : State → List Byte → State} (kind : Nat)
    (serves : ∀ (a : State) (p : List Byte), a.Sound n c → (service a p).Sound n c) : (s.serve kind service).Sound n c := by
  unfold State.serve
  split
  · exact serves _ _ h
  · exact h

theorem endWrite (kept : Bool) : (s.endWrite kept).Sound n c := by
  unfold State.endWrite
  split
  · exact h
  · dsimp only
    split
    · exact h
    · exact h

/-! ## The clock (R28 to R33) -/

theorem raiseBoundary (m : Nat) : (s.raiseBoundary m).Sound n c := by
  unfold State.raiseBoundary
  refine storeMinute ?_ m
  exact emit h _

theorem boundaryIfDue : s.boundaryIfDue.Sound n c := by
  unfold State.boundaryIfDue
  split
  · exact ite (fun _ => h.raiseBoundary _) fun _ => h
  · exact ite (fun _ => h.raiseBoundary _) fun _ => h
  · exact h

theorem noticeRemoval (before : List (Option Extra)) : (s.noticeRemoval before).Sound n c :=
  ite (fun _ => h.emit _) fun _ => h

theorem stepSetting (f : Nat) (step : Bool) (old : Nat) (diff : Int) : (s.stepSetting f step old diff).Sound n c := by
  unfold State.stepSetting
  refine noticeRemoval (storeMinute ?_ _) _
  exact emit h _

theorem setClock (f t : Nat) : (s.setClock f t).Sound n c := by
  unfold State.setClock
  dsimp only
  split
  · refine stepSetting ?_ _ _ _ _
    exact h
  · refine stepSetting ?_ _ _ _ _
    exact h
  · refine boundaryIfDue ?_
    exact h

theorem takeTime (f : RxFrame) : (s.takeTime f).Sound n c := ite (fun _ => h.setClock _ _) fun _ => h

theorem endRange : s.endRange.Sound n c := emit h _

end State.Sound
end

end Sys2Proof.Machine

/-! SUPPORT. O57: the transmitter link (chapter 8) keeps its law. -/

namespace Sys2Proof.Machine

/-! ## Levels within the rating (R146) -/

theorem State.levelLimit_le (s : State) (carrier : Nat) : s.levelLimit carrier ≤ s.cfg.rating := by
  unfold State.levelLimit
  dsimp only
  split
  · exact Nat.min_le_right _ _
  · exact (Nat.min_le_left _ _).trans ((Nat.min_le_left _ _).trans (Nat.min_le_right _ _))

theorem State.limited_le (s : State) (kw : Nat) : s.limited kw ≤ s.cfg.rating :=
  (Nat.min_le_right _ _).trans (s.levelLimit_le _)

/-- R146: no LEVEL still to be sent exceeds the rating. -/
def Sendable (rating : Nat) (out : List TxOut) : Prop := ∀ x ∈ out, ∀ kw, x.record = .level kw → kw ≤ rating

theorem State.issuing_sendable {s : State} {rating : Nat} {r : TxRecord} (h : Sendable rating s.link.out)
    (hr : ∀ kw, r = .level kw → kw ≤ rating) : Sendable rating (s.issuing r) := by
  unfold State.issuing
  split
  · intro x hx
    rcases List.mem_append.mp hx with old | new
    · exact h x old
    · obtain rfl := List.mem_singleton.mp new
      exact hr
  · exact h

theorem State.cutting_sendable {s : State} {rating : Nat} (h : Sendable rating s.link.out) : Sendable rating s.cutting := by
  refine State.issuing_sendable (State.issuing_sendable h ?_) nofun
  rintro kw ⟨⟩
  exact Nat.zero_le _

theorem none_or_settling (p : Prop) [Decidable p] :
    (if p then Operation.none else .settling) = .none ∨ (if p then Operation.none else .settling) = .settling := by
  split
  · exact .inl rfl
  · exact .inr rfl

/-- With PERMIT off, no level and no operation that carries PERMIT nothing more is asked. -/
theorem LinkLaw.off {n c told : Prop} {rating : Nat} {held t : Option Nat} {permit loc : Bool} {op : Operation}
    {level : Nat} {out : List TxOut} (off : permit = false) (rest : op = .none ∨ op = .settling) (zero : c → level = 0)
    (sent : c → Sendable rating out) : LinkLaw n c rating held told permit loc op t level out where
  remote on := by rw [off] at on; cases on
  named _ on := by rw [off] at on; cases on
  law k :=
    { asserted := by rcases rest with e | e <;> simp [off, e]
      carried := fun up => absurd (zero k) up
      rated := by rw [zero k]; exact Nat.zero_le _
      sent := sent k }

/-- R139, R147: PERMIT and a ramp or a steady carrier beside it. -/
theorem LinkLaw.carry {n c told more : Prop} {rating : Nat} {held t : Option Nat} {permit loc : Bool} {op new : Operation}
    {level kw : Nat} {out sent : List TxOut} (h : LinkLaw n c rating held told permit loc op t level out)
    (on : c → permit = true) (up : new = .rampUp ∨ new = .steady ∨ new = .rampDown) (rated : c → kw ≤ rating)
    (sendable : c → Sendable rating sent) (told : told → more) :
    LinkLaw n c rating held more permit loc new t kw sent where
  remote on := ⟨(h.remote on).1, by rcases up with e | e | e <;> simp [e], by rcases up with e | e | e <;> simp [e]⟩
  named k on := (h.named k on).imp_right told
  law k :=
    { asserted := by rcases up with e | e | e <;> simp [e, on k]
      carried := fun _ => up
      rated := rated k
      sent := sendable k }

section
variable {n c : Prop} {s : State}

namespace State.Sound
variable (h : s.Sound n c)
include h

theorem sendable (k : c) : Sendable s.cfg.rating s.link.out := (h.law k).sent

/-- R139: outside a ramp and a steady carrier no level is commanded. -/
theorem level_zero (op : s.link.op ≠ .rampUp ∧ s.link.op ≠ .steady ∧ s.link.op ≠ .rampDown) (k : c) :
    s.link.level = 0 := by
  obtain ⟨up, steady, down⟩ := op
  by_contra carried
  rcases (h.law k).carried carried with e | e | e
  · exact up e
  · exact steady e
  · exact down e

theorem issue (r : TxRecord) (hr : ∀ kw, r = .level kw → kw ≤ s.cfg.rating) : (s.issue r).Sound n c := by
  rw [State.issue_out]
  exact ⟨h.remote, h.named, fun k => { h.law k with sent := State.issuing_sendable (h.sendable k) hr }⟩

theorem setLevel {kw : Nat} (rated : kw ≤ s.cfg.rating)
    (op : c → kw ≠ 0 → s.link.op = .rampUp ∨ s.link.op = .steady ∨ s.link.op = .rampDown) : (s.setLevel kw).Sound n c := by
  refine ite (fun _ => h) fun _ => emit ?_ _
  exact ⟨h.remote, h.named, fun k => { h.law k with carried := op k, rated := rated }⟩

theorem issueLevel {kw : Nat}
    (op : c → s.limited kw ≠ 0 → s.link.op = .rampUp ∨ s.link.op = .steady ∨ s.link.op = .rampDown) :
    (s.issueLevel kw).Sound n c := by
  have issued : (s.issue (.level (s.limited kw))).Sound n c := h.issue _ fun v e => by
    cases e
    exact s.limited_le kw
  have same : (s.issue (.level (s.limited kw))).link.op = s.link.op := by rw [State.issue_out]
  have rating : (s.issue (.level (s.limited kw))).cfg = s.cfg := by rw [State.issue_out]
  refine issued.setLevel (kw := s.limited kw) ?_ ?_
  · rw [rating]
    exact s.limited_le kw
  · rw [same]
    exact op

theorem rfOff : s.rfOff.Sound n c := setLevel (h.issue (.rf false) nofun) (Nat.zero_le _) fun _ up => absurd rfl up

theorem cutRf : s.cutRf.Sound n c := rfOff (h.issueLevel fun _ up => absurd s.limited_zero up)

theorem trySettle : s.trySettle.Sound n c := by
  refine ite (fun settles => emit ?_ _) fun _ => h
  have op : s.link.op = .settling := by
    simp only [Bool.and_eq_true, beq_iff_eq] at settles
    exact settles.1
  have off : s.link.permit = false := by
    by_contra on
    exact (h.remote (by simpa using on)).2.2 op
  exact LinkLaw.off off (.inl rfl) (h.level_zero (by rw [op]; decide)) h.sendable

/-! ## PERMIT (R142, R143) -/

theorem permitLost (cause : PermitCause) : (s.permitLost cause).Sound n c := by
  refine ite (fun _ => trySettle (emit ?_ _)) fun _ => h
  rw [State.cutRf_out]
  exact LinkLaw.off rfl (.inr rfl) (fun _ => rfl) fun k => State.cutting_sendable (h.sendable k)

theorem permitScan : s.permitScan.Sound n c := by
  unfold State.permitScan
  split
  · exact h
  · exact ite (fun _ => h) fun _ => ite (fun _ => h.permitLost _) fun _ => h.permitLost _

omit h in
theorem trySettle_permit : s.trySettle.link.permit = s.link.permit := by
  unfold State.trySettle
  split
  · rfl
  · rfl

omit h in
theorem permitLost_off (cause : PermitCause) : (s.permitLost cause).link.permit = false := by
  unfold State.permitLost
  split
  · dsimp only
    rw [trySettle_permit, State.cutRf_out]
    rfl
  · next on => simpa using on

omit h in
/-- R143: once the link has taken the change, PERMIT asserted stands on the own HELD terminal. -/
theorem permitHeld {m : Prop} (told : s.Sound m c) : s.permitHeld.Sound n c := by
  refine ite (fun same => ⟨told.remote, fun _ _ => .inl (eq_of_beq same), told.law⟩) fun _ => ?_
  have fell := told.permitLost (s := s) .heldLost
  refine ⟨fell.remote, fun _ on => ?_, fell.law⟩
  rw [permitLost_off] at on
  cases on

/-! ## Tuning (R144, R145) -/

omit h in
theorem tuneRefusal_none {t : Nat} (e : s.tuneRefusal t = none) :
    (s.link.op ≠ .rampUp ∧ s.link.op ≠ .steady ∧ s.link.op ≠ .rampDown) ∧ s.permitReady t = true := by
  unfold State.tuneRefusal at e
  split_ifs at e with up remote sound busy ready
  refine ⟨⟨?_, ?_, ?_⟩, by simpa using ready⟩
  · intro op
    exact busy (by simp [op])
  · intro op
    exact busy (by simp [op])
  · intro op
    exact busy (by simp [op])

omit h in
theorem permitReady_held {t : Nat} (ready : s.permitReady t = true) :
    (ownHeld s.map).map (·.1) = some t ∧ s.link.localFlag = false := by
  unfold State.permitReady at ready
  simp only [Bool.and_eq_true, beq_iff_eq, Bool.not_eq_true'] at ready
  obtain ⟨⟨⟨⟨-, held⟩, -⟩, remote⟩, -⟩ := ready
  exact ⟨held, remote⟩

theorem tune (occ : OccKey) (t freq : Nat) (mode : Mode) (programme : Nat) :
    (s.tune occ t freq mode programme).Sound n c := by
  rcases e : s.tuneRefusal t with _ | r
  · obtain ⟨ladder, tripped, p, b, shape, -⟩ := State.tune_taken (k := occ) (freq := freq) (programme := programme)
      (mode := mode) e
    rw [shape]
    obtain ⟨busy, ready⟩ := tuneRefusal_none e
    obtain ⟨held, remote⟩ := permitReady_held ready
    refine ⟨fun _ => ⟨remote, nofun, nofun⟩, fun _ _ => .inl held, fun k => ?_⟩
    have zero := h.level_zero busy k
    exact { asserted := by simp, carried := fun up => absurd zero up, rated := (h.law k).rated
            sent := State.issuing_sendable (State.issuing_sendable (h.sendable k) nofun) nofun }
  · unfold State.tune
    rw [e]
    exact h.emit _

theorem failTune (limit : Bool) (tuning : s.link.op = .tuning) : (s.failTune limit).Sound n c := by
  refine emit ?_ _
  exact LinkLaw.off rfl (.inl rfl) (h.level_zero (by rw [tuning]; decide)) h.sendable

theorem takeSeenClear (r : Report) : (s.takeSeenClear r).Sound n c := ite (fun _ => h) fun _ => h

theorem takeTuneFlags (r : Report) : (s.takeTuneFlags r).Sound n c := by
  unfold State.takeTuneFlags
  split
  · next tuning =>
    refine ite (fun _ => h.takeSeenClear r) fun _ => ite (fun _ => h) fun _ =>
      ite (fun _ => emit ?_ _) fun _ => h.failTune _ tuning
    exact ⟨fun on => ⟨(h.remote on).1, nofun, nofun⟩, h.named, fun k =>
      { h.law k with
        asserted := by simp [(h.law k).asserted, tuning]
        carried := fun up => absurd (h.level_zero (by rw [tuning]; decide) k) up }⟩
  · next tuned =>
    refine ite (fun _ => h) fun _ => emit ?_ _
    exact LinkLaw.off rfl (.inl rfl) (h.level_zero (by rw [tuned]; decide)) h.sendable
  · exact h

/-! ## Ramping (R146 to R148) -/

/-- R139: PERMIT is asserted while an operation carries it. -/
theorem permit_on (op : s.link.op ≠ .none ∧ s.link.op ≠ .settling) (k : c) : s.link.permit = true :=
  (h.law k).asserted.mpr op

/-- R139: a level above 0 stands beside PERMIT. -/
theorem permit_of_level (up : s.link.level ≠ 0) (k : c) : s.link.permit = true := by
  refine h.permit_on ?_ k
  rcases (h.law k).carried up with e | e | e
  · simp [e]
  · simp [e]
  · simp [e]

theorem endRamp (on : c → s.link.permit = true) : s.endRamp.Sound n c := by
  refine ite (fun _ => emit ?_ _) fun _ => h
  exact LinkLaw.carry h on (.inr (.inl rfl)) (fun k => (h.law k).rated) h.sendable id

/-- R147: the first rung, and the plan of the others. -/
theorem rampFrom (on : c → s.link.permit = true) (v : Nat) (plan : List PlanItem) :
    (State.endRamp { s.issueLevel v with link := { (s.issueLevel v).link with op := .rampUp, plan := plan } }).Sound n c := by
  rw [State.issueLevel_out]
  refine endRamp ?_ on
  exact LinkLaw.carry h on (.inl rfl) (fun _ => s.limited_le v)
    (fun k => State.issuing_sendable (h.sendable k) (by rintro _ ⟨⟩; exact s.limited_le v)) (List.mem_append_left _)

theorem startRamp (on : c → s.link.permit = true) (p : RampParams) (recycle : Bool) : (s.startRamp p recycle).Sound n c := by
  unfold State.startRamp
  dsimp only
  split
  · refine endRamp ?_ on
    exact h
  · split
    · refine rampFrom (issue ?_ (.rf true) nofun) ?_ _ _
      · exact h
      · rw [State.issue_out]
        exact on
    · refine rampFrom ?_ ?_ _ _
      · exact h
      · exact on

omit h in
theorem rampRefusal_none (e : s.rampRefusal = none) : s.link.permit = true := by
  unfold State.rampRefusal at e
  split_ifs at e with up remote sound line ready
  simp only [Bool.or_eq_true, not_or, Bool.not_eq_true', Bool.not_eq_false] at ready
  exact ready.1

theorem rampUp (carrier k : Nat) : (s.rampUp carrier k).Sound n c := by
  unfold State.rampUp
  split
  · exact h.emit _
  · next e => exact h.startRamp (fun _ => rampRefusal_none e) _ _

theorem stepDown (k : Nat) : (s.stepDown k).Sound n c := by
  unfold State.stepDown
  split
  · exact h
  · next p _ =>
    have lowered : (if min (commandedCarrier p.carrier k) (s.levelLimit p.carrier) < s.link.level then
        State.issueLevel { s with
          link := { s.link with
            ramp := some { p with step := k, target := s.targetOf p.carrier k }
            plan := s.link.plan.map (PlanItem.cap (s.targetOf p.carrier k)) } } (s.targetOf p.carrier k)
        else { s with
          link := { s.link with
            ramp := some { p with step := k, target := s.targetOf p.carrier k }
            plan := s.link.plan.map (PlanItem.cap (s.targetOf p.carrier k)) } }).Sound n c := by
      refine ite (fun above => issueLevel ?_ fun k _ => (h.law k).carried (by omega)) fun _ => ?_
      · exact h
      · exact h
    dsimp only
    split
    · exact lowered.emit _
    · exact lowered
    · exact lowered
    · exact h

theorem endCarrier : s.endCarrier.Sound n c := by
  unfold State.endCarrier
  dsimp only
  rw [State.rfOff_out]
  refine trySettle ?_
  exact LinkLaw.off rfl (.inr rfl) (fun _ => rfl) fun k => State.issuing_sendable (h.sendable k) nofun

theorem startRampDown : s.startRampDown.Sound n c := by
  refine ite (fun _ => h.endCarrier) fun up => ?_
  rw [State.issueLevel_out]
  exact LinkLaw.carry h (h.permit_of_level (by simpa using up)) (.inr (.inr rfl))
    (fun _ => State.limited_le { s with link := { s.link.stopWork with op := .rampDown } } _)
    (fun k => State.issuing_sendable (s := { s with link := { s.link.stopWork with op := .rampDown } }) (h.sendable k)
      (by rintro _ ⟨⟩; exact State.limited_le _ _)) (List.mem_append_left _)

theorem rampDown : s.rampDown.Sound n c := by
  unfold State.rampDown
  split
  · exact h.emit _
  · exact (h.emit _).endCarrier
  · exact h.endCarrier
  · exact h.startRampDown
  · exact h.startRampDown
  · exact h.startRampDown
  · exact h
  · exact h

theorem nextRung (op : s.link.op = .rampUp) : s.nextRung.Sound n c := by
  unfold State.nextRung
  split
  · refine endRamp (issueLevel ?_ fun _ _ => .inl op) ?_
    · exact h
    · rw [State.issueLevel_out]
      exact h.permit_on (by simp [op])
  · exact h

theorem nextDownRung (op : s.link.op = .rampDown) : s.nextDownRung.Sound n c := by
  unfold State.nextDownRung
  split
  · refine issueLevel ?_ fun _ _ => .inr (.inr op)
    exact h
  · exact h.endCarrier
  · exact h

theorem linkSuspect (t : Nat) (on : Bool) : (s.linkSuspect t on).Sound n c := by
  unfold State.linkSuspect
  dsimp only
  split
  · exact h
  · split
    · split
      · next above =>
        refine emit (issueLevel ?_ ?_) _
        · exact h
        · exact fun k _ => (h.law k).carried fun zero => Nat.not_lt_zero _ (zero ▸ above)
      · exact h
    · exact h

/-! ## Trips (R149 to R151) -/

theorem setTripped : s.setTripped.Sound n c := by
  refine ite (fun _ => h) fun _ => noticeChange ?_
  exact h

omit h in
theorem setTripped_permit : s.setTripped.link.permit = s.link.permit := by
  obtain ⟨_, _, _, e, -⟩ := s.setTripped_noticed
  rw [e]

omit h in
theorem setTripped_level : s.setTripped.link.level = s.link.level := by
  obtain ⟨_, _, _, e, -⟩ := s.setTripped_noticed
  rw [e]

/-- R150: a recycle begins at level 0, beside PERMIT. -/
theorem startRecycle (on : c → s.link.permit = true) (zero : c → s.link.level = 0) : s.startRecycle.Sound n c :=
  ⟨fun on => ⟨(h.remote on).1, nofun, nofun⟩, h.named, fun k =>
    { asserted := by
        show s.link.permit = true ↔ Operation.recycle ≠ .none ∧ Operation.recycle ≠ .settling
        simp [on k]
      carried := fun up => absurd (zero k) up
      rated := (h.law k).rated
      sent := h.sendable k }⟩

theorem takeTripAction (on : c → s.link.permit = true) (zero : c → s.link.level = 0) (count : Nat) (action : TripAction) :
    (s.takeTripAction count action).Sound n c := by
  have ended : State.Sound n c { s with link := { s.link.stopWork with permit := false, op := .settling } } :=
    LinkLaw.off rfl (.inr rfl) zero h.sendable
  have recycled (x : State) (hx : x.Sound n c) (same : x.link.permit = s.link.permit ∧ x.link.level = s.link.level) :
      x.startRecycle.Sound n c :=
    hx.startRecycle (fun k => same.1.trans (on k)) fun k => same.2.trans (zero k)
  unfold State.takeTripAction
  dsimp only
  split
  · refine emit (recycled s.lowerRamp ?_ ⟨rfl, rfl⟩) _
    exact h
  · split
    · exact ((ended.ownFault _ _ _).emit _).trySettle
    · exact (ended.emit _).trySettle
  · exact (recycled s h ⟨rfl, rfl⟩).emit _

theorem countTrip (op : s.link.op = .rampUp ∨ s.link.op = .steady) : s.countTrip.Sound n c := by
  unfold State.countTrip
  dsimp only
  refine takeTripAction (writeLog (setTripped (cutRf ?_)) _) ?_ ?_ _ _
  · exact h
  · intro k
    rw [State.writeLog_link, setTripped_permit, State.cutRf_out]
    exact h.permit_on (by rcases op with e | e <;> simp [e]) k
  · intro _
    rw [State.writeLog_link, setTripped_level, State.cutRf_out]

theorem uncountedTrip : s.uncountedTrip.Sound n c := by
  refine ite (fun _ => endCarrier (issueLevel ?_ fun _ up => absurd (State.limited_zero _) up)) fun _ => h.writeLog _
  exact h.writeLog _

theorem takeTrip : s.takeTrip.Sound n c := by
  refine ite (fun counted => h.countTrip ?_) fun _ => h.uncountedTrip
  simpa using (Bool.and_eq_true_iff.mp counted).1

theorem recycle : s.recycle.Sound n c := by
  unfold State.recycle
  split
  · refine ite (fun due => h.startRamp (h.permit_on ?_) _ _) fun _ => h
    simp only [Bool.and_eq_true, beq_iff_eq] at due
    simp [due.1.1]
  · exact h

theorem endTripWindow : s.endTripWindow.Sound n c := by
  unfold State.endTripWindow
  split
  · refine ite (fun _ => noticeChange ?_) fun _ => ?_
    · exact h
    · exact h
  · exact h

/-! ## Link loss, local control and faults (R141, R152, R153) -/

theorem emptyOut_sendable (k : c) : Sendable s.cfg.rating s.link.emptyOut :=
  fun x hx => h.sendable k x (List.mem_of_mem_take hx)

theorem loseLink : s.loseLink.Sound n c := by
  unfold State.loseLink
  dsimp only
  rw [State.setLevel_eq]
  refine trySettle (emit ?_ _)
  refine LinkLaw.off ?_ ?_ ?_ ?_
  · simp only [Link.stopWork, State.writeLog_link]
  · exact none_or_settling _
  · intro _
    simp only [Link.stopWork, State.writeLog_link]
  · intro k
    simp only [State.writeLog_cfg, Link.stopWork, State.writeLog_link]
    exact h.emptyOut_sendable k

theorem linkUp : s.linkUp.Sound n c := by
  unfold State.linkUp
  split
  · exact h
  · exact h
  · refine emit ?_ _
    exact h.writeLog _

theorem beginLocal : s.beginLocal.Sound n c := by
  unfold State.beginLocal
  dsimp only
  rw [State.setLevel_eq]
  refine emit (noticeChange ?_) _
  exact LinkLaw.off rfl (.inl rfl) (fun _ => rfl) h.emptyOut_sendable

/-- R152: no PERMIT and no level stand under local control. -/
theorem endLocal (loc : s.link.localFlag = true) : s.endLocal.Sound n c := by
  have off : s.link.permit = false := by
    by_contra on
    rw [(h.remote (by simpa using on)).1] at loc
    cases loc
  have zero (k : c) : s.link.level = 0 := by
    by_contra up
    rw [h.permit_of_level up k] at off
    cases off
  unfold State.endLocal
  refine trySettle (emit (noticeChange ?_) _)
  exact LinkLaw.off off (.inr rfl) zero h.sendable

theorem takeLocalFlag (r : Report) : (s.takeLocalFlag r).Sound n c := by
  refine ite (fun _ => h.beginLocal) fun _ => ite (fun ends => h.endLocal ?_) fun _ => h
  exact (Bool.and_eq_true_iff.mp ends).2

theorem beginFault (code : Nat) : (s.beginFault code).Sound n c := by
  unfold State.beginFault
  dsimp only
  rw [State.cutRf_out]
  refine trySettle (emit ?_ _)
  exact LinkLaw.off rfl (none_or_settling _) (fun _ => rfl) fun k => State.cutting_sendable (h.sendable k)

theorem takeFaultCode (r : Report) : (s.takeFaultCode r).Sound n c :=
  ite (fun _ => h) fun _ => ite (fun _ => emit h _) fun _ => ite (fun _ => h.beginFault _) fun _ => emit h _

theorem takeRfFlag (r : Report) : (s.takeRfFlag r).Sound n c := ite (fun _ => h.rfOff) fun _ => h

theorem takeReport (r : Report) : (s.takeReport r).Sound n c := by
  refine ite (fun _ => takeRfFlag (takeSeenClear (linkUp ?_) r) r) fun _ =>
    takeRfFlag (takeTuneFlags (takeFaultCode (takeLocalFlag (linkUp ?_) r) r) r) r
  · exact h
  · exact h

theorem linkJoin (new : JoinState) : (s.linkJoin new).Sound n c := by
  refine ite (fun _ => ?_) fun _ => h
  exact ⟨h.remote, h.named, fun k => { h.law k with sent := nofun }⟩

end State.Sound
end

end Sys2Proof.Machine

/-! SUPPORT. O57: the switch matrix interface (chapter 7) moves the link only where PERMIT falls (R143). -/

namespace Sys2Proof.Machine

section
variable {n c : Prop} {s : State}

namespace State.Sound
variable (h : s.Sound n c)
include h

/-! ## Drives (R124, R127, R128) -/

theorem startDrive (t : Nat) (dir : Direction) (p : Purpose) (stop : Option Int) (openWaits : Bool) :
    (s.startDrive t dir p stop openWaits).Sound n c := h.permitLost .driveStart

theorem testPending : s.testPending.Sound n c := by
  unfold State.testPending
  split
  · exact h
  · refine ite (fun _ => h) fun _ => ?_
    split
    · refine startDrive ?_ _ _ _ _ _
      exact h
    · exact h
    · exact emit h _
    · exact ite (fun _ => h) fun _ => emit h _

theorem abandonClose (d : Drive) (test : CloseTest) : (s.abandonClose d test).Sound n c := emit h _

theorem retestClose : s.retestClose.Sound n c := by
  unfold State.retestClose
  split
  · refine ite (fun _ => ?_) fun _ => h
    split
    · exact h
    · exact h.abandonClose _ _
  · exact h

theorem matrixEntered (t : Nat) : (s.matrixEntered t).Sound n c := ite (fun _ => h.retestClose) fun _ => h

theorem nextOpen (fuel : Nat) : (State.nextOpen fuel s).Sound n c := by
  induction fuel generalizing s with
  | zero => exact h
  | succ fuel ih =>
    unfold State.nextOpen
    split
    · exact h.testPending
    · refine ite (fun _ => ih ?_) fun _ => ite (fun _ => ih (emit ?_ _)) fun _ => startDrive ?_ _ _ _ _ _
      · exact h
      · exact h
      · exact h

theorem nextDrive : s.nextDrive.Sound n c := ite (fun _ => h) fun _ => h.nextOpen _

/-! ## Close and Open (R126, R129) -/

theorem close (t : Nat) (stop : Option Int) : (s.close t stop).Sound n c := by
  refine ite (fun _ => h.emit _) fun _ => ite (fun _ => h.emit _) fun _ => ite (fun _ => h.emit _) fun _ => testPending ?_
  exact h

theorem openTerminal (t : Nat) : (s.openTerminal t).Sound n c := by
  unfold State.openTerminal
  dsimp only
  split
  · exact h
  · refine ite (fun _ => emit ?_ _) fun _ => ite (fun _ => emit ?_ _) fun _ => ?_
    · exact h
    · exact h
    · split
      · exact h
      · refine ite (fun _ => ?_) fun _ => ?_
        · exact h
        · split
          · exact h
          · exact h

/-! ## Drive ends and jams (R125, R131, R132) -/

theorem jamsGone : s.jamsGone.Sound n c := by
  refine ite (fun _ => h) fun _ => noticeChange ?_
  exact h

theorem clearJam (t : Nat) (p : Position) : (s.clearJam t p).Sound n c := by
  refine jamsGone (emit ?_ _)
  exact h.writeLog _

theorem endDrive (d : Drive) : (s.endDrive d).Sound n c := by
  have closed : (State.emit { s with mat := { s.mat.setDrive d.terminal .idle with active := none } }
      [.mxClosed d.terminal]).Sound n c := emit h _
  unfold State.endDrive
  dsimp only
  split
  · exact ite (fun _ => closed.openTerminal _) fun _ => closed
  · exact emit h _

theorem scanDrive : s.scanDrive.Sound n c := by
  unfold State.scanDrive
  split
  · exact h
  · split
    · refine clearJam ?_ _ _
      exact h
    · refine clearJam ?_ _ _
      exact h
    · exact h.endDrive _
    · exact h.endDrive _
    · exact h

theorem scanJams (l : List XRow) : (s.scanJams l).Sound n c := by
  induction l generalizing s with
  | nil => exact h
  | cons x l ih =>
    unfold State.scanJams
    refine ih ?_
    split
    · exact ite (fun _ => h.clearJam _ _) fun _ => h
    · exact ite (fun _ => h.clearJam _ _) fun _ => h
    · exact h

theorem jam (d : Drive) : (s.jam d).Sound n c := by
  unfold State.jam
  dsimp only
  have failed : (State.ownFault (State.writeLog { s with
      mat := { (s.mat.setRow d.terminal fun x => { x with drive := .jammed, failed := d.direction, recovery := true }) with
        active := none } } (.jammed d.terminal 0 d.direction none)) d.terminal .crosspoint faultMinutes).Sound n c := by
    refine ownFault (writeLog ?_ _) _ _ _
    exact h
  generalize State.ownFault _ _ _ _ = x at failed ⊢
  have marked : (if (! s.mat.anyJammed) = true then State.noticeChange { x with alert := { x.alert with jammed := true } }
      else x).Sound n c := by
    refine ite (fun _ => noticeChange ?_) fun _ => failed
    exact failed
  generalize (if (! s.mat.anyJammed) = true then State.noticeChange { x with alert := { x.alert with jammed := true } }
      else x) = y at marked ⊢
  have told : (if (d.purpose == .tidy) = true then y else y.emit [.mxJammed d.terminal d.direction]).Sound n c :=
    ite (fun _ => marked) fun _ => marked.emit _
  exact ite (fun _ => told.nextDrive) fun _ => told.startDrive _ _ _ _ _

theorem endRecovery (d : Drive) : (s.endRecovery d).Sound n c := by
  refine nextDrive ?_
  exact h.writeLog _

theorem resumeDrive : s.resumeDrive.Sound n c := by
  unfold State.resumeDrive
  split
  · exact h
  · refine ite (fun _ => h) fun _ => ?_
    dsimp only
    split
    · exact h.retestClose
    · exact h.retestClose

theorem timeOutDrive : s.timeOutDrive.Sound n c := by
  unfold State.timeOutDrive
  split
  · exact ite (fun _ => h) fun _ => h.jam _
  · exact h

theorem timeOutRecovery : s.timeOutRecovery.Sound n c := by
  unfold State.timeOutRecovery
  split
  · exact ite (fun _ => h.endRecovery _) fun _ => h
  · exact h

theorem rfInactive : s.rfInactive.Sound n c := by
  refine resumeDrive (trySettle ?_)
  exact h

/-! ## Scans (R122, R133) -/

theorem tidy : s.tidy.Sound n c := ite (fun _ => h) fun _ => h

theorem matrixJoin (new : JoinState) : (s.matrixJoin new).Sound n c := ite (fun _ => h.tidy) fun _ => h

theorem takeScan (scan : Contacts) : (s.takeScan scan).Sound n c := by
  refine nextDrive (retestClose (tidy (emit (scanJams (scanDrive (permitScan (mapScan ?_ _))) _) _)))
  exact h

end State.Sound
end

end Sys2Proof.Machine

/-! SUPPORT. O57: the claim engine (chapter 6) moves the law of the link only through the map. -/

namespace Sys2Proof.Machine

section
variable {n c : Prop} {s : State}

namespace State.Sound
variable (h : s.Sound n c)
include h

/-! ## The walk (R102 to R108) -/

theorem handBooked (o : Occurrence) (t : Nat) (how : HowTaken) : (s.handBooked o t how).Sound n c := emit h _

theorem supersede : s.supersede.Sound n c := by
  unfold State.supersede
  split
  · exact h
  · dsimp only
    split
    · exact emit (h.removeOwn _ _) _
    · exact h.removeOwn _ _

theorem enterBooked (o : Occurrence) (t : Nat) : (s.enterBooked o t).1.Sound n c := by
  have freed : (if (ownBooked s.map).isSome then s.supersede else s).Sound n c := ite (fun _ => h.supersede) fun _ => h
  have entered := freed.enterOwnBooked t o.prog.cls s.claim.since s.claim.till
  unfold State.enterBooked
  dsimp only
  split
  · next e =>
    rw [e] at entered
    exact entered
  · next e =>
    rw [e] at entered
    exact entered

theorem takeExtended (o : Occurrence) (t : Nat) (b : Booking) : (s.takeExtended o t b).Sound n c := by
  have extended := h.extendOwn t b.state (min b.cls o.prog.cls) (extendedTill b.till s.claim.till)
  refine handBooked ?_ _ _ _
  split
  · exact extended
  · exact extended

theorem placeClaim (o : Occurrence) (t : Nat) : (s.placeClaim o t).Sound n c := by
  refine ite (fun _ => ?_) fun _ => h
  split
  · exact h
  · exact h

theorem endWalk : s.endWalk.Sound n c := ite (fun _ => emit h _) fun _ => emit h _

theorem walkFrom (fuel : Nat) : (State.walkFrom fuel s).Sound n c := by
  induction fuel generalizing s with
  | zero => exact h
  | succ fuel ih =>
    unfold State.walkFrom
    split
    · exact h
    · next o _ =>
      split
      · refine ite (fun _ => ih ?_) fun _ => h.endWalk
        exact h
      · next t _ =>
        let read : State := { s with claim := { s.claim with index := s.claim.index + 1 } }
        have keeps : read.Sound n c := h
        refine ite (fun _ => ih keeps) fun _ => ite (fun _ => ih ?_) fun _ => ite (fun _ => ih keeps) fun _ => ?_
        · exact h
        · split
          · exact keeps.takeExtended _ _ _
          · refine ite (fun _ => ?_) fun _ => keeps.placeClaim _ _
            have entered := keeps.enterBooked o t
            split
            · next e =>
              rw [e] at entered
              exact entered.handBooked _ _ _
            · next e =>
              rw [e] at entered
              refine ih ?_
              exact entered

theorem walk : s.walk.Sound n c := h.walkFrom _

/-! ## Requests (R100, R101, R118) -/

theorem beginSearch (o : Occurrence) (givenUp : List Nat) : (s.beginSearch o givenUp).Sound n c := by
  unfold State.beginSearch
  split
  · refine ite (fun _ => emit h _) fun _ => walk ?_
    exact h
  · exact h.emit _

theorem askBack (f : FollowUp) : (s.askBack f).Sound n c := emit h _

theorem freeClaim : s.freeClaim.Sound n c := by
  unfold State.freeClaim
  split
  · exact h
  · exact h

theorem search (o : Occurrence) (givenUp : List Nat) : (s.search o givenUp).Sound n c := by
  refine ite (fun _ => h.emit _) fun _ => ?_
  split
  · exact h.askBack _
  · exact h.freeClaim.beginSearch _ _
  · exact h
  · exact h.beginSearch _ _
  · exact h.beginSearch _ _
  · exact h.beginSearch _ _
  · exact h.beginSearch _ _
  · exact h.beginSearch _ _

theorem exhaust (t : Nat) : (s.exhaust t).Sound n c := by
  unfold State.exhaust
  split
  · exact h
  · exact h
  · exact h

theorem resume : s.resume.Sound n c := ite (fun _ => h.walk) fun _ => h

theorem cancelWatched (k : OccKey) : (s.cancelWatched k).Sound n c := by
  unfold State.cancelWatched
  split
  · refine ite (fun _ => ?_) fun _ => h
    split
    · dsimp only
      split
      · exact h.removeOwn _ _
      · exact h
    · exact h
  · exact h

theorem cancelContext (k : OccKey) : (s.cancelContext k).Sound n c := by
  refine ite (fun _ => ?_) fun _ => h
  split
  · exact h.askBack _
  · exact h.freeClaim
  · exact h
  · exact h

theorem cancelClaim (k : OccKey) : (s.cancelClaim k).Sound n c := (h.cancelContext k).cancelWatched k

/-! ## The own claim (R109 to R113) -/

theorem loseClaim : s.loseClaim.Sound n c := by
  refine walk ?_
  exact h.freeClaim

theorem followUp : s.followUp.Sound n c := by
  unfold State.followUp
  dsimp only
  split
  · refine walk ?_
    exact h
  · refine beginSearch ?_ _ _
    exact h
  · exact h
  · exact h

theorem takeClaimSent (start startsIn : Nat) : (s.takeClaimSent start startsIn).Sound n c := by
  unfold State.takeClaimSent
  split
  · refine ite (fun _ => loseClaim ?_) fun _ => ?_
    · exact h
    · exact h
  · exact h.freeClaim.followUp
  · exact h

theorem takeClaimDropped : s.takeClaimDropped.Sound n c := by
  unfold State.takeClaimDropped
  split
  · refine walk ?_
    exact h
  · exact h.followUp
  · exact h

theorem takeClaimWithdrawn : s.takeClaimWithdrawn.Sound n c := by
  unfold State.takeClaimWithdrawn
  split
  · refine ite (fun _ => walk ?_) fun _ => ?_
    · exact h
    · exact h
  · exact h.followUp
  · exact h

theorem endClaimWindow : s.endClaimWindow.Sound n c := by
  unfold State.endClaimWindow
  split
  · next o t _ _ =>
    have entered := h.enterBooked o t
    split
    · next e =>
      rw [e] at entered
      exact entered.handBooked _ _ _
    · next e =>
      rw [e] at entered
      exact entered.loseClaim
  · exact h

/-! ## The watched booking and frames (R110 to R117) -/

theorem loseWatched (w : Watched) (cause : LostCause) : (s.loseWatched w cause).Sound n c := emit (h.removeOwn _ _) _

theorem watchSecond : s.watchSecond.Sound n c := by
  unfold State.watchSecond
  split
  · exact h
  · split
    · exact ite (fun _ => ite (fun _ => h.loseWatched _ _) fun _ => h) fun _ => h
    · exact h

theorem takePreempted (t cls : Nat) : (s.takePreempted t cls).Sound n c := by
  unfold State.takePreempted
  dsimp only
  split
  · exact ite (fun _ => emit h _) fun _ => h
  · exact h

theorem claimDeny (f : RxFrame) : (s.claimDeny f).Sound n c := by
  refine ite (fun _ => h) fun _ => ite (fun _ => h.loseClaim) fun _ => ?_
  split
  · exact ite (fun _ => h.loseWatched _ _) fun _ => h
  · exact h

theorem claimClaim (f : RxFrame) : (s.claimClaim f).Sound n c := by
  refine ite (fun _ => ?_) fun _ => h
  split
  · exact h
  · exact ite (fun _ => h.loseClaim) fun _ => h
  · exact h

theorem claimFault (t : Nat) : (s.claimFault t).Sound n c := ite (fun _ => h.askBack _) fun _ => h

/-! ## Join state and retry (R99, R107, R119) -/

theorem claimJoin (new : JoinState) : (s.claimJoin new).Sound n c := by
  unfold State.claimJoin
  split
  · exact h
  · exact ite (fun _ => h.walk) fun _ => h
  · exact h

theorem retryWalk : s.retryWalk.Sound n c := by
  unfold State.retryWalk
  split
  · exact h
  · refine ite (fun _ => emit h _) fun _ => walk ?_
    exact h

end State.Sound
end

end Sys2Proof.Machine

/-! SUPPORT. O57: the entry sequencer (chapter 10), its contexts, ends and re-evaluation: it moves the law of the link only
through the link, the matrix interface, the claim engine and the map. -/

namespace Sys2Proof.Machine

section
variable {n c : Prop} {s : State}

namespace State.Sound
variable (h : s.Sound n c)
include h

theorem setCur (x : Ctx) : (s.setCur x).Sound n c := h

theorem setNxt (x : Ctx) : (s.setNxt x).Sound n c := h

theorem setEnding (e : Option Machine.Ending) : (s.setEnding e).Sound n c := h

theorem writeEnd (x : Ctx) (code : EndCode) : (s.writeEnd x code).Sound n c := by
  unfold State.writeEnd
  split
  · exact h
  · exact ite (fun _ => h.writeLog _) fun _ => h.writeLog _

theorem writeOn (x : Ctx) (level lateness : Nat) : (s.writeOn x level lateness).Sound n c := by
  unfold State.writeOn
  split
  · exact h
  · exact h.writeLog _

/-! ## The priority of the claim engine (R173) -/

theorem yieldNext : s.yieldNext.Sound n c := by
  unfold State.yieldNext
  split
  · exact h
  · exact ite (fun _ => (h.cancelClaim _).setNxt _) fun _ => h

theorem searchCur : s.searchCur.Sound n c := by
  unfold State.searchCur
  split
  · exact h
  · exact h.yieldNext.search _ _

theorem resumeCur : s.resumeCur.Sound n c := ite (fun _ => h.resume) fun _ => h.searchCur

theorem reclaim : s.reclaim.Sound n c := resumeCur (h.setCur _)

theorem tryNextSearch : s.tryNextSearch.Sound n c := by
  unfold State.tryNextSearch
  split
  · exact h
  · exact ite (fun _ => search (h.setNxt _) _ _) fun _ => h

theorem emptyNext : s.emptyNext.Sound n c := by
  unfold State.emptyNext
  split
  · exact h
  · exact (h.cancelClaim _).setNxt _

/-! ## Releases (R177) -/

theorem handTerminal (t : Nat) (x : Ctx) : (s.handTerminal t x).Sound n c := by
  unfold State.handTerminal
  split
  · exact ite (fun _ => (h.extendOwn _ _ _ _).removeOwn _ _) fun _ => h
  · exact h

theorem startRelease (t : Nat) (stage : ReleaseStage) (waitLink : Bool) : (s.startRelease t stage waitLink).Sound n c :=
  h.setCur _

theorem advanceRelease (last : Bool) : (s.advanceRelease last).Sound n c := by
  unfold State.advanceRelease
  split
  · split
    · exact ite (fun _ => (h.setCur _).handTerminal _ _) fun _ => h
    · exact ite (fun _ => (h.startRelease _ _ _).openTerminal _) fun _ => h
  · exact h

theorem dropHeld (t : Nat) : (s.dropHeld t).Sound n c := by
  unfold State.dropHeld
  split
  · exact ite (fun _ => h.removeOwn _ _) fun _ => h
  · exact h

theorem endRelease (t : Nat) : (s.endRelease t).Sound n c := by
  have ended := (h.setCur { s.seq.cur with release := none }).dropHeld t
  exact ite (fun _ => ended.emit _) fun _ => ended

/-! ## Ends and cuts (R177, R178) -/

theorem stopWork : s.stopWork.Sound n c := by
  have cancelled : (match s.seq.cur.key with
      | some k => s.cancelClaim k
      | none => s).Sound n c := by
    split
    · exact h.cancelClaim _
    · exact h
  unfold State.stopWork
  dsimp only
  split
  · exact cancelled
  · exact cancelled
  · exact h
  · exact h.rampDown
  · exact h.cancelAdmission.rampDown
  · exact h.rampDown
  · exact h.rampDown
  · exact h.rampDown
  · exact h
  · exact h
  · exact h

theorem clearCur : s.clearCur.Sound n c := by
  have emptied (x : Ctx) : (s.stopWork.releaseAdmission.setCur x).Sound n c := h.stopWork.releaseAdmission.setCur x
  unfold State.clearCur
  dsimp only
  split
  · exact emptied _
  · refine ite (fun _ => ?_) fun _ => emptied _
    split
    · exact (emptied _).handTerminal _ _
    · exact (emptied _).startRelease _ _ _

theorem beginCurrent (x : Occurrence) : (s.beginCurrent x).Sound n c := by
  have moved := (h.setCur (s.seq.nxt.movedInto s.seq.cur)).setNxt Ctx.reset
  exact ite (fun _ => ite (fun _ => searchCur (moved.setCur _)) fun _ => moved) fun _ => searchCur (h.setCur _)

theorem beginIfAny (x : Option Occurrence) : (s.beginIfAny x).Sound n c := by
  unfold State.beginIfAny
  split
  · exact h.beginCurrent _
  · exact h

theorem beginUnspent (x : Option Occurrence) : (s.beginUnspent x).Sound n c := ite (fun _ => h) fun _ => h.beginIfAny _

/-! ## Continuation (R176) -/

theorem admitCur : s.admitCur.Sound n c := by
  unfold State.admitCur
  split
  · exact h.requestStep _ _
  · exact h

theorem continueInto : s.continueInto.Sound n c := by
  have recorded (m nxt : Ctx) : State.Sound n c (State.writeOn (((s.writeEnd s.seq.cur .completed).setCur m).setNxt nxt) m
      (((s.writeEnd s.seq.cur .completed).setCur m).setNxt nxt).link.level 0) :=
    writeOn (setNxt ((h.writeEnd _ _).setCur _) _) _ _ _
  unfold State.continueInto
  dsimp only
  split
  · exact recorded _ _
  · exact ite (fun _ => admitCur ((recorded _ _).setCur _)) fun _ =>
      ite (fun _ => stepDown (lowerTo ((recorded _ _).setCur _) _) _) fun _ => recorded _ _

theorem finishCurrent (code : EndCode) (x : Option Occurrence) : (s.finishCurrent code x).Sound n c := by
  have waits := h.setEnding none
  unfold State.finishCurrent
  dsimp only
  split
  · exact ite (fun _ => waits.continueInto) fun _ => beginIfAny (waits.writeEnd _ _).clearCur _
  · exact (waits.writeEnd _ _).clearCur

theorem awaitSearch (code : EndCode) (k : OccKey) (x : Occurrence) : (s.awaitSearch code k x).Sound n c := by
  have next : (if s.seq.nxt.key == some x.key then s else s.emptyNext.setNxt (s.freshCtx x false)).Sound n c :=
    ite (fun _ => h) fun _ => h.emptyNext.setNxt _
  unfold State.awaitSearch
  dsimp only
  generalize (if s.seq.nxt.key == some x.key then s else s.emptyNext.setNxt (s.freshCtx x false)) = u at next ⊢
  have waits := (next.setNxt { u.seq.nxt with deferred := false }).setEnding (some { code := code, occ := k, next := x })
  exact ite (fun _ => waits) fun _ => waits.search _ _

theorem endCurrent (code : EndCode) (x : Option Occurrence) : (s.endCurrent code x).Sound n c := by
  unfold State.endCurrent
  split
  · exact ite (fun _ => ite (fun _ => h) fun _ => h.awaitSearch _ _ _) fun _ => h.finishCurrent _ _
  · exact h.finishCurrent _ _

theorem makeEnd (e : Machine.Ending) : (s.makeEnd e).Sound n c := by
  refine emit ?_ _
  exact ite (fun _ => h.finishCurrent _ _) fun _ => h.setEnding _

theorem endOn (k : OccKey) : (s.endOn k).Sound n c := by
  unfold State.endOn
  split
  · exact ite (fun _ => h.makeEnd _) fun _ => h
  · exact h

theorem advanceEnding : s.advanceEnding.Sound n c := by
  unfold State.advanceEnding
  split
  · exact ite (fun _ => h) fun _ => h.makeEnd _
  · exact h

/-! ## Re-evaluation (R170, R171, R173) -/

theorem compareCurrent (boundary : Bool) : (s.compareCurrent boundary).Sound n c := by
  unfold State.compareCurrent
  dsimp only
  split
  · split
    · exact h.setCur _
    · exact h.beginUnspent _
  · refine ite (fun _ => (h.setCur _).setEnding _) fun _ => ite (fun _ => ite (fun _ => h) fun _ => ?_) fun _ =>
      h.endCurrent _ _
    refine beginUnspent (clearCur (setEnding ?_ _)) _
    exact ite (fun _ => h) fun _ => h.writeEnd _ _

theorem extendAll : s.extendAll.Sound n c := by
  have held : (match ownHeld s.map with
      | some (t, b) =>
        if s.seq.nxt.terminal == some t && (ownBooked s.map).map (fun x : Nat × Booking => x.1) != some t then
          s.extendOwn t .held b.cls (some s.seq.nxt.stopSec)
        else if s.seq.cur.terminal == some t then s.extendOwn t .held b.cls (some s.seq.cur.stopSec)
        else s
      | none => s).Sound n c := by
    split
    · exact ite (fun _ => h.extendOwn _ _ _ _) fun _ => ite (fun _ => h.extendOwn _ _ _ _) fun _ => h
    · exact h
  unfold State.extendAll
  dsimp only
  split
  · exact ite (fun _ => held.extendOwn _ _ _ _) fun _ => ite (fun _ => held.extendOwn _ _ _ _) fun _ => held
  · exact held

theorem reconvert : s.reconvert.Sound n c := by
  unfold State.reconvert
  refine extendAll ?_
  exact h

theorem evaluate (boundary again : Bool) : (s.evaluate boundary again).Sound n c := by
  have converted : (if again then s.reconvert else s).Sound n c := ite (fun _ => h.reconvert) fun _ => h
  refine emit ?_ _
  exact ite (fun _ => converted) fun _ => converted.compareCurrent _

theorem arm : s.arm.Sound n c := by
  unfold State.arm
  refine evaluate ?_ _ _
  exact h

theorem reevaluate (boundary again : Bool) : (s.reevaluate boundary again).Sound n c :=
  ite (fun _ => h.evaluate _ _) fun _ => ite (fun _ => h.arm) fun _ => h

theorem prepareNext : s.prepareNext.Sound n c := by
  unfold State.prepareNext
  refine ite (fun _ => h) fun _ => ?_
  dsimp only
  have emptied : (if (s.nextEntry.map fun o : Occurrence => o.key).isNone
      || s.seq.cur.key == (s.nextEntry.map fun o : Occurrence => o.key)
      || s.seq.nxt.key != (s.nextEntry.map fun o : Occurrence => o.key) then s.emptyNext else s).Sound n c :=
    ite (fun _ => h.emptyNext) fun _ => h
  generalize (if (s.nextEntry.map fun o : Occurrence => o.key).isNone
      || s.seq.cur.key == (s.nextEntry.map fun o : Occurrence => o.key)
      || s.seq.nxt.key != (s.nextEntry.map fun o : Occurrence => o.key) then s.emptyNext else s) = u at emptied ⊢
  have prepared : (match s.nextEntry with
      | none => u
      | some o =>
        if u.seq.cur.key == (s.nextEntry.map fun o : Occurrence => o.key)
            || u.seq.nxt.key == (s.nextEntry.map fun o : Occurrence => o.key) then u
        else if u.seq.cur.state == SeqState.idle then
          (u.setCur { u.freshCtx o false with release := u.seq.cur.release, spent := u.seq.cur.spent }).searchCur
        else u.setNxt { u.freshCtx o false with deferred := true }).Sound n c := by
    split
    · exact emptied
    · exact ite (fun _ => emptied) fun _ => ite (fun _ => searchCur (emptied.setCur _)) fun _ => emptied.setNxt _
  exact ite (fun _ => prepared.emit _) fun _ => prepared

theorem takeFoundTest : s.takeFoundTest.Sound n c := by
  have offered : State.Sound n c { s with seq := { s.seq with foundOffer := false } } := h
  unfold State.takeFoundTest
  dsimp only
  split
  · exact ite (fun _ => offered) fun _ => offered.startRelease _ _ _
  · exact offered

theorem offerEnds : s.offerEnds.Sound n c := ite (fun _ => h.emit _) fun _ => h

end State.Sound
end

end Sys2Proof.Machine

/-! SUPPORT. O57: the entry sequencer's answers to the notices of the other blocks (chapter 10). -/

namespace Sys2Proof.Machine

section
variable {n c : Prop} {s : State}

namespace State.Sound
variable (h : s.Sound n c)
include h

/-! ## Outcomes of the claim engine (R173, R174, R179) -/

theorem seqBooked (k : OccKey) (t : Nat) (how : HowTaken) (suspect : Bool) : (s.seqBooked k t how suspect).Sound n c :=
  ite (fun _ => ite (fun _ => offerEnds (h.setCur _)) fun _ => h) fun _ => ite (fun _ => h.setNxt _) fun _ => h

theorem endSearch (code : EndCode) (spent : Option OccKey) : (s.endSearch code spent).Sound n c := by
  refine offerEnds (setCur (releaseAdmission ?_) _)
  exact ite (fun _ => h) fun _ => h.writeEnd _ _

theorem seqExhausted (k : OccKey) : (s.seqExhausted k).Sound n c :=
  ite (fun _ => h.endSearch _ _) fun _ => ite (fun _ => h.setNxt _) fun _ => h

theorem seqExpired (k : OccKey) : (s.seqExpired k).Sound n c :=
  ite (fun _ => h.endSearch _ _) fun _ => ite (fun _ => h.setNxt _) fun _ => h

theorem seqWaiting (k : OccKey) : (s.seqWaiting k).Sound n c := ite (fun _ => h.offerEnds) fun _ => h

theorem seqLost (t : Nat) (k : OccKey) : (s.seqLost t k).Sound n c :=
  ite (fun _ => ite (fun _ => h.reclaim) fun _ => h) fun _ =>
    ite (fun _ => ite (fun _ => resume (h.setNxt _)) fun _ => h.setNxt _) fun _ => h

/-! ## Switching (R174) -/

theorem closeCur (t : Nat) : (s.closeCur t).Sound n c := close (h.setCur _) _ _

theorem advanceAwait (last : Bool) : (s.advanceAwait last).Sound n c := by
  unfold State.advanceAwait
  split
  · next t _ _ =>
    refine ite (fun _ => h) fun _ => ite (fun _ => h.closeCur _) fun _ => ?_
    have promoted := h.promote t
    split
    · next e =>
      rw [e] at promoted
      exact promoted.closeCur _
    · exact h.reclaim
  · exact h

theorem tuneCur : s.tuneCur.Sound n c := by
  unfold State.tuneCur
  split
  · exact tune (h.setCur _) _ _ _ _ _
  · exact h

theorem closeAgain : s.closeAgain.Sound n c := by
  unfold State.closeAgain
  split
  · exact ite (fun _ => h.closeCur _) fun _ => h
  · exact h

theorem seqClosed (t : Nat) : (s.seqClosed t).Sound n c := ite (fun _ => h.tuneCur) fun _ => h.closeAgain

theorem closeFailed (t : Nat) : (s.closeFailed t).Sound n c :=
  ite (fun _ => (h.dropHeld _).reclaim) fun _ => h.closeAgain

theorem seqOpened (t : Nat) (reversal : Bool) : (s.seqOpened t reversal).Sound n c :=
  ite (fun _ => (h.endRelease _).closeAgain) fun _ => ite (fun _ => h.closeFailed _) fun _ => h.closeAgain

theorem seqMxWaiting (t : Nat) : (s.seqMxWaiting t).Sound n c := ite (fun _ => h.setCur _) fun _ => h.closeAgain

theorem seqBusy (t : Nat) : (s.seqBusy t).Sound n c := ite (fun _ => h.setCur _) fun _ => h

theorem giveUp (t : Nat) (cause : FaultCause) (stage : ReleaseStage) : (s.giveUp t cause stage).Sound n c := by
  unfold State.giveUp
  dsimp only
  split
  · exact h
  · have released (x : Ctx) (body : LogBody) := startRelease (setCur (h.writeLog body).releaseAdmission x) t stage false
    refine reclaim ?_
    exact ite (fun _ => (released _ _).exhaust _) fun _ => released _ _

theorem seqJammed (t : Nat) : (s.seqJammed t).Sound n c :=
  ite (fun _ => (h.startRelease _ _ _).closeAgain) fun _ => ite (fun _ => h.giveUp _ _ _) fun _ =>
    ite (fun _ => (h.startRelease _ _ _).closeAgain) fun _ => h.closeAgain

theorem seqCleared (t : Nat) (p : Position) : (s.seqCleared t p).Sound n c := by
  refine ite (fun _ => ?_) fun _ => h
  split
  · exact h.endRelease _
  · exact (h.startRelease _ _ _).openTerminal _
  · exact h

theorem seqMoved (t : Nat) : (s.seqMoved t).Sound n c := ite (fun _ => h.closeCur _) fun _ => h

/-! ## The way to the air (R175) -/

theorem onTuned : s.onTuned.Sound n c := by
  unfold State.onTuned
  dsimp only
  split
  · exact rampUp (h.setCur _) _ _
  · exact ite (fun _ => admitCur (h.setCur _)) fun _ => h.setCur _

theorem seqTuned (t : Option Nat) : (s.seqTuned t).Sound n c := ite (fun _ => h.onTuned) fun _ => h

theorem rampTimeComes : s.rampTimeComes.Sound n c := ite (fun _ => h.onTuned) fun _ => h

theorem seqAdmitted (k : Nat) : (s.seqAdmitted k).Sound n c := by
  unfold State.seqAdmitted
  dsimp only
  split
  · split
    · exact ite (fun _ => rampUp (h.setCur _) _ _) fun _ => ite (fun _ => stepDown (h.setCur _) _) fun _ => h.setCur _
    · exact rampUp (h.setCur _) _ _
  · exact h

theorem seqPwWaiting : s.seqPwWaiting.Sound n c := by
  unfold State.seqPwWaiting
  split
  · exact (h.setCur _).cancelAdmission
  · exact h

theorem seqRamped (level : Nat) : (s.seqRamped level).Sound n c := by
  unfold State.seqRamped
  dsimp only
  split
  · exact h
  · exact ite (fun _ => h) fun _ => ite (fun _ => h.setCur _) fun _ => (h.setCur _).writeOn _ _ _

theorem seqSuspect (t : Nat) (on : Bool) : (s.seqSuspect t on).Sound n c := h

theorem seqCapped : s.seqCapped.Sound n c := h.setCur _

theorem seqTxRefused (kind : RetryKind) : (s.seqTxRefused kind).Sound n c := ite (fun _ => h.setCur _) fun _ => h

theorem retryNow : s.retryNow.Sound n c := by
  unfold State.retryNow
  dsimp only
  split
  · exact ite (fun _ => (h.setCur _).tuneCur) fun _ => h
  · exact ite (fun _ => rampUp (h.setCur _) _ _) fun _ => h
  · exact h

theorem noRetry : s.noRetry.Sound n c := h.setCur _

/-! ## Faults and breaks (R179, R180) -/

theorem seqTrip (number : Nat) (action : TripAction) (k : Nat) : (s.seqTrip number action k).Sound n c := by
  unfold State.seqTrip
  dsimp only
  split
  · exact h
  · split
    · exact h.setCur _
    · refine setCur ?_ _
      exact ite (fun _ => h.cancelAdmission) fun _ => h

theorem seqGiveUp (t : Option Nat) (cause : FaultCause) : (s.seqGiveUp t cause).Sound n c := by
  unfold State.seqGiveUp
  split
  · exact ite (fun _ => h.giveUp _ _ _) fun _ => h
  · exact h

theorem seqLinkLost : s.seqLinkLost.Sound n c := by
  have ended (x : Ctx) := setCur (h.writeEnd s.seq.cur .lost).releaseAdmission x
  refine ite (fun _ => ite (fun _ => ?_) fun _ => h.setCur _) fun _ => h
  split
  · exact (ended _).startRelease _ _ _
  · exact ended _

theorem seqLinkBack : s.seqLinkBack.Sound n c := by
  refine emit ?_ _
  exact ite (fun _ => tuneCur (h.setCur _)) fun _ => h.setCur _

theorem seqBreak (k : Break) : (s.seqBreak k).Sound n c := ite (fun _ => h.setCur _) fun _ => h

theorem returnToTune : s.returnToTune.Sound n c := by
  unfold State.returnToTune
  split
  · exact ite (fun _ => tuneCur (h.setCur _)) fun _ => closeCur (h.setCur _) _
  · exact h

theorem seqTxClear : s.seqTxClear.Sound n c := by
  unfold State.seqTxClear
  split
  · exact ite (fun _ => h.returnToTune) fun _ => h
  · exact ite (fun _ => h.tuneCur) fun _ => h
  · exact h

theorem seqDetuned : s.seqDetuned.Sound n c := ite (fun _ => tuneCur (h.setCur _)) fun _ => h

theorem seqSettled : s.seqSettled.Sound n c := by
  refine ite (fun _ => h.setCur _) fun _ => ite (fun _ => ?_) fun _ => h
  split
  · refine ite (fun _ => h.setCur _) fun _ => ?_
    split
    · exact h.closeCur _
    · exact h
  · exact ite (fun _ => h.setCur _) fun _ => h.returnToTune
  · exact h

theorem takeSettled : s.takeSettled.Sound n c := ite (fun _ => h.noRetry.tuneCur) fun _ => h.noRetry.seqSettled

/-! ## Local control and the join state (R181, R169, R182) -/

theorem seqLocal : s.seqLocal.Sound n c := by
  unfold State.seqLocal
  refine ite (fun _ => h) fun _ => setCur ?_ _
  have cancelled : (match s.seq.cur.key with
      | some k =>
        if s.seq.cur.state == SeqState.claiming || s.seq.cur.state == SeqState.awaitTerminal then s.cancelClaim k else s
      | none => s).Sound n c := by
    split
    · exact ite (fun _ => h.cancelClaim _) fun _ => h
    · exact h
  exact ite (fun _ => cancelled) fun _ => cancelled.writeEnd _ _

theorem seqRemote : s.seqRemote.Sound n c := ite (fun _ => emit (h.setCur _) _) fun _ => h.emit _

theorem takeReleaseKept : s.takeReleaseKept.Sound n c := by
  unfold State.takeReleaseKept
  split
  · exact ite (fun _ => h) fun _ => h.startRelease _ _ _
  · exact h

theorem seqJoin (new : JoinState) : (s.seqJoin new).Sound n c := by
  unfold State.seqJoin
  split
  · exact h
  · exact emit h _
  · exact h

theorem seqReleased (t : Nat) : (s.seqReleased t).Sound n c := h.dropHeld _

theorem advance (last : Bool) : (s.advance last).Sound n c :=
  ((h.advanceEnding.advanceRelease last).advanceAwait last).tryNextSearch

end State.Sound
end

end Sys2Proof.Machine

/-! SUPPORT and PROOF. O57: the hand-outs and the commands keep the law of the link. -/

namespace Sys2Proof.Machine

section
variable {n c : Prop} {s : State}

namespace State.Sound
variable (h : s.Sound n c)
include h

/-! ## Hand-outs -/

theorem powerJoin (new : JoinState) : (s.powerJoin new).Sound n c := ite (fun _ => h) fun _ => h.chooseIfWaiting

theorem takeJoin (new : JoinState) : (s.takeJoin new).Sound n c :=
  (((((h.claimJoin new).powerJoin new).seqJoin new).matrixJoin new).linkJoin new).discardDisabled

theorem takeFrame (kind : FrameKind) (f : RxFrame) : (s.takeFrame kind f).Sound n c :=
  match kind with
  | .deny => (h.mapDeny f).claimDeny f
  | .free => h.mapFreeFrame f
  | .claim => (h.mapClaim f).claimClaim f
  | .intent => h.powerIntent f
  | .notice => (h.mapNotice f).powerNotice f
  | .fault => (h.mapFaultFrame f).claimFault _
  | .time => h.takeTime f
  | .request => h.takeRequest f

theorem takeSuspect (t : Nat) (on : Bool) : (s.takeSuspect t on).Sound n c :=
  ((h.powerSuspect t on).linkSuspect t on).seqSuspect t on

theorem take (m : Handed) : (s.take m).Sound n c :=
  match m with
  | .joinNotice _ new => h.takeJoin new
  | .joinTail old new cause => h.joinTail old new cause
  | .isolation => h.takeIsolation
  | .frame kind f => h.takeFrame kind f
  | .claimSent start startsIn _ => h.takeClaimSent start startsIn
  | .claimDropped => h.takeClaimDropped
  | .claimWithdrawn => h.takeClaimWithdrawn
  | .preempted t cls => h.takePreempted t cls
  | .intentSent start => h.takeIntentSent start
  | .intentDropped => h.takeIntentLost
  | .intentCancelled => h.takeIntentLost
  | .replyGone => h.endRequest
  | .heldChanged => permitHeld h
  | .suspect t on => h.takeSuspect t on
  | .entered t => h.matrixEntered t
  | .levelChanged => h.powerLevel
  | .powerLocal => h.takePowerLocal
  | .powerRemote => h.takePowerRemote
  | .powerStepLower k => h.takeStepLower k
  | .noticePlaced => h.chooseIfWaiting
  | .booked k t _ how suspect => (h.seqBooked k t how suspect).endOn k
  | .waiting k => (h.seqWaiting k).endOn k
  | .exhausted k => (h.seqExhausted k).endOn k
  | .expired k => (h.seqExpired k).endOn k
  | .searchRefused k => (h.seqWaiting k).endOn k
  | .lostBooking t k _ => h.seqLost t k
  | .mxClosed t => h.seqClosed t
  | .mxOpened t reversal => h.seqOpened t reversal
  | .mxReleased t => h.seqReleased t
  | .mxWaiting t _ => h.seqMxWaiting t
  | .mxAbandoned _ _ => h.closeAgain
  | .mxJammed t _ => h.seqJammed t
  | .mxCleared t p => h.seqCleared t p
  | .mxMoved t _ _ => (h.permitLost .ownMoved).seqMoved t
  | .mxBusy t => h.seqBusy t
  | .mxNotHeld t => h.closeFailed t
  | .txTuned t => h.noRetry.seqTuned t
  | .txTuneFailed t _ => ite (fun _ => h.noRetry.seqGiveUp t .tuneFailed) fun _ => h.noRetry
  | .txTuneAborted _ => h.noRetry
  | .txDetuned _ => h.noRetry.seqDetuned
  | .txRamped level _ _ => h.noRetry.seqRamped level
  | .txCapped _ => h.noRetry.seqCapped
  | .txSettled => h.takeSettled
  | .txTrip k action lower => h.noRetry.seqTrip k action lower
  | .txTripExhausted t => h.noRetry.seqGiveUp t .trips
  | .txPermitLost cause => h.noRetry.seqBreak (breakOf cause)
  | .txLinkLost _ => h.noRetry.seqLinkLost
  | .txLinkBack => h.noRetry.seqLinkBack
  | .txLocal _ => h.noRetry.seqLocal
  | .txRemote => h.noRetry.seqRemote
  | .txFault _ => h.noRetry.seqBreak .txFault
  | .txClear => h.noRetry.seqTxClear
  | .txRefused kind _ => h.seqTxRefused kind
  | .pwAdmitted k _ _ => h.seqAdmitted k
  | .pwWaiting _ => h.seqPwWaiting
  | .pwRefused _ => h
  | .reevaluate boundary again => h.reevaluate boundary again
  | .storeNotice _ => h.reevaluate false false
  | .storeExtra slot x => h.storeExtra slot x
  | .placeReply _ => h
  | .prepareNext => h.prepareNext
  | .foundTest => h.takeFoundTest
  | .releaseKept => h.takeReleaseKept

/-- R142, R143: the hand-out that told of another own HELD terminal is gone once it has been taken, and PERMIT does not
stand on another one then. -/
theorem taken {m : Handed} {rest : List Handed} (e : s.handed = m :: rest) :
    (State.take { s with handed := [] } m).Sound (n ∧ .heldChanged ∉ rest) c := by
  by_cases changed : m = .heldChanged
  · subst changed
    refine permitHeld (m := False) ?_
    exact ⟨h.remote, False.elim, h.law⟩
  · refine take ?_ m
    have untold (waits : .heldChanged ∉ rest) : .heldChanged ∉ s.handed := by
      rw [e]
      exact List.not_mem_cons_of_ne_of_not_mem (Ne.symm changed) waits
    exact ⟨h.remote, fun ⟨k, waits⟩ on => .inl ((h.named k on).resolve_right (untold waits)), h.law⟩

theorem drainFrom (fuel : Nat) : (State.drainFrom fuel s).Sound n c := by
  induction fuel generalizing s with
  | zero => exact h
  | succ fuel ih =>
    unfold State.drainFrom
    split
    · exact h
    · next m rest e =>
      have advanced := (h.taken e).advance rest.isEmpty
      refine ih ⟨advanced.remote, fun k on => ?_, advanced.law⟩
      by_cases changed : .heldChanged ∈ rest
      · exact .inr (List.mem_append_right _ changed)
      · exact (advanced.named ⟨k, changed⟩ on).imp_right (List.mem_append_left _)

theorem drain : s.drain.Sound n c := h.drainFrom _

/-! ## The commands -/

theorem atTime (t : Nat) : (s.atTime t).Sound n c :=
  ⟨h.remote, h.named, fun k => { h.law k with sent := fun x hx => h.sendable k x (List.mem_of_mem_filter hx) }⟩

theorem receive (kind : RxKind) (f : RxFrame) : (s.receive kind f).Sound n c := by
  have heard {x : State} (hx : x.Sound n c) (start : Nat) : (x.hear start).Sound n c := by
    unfold State.hear
    refine takeHeard ?_ start
    exact hx
  refine ite (fun _ => h) fun _ => ite (fun _ => heard h _) fun _ => ite (fun _ => heard ?_ _) fun _ => ?_
  · exact ite (fun _ => h.takeDuplicate) fun _ => h
  · unfold State.dispatch
    split
    · exact ite (fun _ => (heard h _).emit _) fun _ => heard h _
    · exact heard h _

theorem endAttempt (r : Bus × List Handed) : (s.endAttempt r).Sound n c := emit h _

theorem reportIn (bytes : List Byte) : (s.reportIn bytes).Sound n c := ite (fun _ => h.takeReport _) fun _ => h

theorem tripIn : s.tripIn.Sound n c := by
  refine ite (fun _ => h) fun _ => ite (fun _ => takeTrip ?_) fun _ => ?_
  · exact h
  · exact h

theorem tripOut : s.tripOut.Sound n c := by
  unfold State.tripOut
  refine recycle ?_
  exact h

/-- R192: an accepted hand-over leaves the link at its reset values. -/
theorem handOver (image : Option RawImage) (scan : Contacts) : (s.handOver image scan).Sound n c := by
  refine ite (fun _ => h) fun _ => ?_
  split
  · refine writeLog ?_ _
    exact LinkLaw.off rfl (.inl rfl) (fun _ => rfl) fun _ => nofun
  · refine changeJoin ?_ _ _
    exact h

omit h in
theorem op_of_rungDue {op : Operation} (due : s.rungDue op = true) : s.link.op = op :=
  eq_of_beq (Bool.and_eq_true_iff.mp due).1

theorem ruleOf (i : Instr) : (Machine.ruleOf i s).Sound n c :=
  match i with
  | .reset => h
  | .handOver _ image scan => h.handOver image scan
  | .bankOpen _ => h.serve 0 fun _ p k => k.bankOpen p
  | .entryPut _ => h.serve 1 fun _ p k => k.entryPut p
  | .bankClose _ => h.serve 2 fun _ p k => k.bankClose p
  | .extraPut _ => h.serve 3 fun _ p k => k.extraPut p
  | .extraDrop _ => h.serve 4 fun _ p k => k.extraDrop p
  | .entryGet _ => h.serve 5 fun _ p k => k.entryGet p
  | .logGet _ => h.serve 6 fun _ p k => k.logGet p
  | .statusGet _ => h.serve 7 fun _ _ k => k
  | .serialMemoryWriteEnd _ kept => h.endWrite kept
  | .busIdleOffer _ => h
  | .arbitrationLost _ => h.endAttempt _
  | .attemptSucceeded _ => h.endAttempt _
  | .attemptFailed _ => h.endAttempt _
  | .frameCrcBad _ => h
  | .denyReceived _ f => h.receive _ f
  | .freeReceived _ f => h.receive _ f
  | .claimReceived _ f => h.receive _ f
  | .intentReceived _ f => h.receive _ f
  | .noticeReceived _ f => h.receive _ f
  | .faultReceived _ f => h.receive _ f
  | .timeReceived _ f => h.receive _ f
  | .requestReceived _ f => h.receive _ f
  | .otherFrameReceived _ _ f => h.receive _ f
  | .minuteBoundary _ => h.boundaryIfDue
  | .holdoverExpiry _ => ite (fun _ => h) fun _ => h
  | .clockRangeEnd _ => ite (fun _ => h.endRange) fun _ => h
  | .listeningTimerExpiry _ => ite (fun _ => h.changeJoin _ _) fun _ => h
  | .learningTimerExpiry _ => ite (fun _ => h.changeJoin _ _) fun _ => h
  | .silenceDeadline _ => ite (fun _ => h.changeJoin _ _) fun _ => h
  | .noticePeriod _ => ite (fun _ => emit h _) fun _ => h
  | .noticePendingDue _ => ite (fun _ => h) fun _ => h
  | .bookingAging _ => h.ageMap
  | .bookedExpiry _ => h.expireMap
  | .suspectExpiry _ => h.expireSuspects
  | .matrixScan _ scan => ite (fun _ => h.takeScan scan) fun _ => h
  | .driveTimeout _ => h.timeOutDrive
  | .recoveryDriveTimeout _ => h.timeOutRecovery
  | .rfPresentActive _ => h
  | .rfPresentInactive _ => h.rfInactive
  | .reportReceived _ bytes => h.reportIn bytes
  | .txRecordDiscarded _ _ => h
  | .linkLossDeadline _ => ite (fun _ => h.loseLink) fun _ => h
  | .tuneDeadline _ => ite (fun due => h.failTune true (eq_of_beq (Bool.and_eq_true_iff.mp due).1)) fun _ => h
  | .rampRungDue _ => ite (fun due => h.nextRung (op_of_rungDue due)) fun _ => h
  | .rampDownRungDue _ => ite (fun due => h.nextDownRung (op_of_rungDue due)) fun _ => h
  | .tripAsserted _ => h.tripIn
  | .tripDeasserted _ => h.tripOut
  | .tripWindowExpiry _ => ite (fun _ => h.endTripWindow) fun _ => h
  | .recycleTime _ => h.recycle
  | .intentWindowEnd _ => ite (fun _ => h.endIntentWindow) fun _ => h
  | .backoffEnd _ => ite (fun _ => h.endBackoff) fun _ => h
  | .intentExpiry _ => ite (fun _ => h.expireIntents) fun _ => h
  | .claimWindowEnd _ => ite (fun _ => h.endClaimWindow) fun _ => h
  | .claimRetry _ => ite (fun _ => h.retryWalk) fun _ => h
  | .claimWatch _ => h.watchSecond
  | .rampTime _ => h.rampTimeComes
  | .sequencerRetry _ => ite (fun _ => h.retryNow) fun _ => h
  | .unknownKindFrameReceived _ _ _ => h

theorem run (i : Instr) (u : Nat) : (s.run u (Machine.ruleOf i)).Sound n c := drain (ruleOf (h.atTime u) i)

end State.Sound
end

/-! ## Every step -/

/-- R142, R139: every step from a state with the interlock keeps the law of the link. -/
theorem step_sound {n c : Prop} {s t : State} (h : s.Sound n c) (e : step s = .next t) : t.Sound n c := by
  unfold step at e
  split at e
  · cases e
    exact h.atTime (s.now + 1)
  · next i rest _ =>
    have popped : State.Sound n c { s with pending := rest } := h
    by_cases reset : i = .reset
    · subst reset
      cases e
      exact LinkLaw.off rfl (.inl rfl) (fun _ => rfl) fun _ => nofun
    · obtain ⟨u, rfl⟩ := exec_next e reset
      exact popped.run i u

theorem step_interlock {s t : State} (h : Interlock s) (e : step s = .next t) : Interlock t := by
  unfold step at e
  split at e
  · cases e
    obtain ⟨driven, permit⟩ := (LawsKept.atTime s (s.now + 1)).lines h.lines
    exact ⟨⟨driven, permit⟩, h.closing⟩
  · next i rest _ =>
    by_cases reset : i = .reset
    · subst reset
      cases e
      exact (AtReset.takeReset _).interlock
    · obtain ⟨u, rfl⟩ := exec_next e reset
      obtain ⟨laws, -, -⟩ := run_laws i { s with pending := rest } u
      exact ⟨laws.lines ⟨h.lines.driven, h.lines.permit⟩, laws.closing h.closing⟩

/-- Settles O57: each rule and each hand-out keeps the interlock, the own HELD terminal of PERMIT and the law of the
carrier. -/
theorem everyStepKeepsTheInterlock : Obligations.EveryStepKeepsTheInterlock := by
  intro s t h e
  have kept := step_sound (State.Sound.of_laws (n := PermitNamed s) (c := CarrierLaw s.link s.cfg.rating) h.lines id id) e
  exact ⟨step_interlock h e, fun named on => kept.named named on, fun law => carrierLaw_iff.mpr (kept.law law)⟩

end Sys2Proof.Machine
